-- ==== Sys2Proof/Word.lean ====
section
/-! DEFINITION. The word type of the register space (R7) and the byte of the ENV store (R333). -/

namespace Sys2Proof

/-- A register: 32 bits, bit 0 least significant (R7). -/
abbrev Word := BitVec 32

/-- One byte of the ENV store or of a frame. -/
abbrev Byte := BitVec 8

end Sys2Proof
end

