-- ==== Sys2Proof/Syntax.lean ====
section
/-! DEFINITION. The commands of the block: one constructor per row of spec/opcode_table.json, with the operands the row's
rule names. Operands that an analog input, a pin, a wire or another device supplies stand for what that outside world
presents. -/

namespace Sys2Proof

/-- What a check of a written ENV line finds (R334). -/
inductive Flaw where
  /-- A single-bit error, corrected. -/
  | corrected
  /-- An uncorrectable SEC-DED error. -/
  | ecc
  /-- An integrity-tag mismatch. -/
  | tag
  deriving DecidableEq, Repr

/-- A line, by its address, and what the check of R334 finds on it during the command that reads it. -/
abbrev LineFlaws := List (Nat × Flaw)

/-- The words of a SEAL event: its GROUP, which an error names, and its EPOCH (R232, R233). -/
structure SealWords where
  group : BitVec 32
  epoch : BitVec 32
  deriving DecidableEq, Repr

/-- The destination and the origin of a cascade frame (R402, R405). -/
structure FrameEnds where
  dst : BitVec 12
  org : BitVec 12
  deriving DecidableEq, Repr

/-- The state a HELLO carries: the start-up phase and the down ports present (R406, R407). -/
structure HelloState where
  phase : BitVec 3
  ports : BitVec 4
  deriving DecidableEq, Repr

/-- How a PMBus transaction ends (R459). -/
inductive PmbEnd where
  | ok | addrNack | dataNack | badPec | busLow
  deriving DecidableEq, Repr

/-- A fast comparator of a channel, with the kind code of R88. -/
inductive Cmp where
  | ov | uv | oc
  deriving DecidableEq, Repr

/-- A double- or single-bit error that a counter check finds (R523): on a leaf, an island total or a device total. -/
inductive CntSpot where
  | leaf (ch j : Nat)
  | isl (i j : Nat)
  | dev (j : Nat)
  deriving DecidableEq, Repr

/-- The commands. -/
inductive Instr where
  -- start-up and reset (02, 01)
  | powerOnResetRelease
  | fuseReadDone (badA badB : BitVec 8) (strap : Bool)
  | bootS2Done (vio33 : Bool)
  | journalReplayDone (flaws : LineFlaws)
  | slotChoiceDone (flaws : LineFlaws)
  | configLoadDone
  | vauxCollapse
  | vauxRecover
  | resetNFilterExpiry
  | orderlyResetComplete
  | sysRstCtrlSoft (key : BitVec 16)
  | softResetTakeEffect (csRise : Bool)
  | mainClockRestart
  | islandLost (isl : Nat)
  | timebaseFullValue (isl : Nat) (slip : Int)
  | viewReqNow (cnt : Bool)
  | viewReqAt (cnt : Bool)
  | viewCapture
  | viewDone
  -- channels and sensing (03)
  | comparatorTrip (ch : Nat) (k : Cmp) (level held : Nat)
  | comparatorRelease (ch : Nat) (k : Cmp) (level : Nat)
  | channelSample (ch v i : Nat)
  | pgPinChange (ch : Nat) (level : Bool)
  | hvsSample (k code : Nat)
  | hsSenseSample (code : Nat)
  | hsBreakerTrip (held : Nat)
  | hsGoodLossTimeout
  | thresholdStageWrite (ch reg : Nat) (value : BitVec 32)
  | chApply (ch : Nat)
  | chDiscard (ch : Nat)
  | thresholdHoldEnd (ch : Nat)
  | chLockKey (ch : Nat) (key : BitVec 16)
  | chLockPairTimeout (ch : Nat)
  | pmbusPoll (ch : Nat)
  | pmbusTransactionDone (res : PmbEnd) (data : BitVec 16)
  | pmbusRetry
  | pmbusStretchTimeout
  -- sequencing (04, 05)
  | seqOnRequest
  | seqOffRequest
  | latchedOnAct
  | railEnable (r : Nat)
  | qualificationExpiry (r : Nat)
  | startTimeoutExpiry (r : Nat)
  | deglitchExpiry (ch : Nat)
  | dischargeTimeoutExpiry (ch : Nat)
  | retryWaitExpiry (ch : Nat)
  | seqTlogRead
  | seqTlogClr
  | seqSpringCtlWrite (dis : Bool)
  | springLimitExpiry (ch : Nat)
  -- margining and health (06)
  | mgnNominal (ch : Nat)
  | mgnHigh (ch : Nat)
  | mgnLow (ch : Nat)
  | mgnTarget (ch : Nat) (pct : BitVec 8)
  | mgnOlcode (ch : Nat) (code : BitVec 10)
  | marginServoUpdate (ch : Nat)
  | marginWalkStep (ch : Nat)
  | mgnCampGo (corner : BitVec 2) (abort : Bool)
  | campaignCorner
  | campaignReport
  | prbGo (ch : Nat)
  | prbBaseReset (ch : Nat)
  | probeDue (ch : Nat)
  | probeStart
  | probeBaselineEnd
  | probeStepEnd
  | probeFitDone (wn zeta qeff fitQ : Nat)
  -- ledger and hold-up (07)
  | ledgerOpen (blk : Nat) (bytes : BitVec 16) (group epoch : BitVec 32)
  | ledgerDone (blk : Nat) (group : BitVec 32)
  | ledgerSeal (blk : Nat) (words : SealWords)
  | ledgerPad (blk : Nat)
  | macVerifyPass (blk undef : Nat)
  | macVerifyFail (blk : Nat)
  | inputLoss
  | rideThroughGateOn
  | hldHold
  | hldRelease
  | hldDrain
  | epochRecordPeriod
  -- faults (08)
  | wireFault (src : Nat)
  | firstFaultLatch
  | sourceLevelDecay (src : Nat)
  | graceExpiry
  | safeStateAdvance
  | fltAck (src : BitVec 11)
  | fltClr (src : BitVec 11)
  | fltSafeClr
  | fltFfRearm
  | fltPrivClear (bits : BitVec 5)
  | collectorSelfFault (why : BitVec 4)
  | fltInjGo (src : BitVec 11) (wire : Bool)
  | fltLogRead
  | fltLogClr
  -- watchdog (09)
  | wdgStart
  | wdgWindowOpen
  | wdgExpiry
  | wdgPeriodWrite (next : BitVec 13)
  | wdgAns (task : BitVec 3) (answer : BitVec 16)
  | wdgSvc (svc : BitVec 16)
  | wdgKey (key : BitVec 16)
  | wdgKeyPairTimeout
  | wdoPulseEnd
  | clkmonWindowEnd (count : Nat) (edgeOnEnd : Bool)
  -- ENV store, journal, black box (10)
  | envRead (flaws : LineFlaws)
  | envWriteFull (flaws : LineFlaws)
  | envWritePart (flaws : LineFlaws)
  | envLineWriteDone
  | journalRecordAppend
  | hoursIncrement
  | countRecordPeriod
  | envHarvest
  | harvestDone (flaws : LineFlaws)
  | jrdFrom (seq : BitVec 32)
  | jrdNext
  | bbxChunkEnd (isl : Nat)
  | bbxTrig
  | bbxRelease
  | bbxCaptureCommit
  -- configuration (11)
  | cfgLoad (force : BitVec 2)
  | reloadDone (flaws : LineFlaws)
  | cfgApply
  | rtApplyVerified (flaws : LineFlaws)
  -- cascade (12)
  | casPortUp (p : Nat)
  | casAckTimeout (p : Nat)
  | casLockLoss (p : Nat)
  | casLinkAck (p lseq : Nat)
  | casLinkNak (p lseq : Nat)
  | casInterbyteTimeout (p : Nat)
  | casFrameInvalid (p : Nat) (why : BitVec 2) (lseq : Nat)
  | casEnum (p lseq : Nat) (path : BitVec 16) (depth : Nat) (addr : BitVec 12) (delay : BitVec 8)
  | casHello (p lseq : Nat) (addr : BitVec 12) (uid : BitVec 64) (variant : BitVec 4) (time : Nat) (delay : Nat)
      (path : BitVec 16) (depth : Nat) (state : HelloState) (refused : Bool)
  | casTimeSend
  | casTime (lseq value atSof : Nat)
  | casTimeAbsence
  | casRail (p lseq : Nat) (ends : FrameEnds) (rail : BitVec 8) (code : BitVec 3)
  | casSub (p lseq : Nat) (ends : FrameEnds) (rail : BitVec 8) (subscribe : Bool)
  | casFault (p lseq : Nat) (org : BitVec 12) (src : BitVec 11) (level : BitVec 2) (safe : Bool) (stamp : BitVec 64)
  | casState (p lseq : Nat) (org : BitVec 12) (seq : BitVec 3)
  | casDom (lseq : Nat) (on : Bool) (phase : BitVec 3) (actTick : Nat)
  | domAct
  | domPhaseTimeout
  | casEqx (lseq capTick : Nat) (cnt : Bool)
  | casEqxRep (p lseq : Nat) (org : BitVec 12) (ok : Bool) (why : BitVec 4)
  | casMgn (lseq : Nat) (corner : BitVec 2) (tick : Nat) (abort : Bool)
  | casMgnRep (p lseq : Nat) (org : BitVec 12) (nmember npass nfail : BitVec 8) (rail : BitVec 8) (why : BitVec 4)
  | casReset (lseq : Nat) (dst : BitVec 12)
  | casLost (p lseq : Nat) (addrs : List (BitVec 12))
  | casJoin (lseq : Nat) (addr : BitVec 12)
  | orphanDelayExpiry
  | casDomOn
  | casDomOff
  | casEqxGo (cnt : Bool)
  | casCtrlReset (target : BitVec 12)
  -- host port (13)
  | hmpRead (addr : BitVec 24) (len : BitVec 16) (crc : BitVec 32)
  | hmpWrite (addr : BitVec 24) (len : BitVec 16) (payload : List (BitVec 32)) (crc : BitVec 32)
  | hmpResend (addr : BitVec 24) (len : BitVec 16) (crc : BitVec 32)
  | hmpChal (addr : BitVec 24) (len : BitVec 16) (crc : BitVec 32)
  | hmpOpen (addr : BitVec 24) (len : BitVec 16) (hmac : List (BitVec 8)) (crc : BitVec 32)
  | hmpClose (addr : BitVec 24) (len : BitVec 16) (crc : BitVec 32)
  | hmpCsRise
  | hmpInterbyteTimeout
  | hmpSessionIdleExpiry
  | hmpNonceExpiry
  | hmpLockoutEnd
  -- media-controller link (13, 14)
  | mcpLaneInService (lane : Nat)
  | mcpLaneLoss (lane hdr : Nat)
  | mcpKx (blk : Nat) (nonce : List (BitVec 8))
  | mcpKeyTimeout
  | mcpAlarm (blk : Nat) (index : BitVec 8)
  | mcpDrainAck (blk : Nat)
  | mcpFill (blk : Nat)
  | mcpLctlAck (n : Nat)
  | mcpLctlNak (n : Nat)
  | mcpBlockTimeout (blk : Nat)
  | mcpAckTimeout
  | mcpSilence
  -- PMBus pass-through and JTAG (13, 14)
  | lnkPmbGo (dev : BitVec 5) (cmd : BitVec 8)
  | jtagBypass
  | jtagIdcode
  | jtagSamplePreload (pads : List (BitVec 16))
  | jtagExtest
  | jtagClamp
  | jtagHighz
  | trstNFall
  | dbgChal
  | dbgAuth (level : BitVec 8) (hmac : List (BitVec 8))
  | dbgStat
  | dbgReg (addr : BitVec 24) (write : Bool) (data : BitVec 32)
  | dbgReset
  | dbgOff
  | dbgNonceExpiry
  | dbgLockoutEnd
  -- link test (13)
  | ltModeOff (t : Nat)
  | ltModePrbs (t : Nat) (poly : BitVec 2)
  | ltModeNear (t : Nat)
  | ltModeFar (t : Nat)
  | ltInj (t : Nat)
  | ltClr (t : Nat)
  | ltCheckerLock (t : Nat) (goodRun errors window : Nat)
  -- lifecycle, keys, tamper (14)
  | toProvisioned (key : BitVec 16)
  | toDeployed (key : BitVec 16)
  | toReturned (key : BitVec 16)
  | toRetired (key : BitVec 16)
  | root (key : BitVec 16)
  | arb (key : BitVec 16)
  | wdgFuse (key : BitVec 16) (win : BitVec 2) (hwStart : Bool)
  | lcOperationDone (readBackOk : Bool)
  | installSkey (level : BitVec 2)
  | installPair
  | installCkey (index : BitVec 8)
  | eraseCkey (index : BitVec 8)
  | restore (index : BitVec 8)
  | keyCmdDone
  | unwrapDone (flaws : LineFlaws)
  | tamperPin
  | tamperGlitch
  -- power ladder (14, 17)
  | pwrToSummer
  | pwrToAutumn
  | pwrToWinter
  | pwrToMidwinter
  | rungEntryStop
  | winMidExpiry
  | wakeTExpiry
  | wake (src : BitVec 4)
  | rungExitDone
  | overtemp
  -- pins (15)
  | gpioPenWrite (value : BitVec 32)
  | gpioOutSet (p : Nat) (bits : BitVec 16)
  | gpioOutClr (p : Nat) (bits : BitVec 16)
  | gpioDirWrite (p : Nat) (value : BitVec 16)
  | gpioPullWrite (p : Nat) (value : BitVec 32)
  | gpioMirSelWrite (k : Nat) (value : BitVec 32)
  | gpioLock (p : Nat) (key mask : BitVec 16)
  | gpioLockPairTimeout (p : Nat)
  | wakePinActive (levels : BitVec 8)
  | pinLineEdge (p pin : Nat) (level : Bool)
  -- counters (16)
  | cntFreeze
  | cntThaw
  | cntSnap
  | cntSnapCapture
  | cntSnapDone
  | cntLeafLoWrite (ch j : Nat) (value : BitVec 32)
  | cntLeafHiWrite (ch j : Nat) (value : BitVec 32)
  | cntScrub (isl : Nat) (single double : List CntSpot)
  | tpWindowEnd (port : Nat)
  -- rows added last in the table
  | inputLossComparatorRelease
  | hsGateOn
  | ocBlankEnd (ch : Nat)
  | hmpEcmd (cmd : BitVec 8)
  | ledgerKindReject (blk : Nat) (kind : BitVec 8) (group : BitVec 32)
  deriving DecidableEq, Repr

end Sys2Proof
end

