-- ==== Sys2Proof/Config.lean ====
section
/-! DEFINITION. What an implementation fixes or the manual leaves open: constants with no body, so that nothing can be
proved about a value of theirs. The cryptographic functions are named by the manual and defined outside it. -/

namespace Sys2Proof.Config

/-- Bytes from the random source of the security island (R318, R442, R475, R483): a free value, a fresh one for each
value of the counter `Sec.rnd`. -/
opaque random : Nat → List (BitVec 8)

/-- How far the settled tick lies behind the timebase beyond the tick in progress (R33 bounds it by 40 in all): a free value for
each timebase tick. -/
opaque settledLag : Nat → Nat

/-- SHA-384 of a byte string (R371): 48 bytes, defined outside the manual. -/
opaque sha384 : List (BitVec 8) → List (BitVec 8)

/-- ECDSA P-384 verification (R371): key (96 bytes), digest, signature (96 bytes); `false` also where the key is no point
of the curve or r or s lies outside 1 to n - 1. -/
opaque ecdsaOk : List (BitVec 8) → List (BitVec 8) → List (BitVec 8) → Bool

/-- AES-CMAC of a message under a key (R450). -/
opaque aesCmac : List (BitVec 8) → List (BitVec 8) → List (BitVec 8)

/-- HMAC-SHA-256 (R443, R475, R483, R472): key, message. -/
opaque hmac256 : List (BitVec 8) → List (BitVec 8) → List (BitVec 8)

/-- RFC 3394 key wrap: wrapping key, key (R472, R484). -/
opaque keyWrap : List (BitVec 8) → List (BitVec 8) → List (BitVec 8)

/-- RFC 3394 key unwrap: wrapping key, wrapped key; `none` where the integrity value fails (R472, R481). -/
opaque keyUnwrap : List (BitVec 8) → List (BitVec 8) → Option (List (BitVec 8))

/-- The 256-bit device secret of the security island, never readable (text before R472). -/
opaque deviceSecret : List (BitVec 8)

/-- KEK_D, derived from the device secret by a derivation the manual does not give. -/
opaque kekOf : List (BitVec 8) → List (BitVec 8)

/-- The Rice parameter chosen among parameters of equal coded length (R357 asks for the least length and leaves a tie
open): a free value of the signal's samples. -/
opaque riceTie : List Nat → Nat

/-- The key from which the transport key of an open session is derived whose session key has been erased since (R472): a free value
of the level (notes/assumptions/67). -/
opaque noKey : Nat → List (BitVec 8)

/-- The page a pass-through transaction sends to a PAGED device (R457, R461): the command register names none, a free value of the
device. -/
opaque passPage : Nat → Nat

/-- The polarity by which a PMBus device with OOC set is set up that no channel is bound to (R458): a free value of the device. -/
opaque unboundLow : Nat → Bool

/-- Whether the MAC of a block had arrived when its link was lost, for the block and the stamp of its last frame byte (R241): a free
value. -/
opaque macIn : Nat → Nat → Bool

/-- How many chunks of a capture stand written when an input loss of a stamp turns the rest to summary form (R361): a free value. -/
opaque chunksWritten : Nat → Nat

/-- How the fit of a probe brings a derived quantity to its unit, and an impedance outside its range (R213): a free value of the
quantity and its integer part. -/
opaque fitRound : Nat → Nat → Nat

/-- A register's low bits where the manual states no result for the operands (mantissas and readings beyond a field's
range): a free value of the exact integer. -/
opaque beyondRange : Int → Nat

/-- The level in the safe-state report of a privileged event, which has none (R423): a free value. -/
opaque privLevel : Nat

/-- How long the report pair of a source stays invalid after a wire fault with a stamp (R275): a free value. -/
opaque wireLen : Nat → Nat → Nat

/-- How long the failed check of a collector self-fault still fails after a stamp (R302): a free value. -/
opaque selfLen : Nat → Nat

/-- How long TAMPER_N stays low after a tamper of a stamp (R487): a free value. -/
opaque tamperLen : Nat → Nat

/-- How long the junction stays above 140 °C after a stamp (R537): a free value. -/
opaque hotLen : Nat → Nat

/-- Whether a fuse field whose read-back failed reads its new value (R470), for a stamp: a free value. -/
opaque fuseReads : Nat → Bool

/-- Whether a journal line that was being written at a reset by clock loss or VAUX collapse has completed with its marker
(R268, R549), for a stamp: a free value. -/
opaque lineSurvives : Nat → Bool

/-- GPIO_ERR_INFO.PIN of a LOCKSEQ error, which concerns no one pin, for a stamp (R515): a free value. -/
opaque lockPin : Nat → Nat

/-- Payload bytes of a cascade frame type whose layout the manual does not give (R402, R406): a free value, used below 49. -/
opaque casLen : Nat → Nat

/-- Byte `k` of the payload of a cascade frame of a type and its content: the manual names what a payload holds and not how it is laid
out (R406); a free value. -/
opaque casByte (type : Nat) (content : List Nat) (k : Nat) : BitVec 8

/-- What the check of R334 finds on the lines that a command without such an operand reads, for its stamp: a free value. -/
opaque readFlaws : Nat → LineFlaws

/-- Whether further bytes follow, in the same assertion of HMP_CS_N, a frame that a timeout has ended (R437), for its stamp: a free
value. -/
opaque moreBytes : Nat → Bool

/-- The level of a boundary-scan cell after so many loads of the chain: no row carries what is shifted in (R462; a free value,
notes/assumptions/84). -/
opaque scanCell : Nat → Nat → Bool

end Sys2Proof.Config
end

