-- ==== Sys2Proof/Machine/Tab.lean ====
section
/-! DEFINITION. Sparse tables: a list of (key, value) pairs in one canonical form, keys strictly rising and no entry equal
to what an unlisted key reads as. Registers that come in numbers (channels, sources, leaves) and the bytes of the ENV store
are kept in them. -/

namespace Sys2Proof.Machine

/-- A table from numbers to `α`, as a list of entries. -/
abbrev Tab (α : Type) := List (Nat × α)

/-- The value at key `k`, `d` where no entry lists it. -/
def tget {α : Type} (d : α) : Tab α → Nat → α
  | [], _ => d
  | (k', v) :: r, k => if k = k' then v else tget d r k

/-- The table without an entry for `k`. -/
def tdel {α : Type} : Tab α → Nat → Tab α
  | [], _ => []
  | (k', v) :: r, k => if k = k' then tdel r k else (k', v) :: tdel r k

/-- The table with the entry (`k`, `v`) put in before the first higher key. -/
def tins {α : Type} : Tab α → Nat → α → Tab α
  | [], k, v => [(k, v)]
  | (k', v') :: r, k, v => if k < k' then (k, v) :: (k', v') :: r else (k', v') :: tins r k v

/-- The table with key `k` reading `v`; the default is stored by leaving the entry out. -/
def tset {α : Type} [DecidableEq α] (d : α) (t : Tab α) (k : Nat) (v : α) : Tab α :=
  if v = d then tdel t k else tins (tdel t k) k v

/-- The table with key `k` changed by `f`. -/
def tmod {α : Type} [DecidableEq α] (d : α) (t : Tab α) (k : Nat) (f : α → α) : Tab α :=
  tset d t k (f (tget d t k))

/-- The table with every entry changed by `f`; entries that come to the default go. -/
def tmap {α : Type} [DecidableEq α] (d : α) (f : Nat → α → α) : Tab α → Tab α
  | [] => []
  | (k, v) :: r => if f k v = d then tdel (tmap d f r) k else (k, f k v) :: tmap d f r

/-- The keys rise strictly from above `lo`, and no entry holds the default. -/
def tabWfFrom {α : Type} [DecidableEq α] (d : α) : Nat → Tab α → Bool
  | _, [] => true
  | lo, (k, v) :: r => decide (lo ≤ k) && decide (v ≠ d) && tabWfFrom d (k + 1) r

/-- The canonical form of a table. -/
def tabWf {α : Type} [DecidableEq α] (d : α) (t : Tab α) : Bool := tabWfFrom d 0 t

/-- A set of numbers: a table of Booleans, false where unlisted. -/
abbrev NatSet := Tab Bool

end Sys2Proof.Machine
end

