-- ==== Sys2Proof/Machine/State.lean ====
section
/-! DEFINITION. The state of the supervisor: every register, log, queue, timer and pin the manual gives it, as plain data,
and the state right after reset. A register the manual loads from the bitstream (reset column "cfg") holds 0 before a
configuration is loaded (notes/assumptions/1), a field that shows a live input holds 0 before its first sample
(notes/assumptions/2). All times are timebase ticks. -/

namespace Sys2Proof.Machine

/-! ## Names of fixed sets -/

/-- The two variants (R1). -/
inductive Variant where
  | dz128 | dz32
  deriving DecidableEq, Repr

/-- Start-up phases of R54, with the reset hold before S1 (R52), HALT (R60) and recovery mode (R69). `s4`, `s5` also stand
for the phases of a reload (R391). -/
inductive Phase where
  | por | s1 | s2 | s3 | s4 | s5 | ready | recovery | halt
  deriving DecidableEq, Repr

/-- Rail states (R129). -/
inductive RailState where
  | off | waiting | spring | ramping | qualifying | good | failed | blocked | retryWait | stopping | discharging
  | dischargeTimeout
  deriving DecidableEq, Repr

/-- Margin states (R190). -/
inductive MgnState where
  | nominal | moving | held | returning
  deriving DecidableEq, Repr

/-- Probe phases (R212). -/
inductive PrbPhase where
  | idle | queued | baseline | step | ret | fit
  deriving DecidableEq, Repr

/-- Session levels, lowest first (R441). -/
inductive Level where
  | user | operator | owner | vendor
  deriving DecidableEq, Repr

/-- Power rungs (R488). -/
inductive Rung where
  | summer | autumn | winter | midwinter
  deriving DecidableEq, Repr

/-- Lifecycle states (R466). -/
inductive Lcs where
  | blank | provisioned | deployed | returned | retired
  deriving DecidableEq, Repr

/-- Debug levels (R477). -/
inductive Dbg where
  | off | observe | control | factory
  deriving DecidableEq, Repr

/-- JTAG instructions (R462, R475). -/
inductive JtagIr where
  | bypass | idcode | sample | extest | clamp | highz | dbgChal | dbgAuth | dbgStat | dbgReg | dbgReset | dbgOff
  deriving DecidableEq, Repr

/-- MCP link states (R447). -/
inductive McpLink where
  | down | training | up | degraded
  deriving DecidableEq, Repr

/-- Cascade states of a device (R410). -/
inductive CasSt where
  | down | linked | joined | locked | refused | leader
  deriving DecidableEq, Repr

/-- Cascade port states (R401). -/
inductive PortLink where
  | disabled | training | up | down
  deriving DecidableEq, Repr

/-! ## Hardware -/

/-- A fuse field: two copies (R59). Parity is judged when the array is read. -/
structure Fuse where
  a : Nat := 0
  b : Nat := 0
  deriving DecidableEq, Repr

/-- The fuse array (R62). ARB_FLOOR is kept as its 64 bits, LCS as its 16. -/
structure Fuses where
  step : Fuse := { a := 1, b := 1 }
  hwStart : Fuse := {}
  win : Fuse := {}
  arb : Fuse := {}
  uid : Fuse := {}
  lcs : Fuse := {}
  root : Fuse := {}
  trim : Fuse := {}
  deriving DecidableEq, Repr

/-- What the device is built of. -/
structure Hw where
  variant : Variant := .dz128
  fuses : Fuses := {}
  deriving DecidableEq, Repr

/-- The fuse values taken in S1 (R59, R61); `aBad` has a bit for each field, in the order of R62, whose copy A was discarded. -/
structure Taken where
  step : Nat := 1
  hwStart : Bool := false
  win : Nat := 0
  arb : Nat := 0
  uid : Nat := 0
  lcs : Nat := 0
  root : Nat := 0
  aBad : Nat := 0
  deriving DecidableEq, Repr

/-! ## Write-1-to-clear words -/

/-- A status register that a write of 1 clears: its bits, and those that the hardware has set on the present tick, which a
write of that tick leaves set (R11). -/
structure Irq where
  st : Word := 0
  fresh : Word := 0
  deriving DecidableEq, Repr

/-! ## SYS -/

/-- A pending coherent view (R36, R37, R425). -/
structure ViewReq where
  at_ : Nat := 0
  cnt : Bool := false
  eqx : Bool := false
  deriving DecidableEq, Repr

/-- An orderly reset in progress (R77), or a soft reset that waits for the journal (R549): its bits of SYS_RST_CAUSE and its
tick. -/
structure ResetPend where
  cause : Nat
  since : Nat
  deriving DecidableEq, Repr

/-- Islands, timebase, view and start-up registers (01, 02). `strobe` counts the tick strobes of the
main clock, which pace the sampling frames (R96). `haltHold` lies in the always-on island: HALT has been entered since the
last power-on reset (R60). -/
structure Sys where
  phase : Phase := .por
  tb : Nat := 0
  settled : Nat := 0
  mainClock : Bool := false
  rcAcc : Nat := 0
  strobe : Nat := 0
  vauxDown : Bool := false
  lost : Nat := 0
  viewAt : Nat := 0
  viewReq : Option ViewReq := none
  shadow : Option (ViewReq × Tab Word) := none
  view : Tab Word := []
  viewMiss : Nat := 0
  viewTick : Nat := 0
  viewDone : Bool := false
  viewCode : Nat := 0
  viewSrc : Bool := false
  irq : Irq := {}
  irqEn : Word := 0
  hiCap : Tab (Option Word) := []
  rstCause : Nat := 1
  rstCode : Nat := 0
  softAt : Option Nat := none
  pend : Option ResetPend := none
  slot : Nat := 0
  okA : Bool := false
  okB : Bool := false
  errA : Nat := 0
  errB : Nat := 0
  jrnl : Nat := 0
  fuseDis : Bool := false
  haltHold : Bool := false
  bootTime : Nat := 0
  taken : Taken := {}
  strap : Bool := false
  vio33 : Bool := false
  deferred : List Nat := []
  deriving DecidableEq, Repr

/-! ## Rail channels, sequencing, margining (03 to 06) -/

/-- The threshold set of a channel (R105): six register words. -/
structure Thr where
  ov : Word := 0
  uv : Word := 0
  oc : Word := 0
  good : Word := 0
  nom : Word := 0
  vdis : Word := 0
  deriving DecidableEq, Repr

/-- Words of a channel that the bitstream loads. -/
structure ChCfg where
  cfg : Word := 0
  igain : Word := 0
  pmb : Word := 0
  mgnCfg : Word := 0
  mgnTgt : Word := 0
  prbCfg : Word := 0
  prbLim : Word := 0
  deriving DecidableEq, Repr

/-- Words of a rail that the bitstream loads (SEQ block). -/
structure RailCfg where
  time0 : Word := 0
  time1 : Word := 0
  rflag : Word := 0
  p01 : Word := 0
  p23 : Word := 0
  p45 : Word := 0
  p67 : Word := 0
  spring : Word := 0
  deriving DecidableEq, Repr

/-- A comparator: its published output, the live output of the detector, and the end of the hold of R108 that runs on it. -/
structure CmpSt where
  out : Bool := false
  live : Bool := false
  holdEnd : Option Nat := none
  deriving DecidableEq, Repr

/-- Sensing and pins of a channel (03). Sample lists hold the latest first, at most 128; `vt` gives the strobe of each sample. `pgPin`
is the synchronised level of CHn_PG before its polarity, `armAt` the tick on which an assertion of EN in progress takes effect and
arms comparators, `was` the threshold set that a set made active on a tick has replaced, `pinCfg` CH_CFG of the load that has ended
last, which the pins and the arming of OV follow (R73, R389). -/
structure Sense where
  act : Thr := {}
  stg : Thr := {}
  applyCode : Nat := 0
  locked : Bool := false
  lockAt : Option Nat := none
  ov : CmpSt := {}
  uv : CmpSt := {}
  oc : CmpSt := {}
  ocBlankEnd : Option Nat := none
  was : Option (Nat × Thr) := none
  pgPin : Bool := false
  pinCfg : Word := 0
  meas : Bool := false
  good : Bool := false
  v : Nat := 0
  i : Nat := 0
  vh : List Nat := []
  ih : List Nat := []
  vt : List Nat := []
  nEn : Nat := 0
  en : Bool := false
  enAt : Nat := 0
  armAt : Option Nat := none
  dis : Bool := false
  disAt : Nat := 0
  trimOn : Bool := false
  trim : Int := 0
  irq : Irq := {}
  irqEn : Word := 0
  pmbVi : Word := 0
  pmbTs : Word := 0
  pollNext : Option Nat := none
  polling : Bool := false
  deriving DecidableEq, Repr

/-- Sequencing state of a rail (04, 05). `shut` holds the REQ_SRC of the shut-down the rail is in, `mask` the origin of the masking of
R292 and `maskAt` the stamp of the shut-down it began with, `since` the stamp of its last transition. `rolled` says that it was rolled
back and has not come up or gone OFF since, `hold` that EN waits for a sample below V_dis (R182), `timed` that `due` is the end of its
delay. -/
structure Rail where
  state : RailState := .off
  since : Nat := 0
  goodAt : Nat := 0
  due : Option Nat := none
  startEnd : Option Nat := none
  qualEnd : Option Nat := none
  disEnd : Option Nat := none
  retryEnd : Option Nat := none
  dglEnd : Option Nat := none
  specEnd : Option Nat := none
  failWhy : Nat := 0
  attempt : Nat := 0
  dto : Bool := false
  blockBy : Nat := 0xFFFF
  outcome : Nat := 0
  rolled : Bool := false
  hold : Bool := false
  timed : Bool := false
  retried : Bool := false
  shut : Option Nat := none
  mask : Option Nat := none
  maskAt : Nat := 0
  deriving DecidableEq, Repr

/-- Margining of a channel (06). `pct` keeps the requested percentage so that a clamped target can be recomputed (R202),
`reqAt` the tick of the last accepted request for a target (R223). -/
structure Margin where
  st : MgnState := .nominal
  clamped : Bool := false
  code : Nat := 0
  target : Nat := 0
  pct : Int := 0
  goal : Int := 0
  inband : Nat := 0
  nextAt : Nat := 0
  reqAt : Option Nat := none
  campHold : Bool := false
  campLimit : Bool := false
  campRefused : Bool := false
  campCmd : Nat := 0
  irq : Irq := {}
  irqEn : Word := 0
  deriving DecidableEq, Repr

/-- The rail health probe of a channel (06). `trend` lists the qualified probes of the baseline as (ZOUT, FC, PM). -/
structure Probe where
  phase : PrbPhase := .idle
  outcome : Nat := 0
  anom : Nat := 0
  dv : Nat := 0
  zout : Nat := 0
  fc : Nat := 0
  pm : Nat := 0
  fitQ : Nat := 0
  base : List (Nat × Nat × Nat) := []
  nqual : Nat := 0
  lastHours : Nat := 0
  phaseEnd : Nat := 0
  baseV : List Nat := []
  baseI : List Nat := []
  recV : List Nat := []
  recI : List Nat := []
  deltaV : Int := 0
  aborting : Bool := false
  deriving DecidableEq, Repr

/-- A channel; key 128 of the table is channel HS, which uses `rail`, `rcfg` and the good result and gate drive of
`sense`. -/
structure Chan where
  ch : ChCfg := {}
  rcfg : RailCfg := {}
  sense : Sense := {}
  rail : Rail := {}
  mgn : Margin := {}
  prb : Probe := {}
  deriving DecidableEq, Repr

/-- An entry of the transition log (R164). -/
structure TEntry where
  rail : Nat
  old : RailState
  new : RailState
  cause : Nat
  stamp : Nat
  deriving DecidableEq, Repr

/-- A remote reference (R160): address, rail, state code, receipt stamp, and whether the bitstream defines it. -/
structure Remote where
  addr : Nat := 0
  rail : Nat := 0
  state : Nat := 0
  stamp : Nat := 0
  valid : Bool := false
  deriving DecidableEq, Repr

/-- The sequencer (04, 05). `onLatch` holds the REQ_SRC of a latched on request, `onWait` on requests as (REQ_SRC, stamp) that wait for
the off requests of their stamp (R154), `sets` the shut-down sets still being carried out. -/
structure Seq where
  code : Nat := 0
  reqSrc : Nat := 0
  onLatch : Option Nat := none
  onWait : List (Nat × Nat) := []
  sets : List (List Nat) := []
  everOn : Bool := false
  offSinceOn : Bool := false
  hostOffAt : Option Nat := none
  auto : Bool := false
  last : Nat := 0
  tlog : List TEntry := []
  tlogOvf : Bool := false
  tlogTs : Nat := 0
  irq : Irq := {}
  irqEn : Word := 0
  remote : Tab Remote := []
  springDis : Bool := false
  nEnter : Nat := 0
  nConf : Nat := 0
  nRoll : Nat := 0
  springIrq : Irq := {}
  springIrqEn : Word := 0
  springLast : Word := 0
  springLastTs : Nat := 0
  deriving DecidableEq, Repr

/-- An HVS input (R111 to R114); `beyondLo`, `beyondHi` say that its latest sample lay beyond the threshold, `fresh`
that none has been taken since a load or a change of its thresholds. -/
structure Hvs where
  role : Nat := 0
  thr : Word := 0
  code : Nat := 0
  beyondLo : Bool := false
  beyondHi : Bool := false
  fresh : Bool := false
  deriving DecidableEq, Repr

/-- The capacitance measurement (R224 to R226). -/
structure CapWin where
  armed : Bool := false
  openCode : Option Nat := none
  sum : Nat := 0
  n : Nat := 0
  deriving DecidableEq, Repr

/-- Channel HS and the HVS inputs (03, 06). `holdOk` says that the latest HOLDUP sample was at or above HS_GOOD.THR as it then stood. -/
structure Hs where
  cfg : Word := 0
  brk : Word := 0
  goodThr : Word := 0
  capWin : Word := 0
  capCfg : Word := 0
  capLim : Word := 0
  gateOn : Bool := false
  brkOut : Bool := false
  tripped : Bool := false
  meas : Nat := 0
  goodLossAt : Option Nat := none
  holdOk : Bool := false
  cap : CapWin := {}
  cEst : Nat := 0
  cSrc : Nat := 0
  cOut : Nat := 3
  cN : Nat := 0
  cDv : Nat := 0
  capSaved : Option Nat := none
  hvs : Tab Hvs := []
  hvsStat : Irq := {}
  deriving DecidableEq, Repr

/-- The margin campaign (R205 to R209). -/
structure Camp where
  at_ : Nat := 0
  busy : Bool := false
  done : Bool := false
  corner : Nat := 0
  code : Nat := 0
  aborted : Bool := false
  abort : Bool := false
  pendAt : List (Nat × Nat) := []
  reportAt : List Nat := []
  nPass : Nat := 0
  nFail : Nat := 0
  counted : NatSet := []
  first : Word := 0
  nMember : Nat := 0
  nmPass : Nat := 0
  nmFail : Nat := 0
  deriving DecidableEq, Repr

/-! ## HLD (07) -/

/-- A ledger entry (R230): its group, epoch and bytes; the block of an OPEN not yet verified; the block of a DONE not yet
verified; whether a drain end aborted it. -/
structure LEntry where
  group : Nat
  epoch : Nat
  bytes : Nat
  openBlk : Option Nat := none
  closeBlk : Option Nat := none
  aborted : Bool := false
  deriving DecidableEq, Repr

/-- The admission causes of R250. -/
structure Causes where
  energy : Bool := false
  free : Bool := false
  loss : Bool := false
  auth : Bool := false
  host : Bool := false
  safe : Bool := false
  power : Bool := true
  link : Bool := true
  reset : Bool := false
  deriving DecidableEq, Repr

/-- A drain that runs (R259): its trigger code, the stamp it began with, the entries drained, whether an input loss began or joined
it, what of the present tick ends it: a HOLDUP sample below V_FLOOR, the link lost or down; and whether its DRAIN frame has been
called for. -/
structure Drain where
  trig : Nat
  began : Nat := 0
  drained : Nat := 0
  loss : Bool := false
  floor : Bool := false
  lost : Bool := false
  told : Bool := false
  deriving DecidableEq, Repr

/-- A commit record's content (R263). -/
structure Commit where
  epoch : Nat := 0xFFFFFFFF
  drained : Nat := 0
  aborted : Nat := 0
  trig : Nat := 0
  end_ : Nat := 0
  ride : Bool := false
  stamp : Nat := 0
  deriving DecidableEq, Repr

/-- The hold-up energy account and the commit ledger (07). `rejHeld` keeps the groups of late rejections with their stamps (R236). -/
structure Hld where
  cfg : Word := 0
  energy : Word := 0
  rsv : Word := 0
  hyst : Word := 0
  volt : Word := 0
  admCfg : Word := 0
  cause : Causes := {}
  admOpen : Bool := false
  admAt : Nat := 0
  isolated : Bool := false
  entries : List LEntry := []
  seals : List (Nat × Nat) := []
  rejHeld : List (Nat × Nat) := []
  eAvail : Nat := 0
  eRsv : Nat := 0
  durable : Nat := 0xFFFFFFFF
  persist : Nat := 0xFFFFFFFF
  sealed_ : Nat := 0xFFFFFFFF
  code : Nat := 0
  drain : Option Drain := none
  rideWait : Bool := false
  vinOk : Nat := 0
  last : Option Commit := none
  errCode : Nat := 0
  errCount : Nat := 0
  errGrp : Nat := 0
  nBad : Nat := 0
  lastRev : Nat := 0
  irq : Irq := {}
  irqEn : Word := 0
  epochNext : Option Nat := none
  epochDur : Nat := 0xFFFFFFFF
  lastEpochRec : Nat := 0xFFFFFFFF
  deriving DecidableEq, Repr

/-! ## FLT (08) -/

/-- A fault source (R276 to R285). `up` is how far its current level lies above BASE, `wireEnd` the tick from which its report pair
reads valid again (R275), `pendAt` the stamp with which PEND last rose, `decayAt` the end of T since its last event (R277). `fell`
gives the tick and the level of a decay, `cleared` the tick, ACK and grace timer of an accepted clear: an event of that tick undoes it
(R306), `evAt` the stamp of its last event, masked or not. -/
structure Src where
  up : Nat := 0
  cnt : Nat := 0
  openAt : Nat := 0
  last : Option Nat := none
  evAt : Option Nat := none
  lastLev : Nat := 0
  pend : Bool := false
  pendAt : Nat := 0
  ack : Bool := false
  wireEnd : Nat := 0
  grace : Option Nat := none
  events : Nat := 0
  decayAt : Nat := 0
  fell : Option (Nat × Nat) := none
  cleared : Option (Nat × Bool × Option Nat) := none
  deriving DecidableEq, Repr

/-- An event eligible to be the first fault (R279). -/
structure Elig where
  src : Nat
  level : Nat
  stamp : Nat
  wire : Bool
  deriving DecidableEq, Repr

/-- An entry of the fault log (R305). -/
structure FEntry where
  src : Nat
  kind : Nat
  level : Nat
  origin : Nat
  inj : Bool
  stamp : Nat
  deriving DecidableEq, Repr

/-- The latched first fault (R279, R280). -/
structure FirstFault where
  src : Nat
  level : Nat
  wire : Bool
  react : Nat := 0
  coSrc : Nat := 0
  coN : Nat := 0
  stamp : Nat
  deriving DecidableEq, Repr

/-- The safe state (R295): step reached, entry stamp, origin of its masking. -/
structure Safe where
  step : Nat
  stamp : Nat
  origin : Nat
  deriving DecidableEq, Repr

/-- The fault collector (08). `acting` holds the reactions still being carried out as (code, rails) (R289). `safeReq` says that an
accepted SAFE_CLR is judged at the end of its tick (R306). `early` lists the reactions, as (source, code, stamp), carried out while
no first fault is latched: that latch comes after its tick (R34, R282). `privNew` lists the bits set on the present tick (R11).
`priv`, `privFirst` and `privTs` lie in the always-on island (R302). -/
structure Flt where
  srcs : Tab Src := []
  scfg : Tab Word := []
  swin : Tab Word := []
  grace0 : Word := 0
  grace1 : Word := 0
  groups : Tab Word := []
  elig : List Elig := []
  early : List (Nat × Nat × Nat) := []
  ff : Option FirstFault := none
  safeReq : Bool := false
  rearmAt : Nat := 0
  prev : Word := 0
  prevCo : Word := 0
  prevTs : Nat := 0
  safe : Option Safe := none
  cmdCode : Nat := 0
  injCode : Nat := 0
  priv : Nat := 0
  privNew : Nat := 0
  privFirst : Word := 0
  privTs : Nat := 0
  selfWhy : Nat := 0
  corr : Nat := 0
  selfEnd : Nat := 0
  expReset : Option Nat := none
  irq : Irq := {}
  irqEn : Word := 0
  acting : List (Nat × List Nat) := []
  reactLast : Word := 0
  reactTs : Nat := 0
  log : List FEntry := []
  logOvf : Bool := false
  logTs : Nat := 0
  deriving DecidableEq, Repr

/-! ## WDG (09) -/

/-- The watchdog and the clock monitor (09). `keyAt` is the tick of a first key write, `failAt` that of a pair that timed out,
`expAt` that of the last expiry; `flag` holds the tasks marked BAD, `dup` those marked DUP. -/
structure Wdg where
  cfg : Word := 0x00641000
  tasks : Tab Word := []
  nextCfg : Option (Word × Tab Word) := none
  run : Bool := false
  qa : Bool := false
  start : Nat := 0
  len : Nat := 409600000
  nextMs : Nat := 0
  pending : Bool := false
  opened : Bool := false
  code : Nat := 0
  checked : Nat := 0
  flag : Nat := 0
  dup : Nat := 0
  nexp : Nat := 0
  q : Nat := 0
  keyAt : Option Nat := none
  failAt : Option Nat := none
  expAt : Option Nat := none
  expiredSince : Bool := false
  wdoEnd : Option Nat := none
  expEnd : Nat := 0
  wdoMs : Nat := 100
  armed : Bool := false
  last : Nat := 0
  clkCause : Bool := false
  irq : Irq := {}
  irqEn : Word := 0
  deriving DecidableEq, Repr

/-! ## ENV and BBX (10) -/

/-- A journal record not yet written (R341): class, type, argument, stamp, payload bytes 16 to 63. -/
structure JRec where
  cls : Nat
  typ : Nat
  arg : Nat
  stamp : Nat
  queued : Nat
  payload : List Byte
  deriving DecidableEq, Repr

/-- A record whose write has begun (R343): its sequence number, the line it goes to, the tick it began on and, once its bank is
granted, the tick from which its 20 µs run (R333, R335). -/
structure JWrite where
  rec_ : JRec
  seq : Nat
  line : Nat
  since : Nat := 0
  granted : Option Nat := none
  deriving DecidableEq, Repr

/-- A host line write in progress (R338): the line, the bytes to be written and, once its bank is granted, the tick from which its 20
µs run (R333, R335). -/
structure AccOp where
  line : Nat
  bytes : List Byte
  granted : Option Nat := none
  deriving DecidableEq, Repr

/-- The ENV store, the journal and its reader (10). `cells` is the store, unlisted bytes read 0; `marked` the lines whose
marker cell is set (R333). -/
structure Env where
  cells : List Host.Cell := []
  marked : NatSet := []
  queue : List JRec := []
  writing : Option JWrite := none
  jline : Nat := 0
  jseq : Nat := 0
  ckpt : Nat := 0
  gen : Nat := 0
  base : Nat := 0
  run : Nat := 0
  hours : Nat := 0
  hourPart : Nat := 0
  jcfg : Word := 0
  cntNext : Option Nat := none
  countDirty : NatSet := []
  harvest : Option Nat := none
  harvRetry : Bool := false
  code : Nat := 0
  corr : Nat := 0
  ecc : Nat := 0
  tag : Nat := 0
  hfail : Nat := 0
  irq : Irq := {}
  irqEn : Word := 0
  accAddr : Nat := 0
  accMask : Nat := 0
  accCode : Nat := 0
  acc : Option AccOp := none
  buf : Tab Byte := []
  jrdFrom : Nat := 0
  jrd : Option (Nat × List Byte) := none
  jrdSkip : Bool := false
  deriving DecidableEq, Repr

/-- A recorded chunk (R355): its first stamp, the coded form of each signal as bits where kept, the summary of each signal
as (minimum, maximum), signals in SIGMASK order. -/
structure Chunk where
  first : Nat
  mask : Nat
  coded : Option (List Bool)
  summary : List (Nat × Nat)
  deriving DecidableEq, Repr

/-- The recorder of one rail island (R355 to R358): the samples of the chunk in progress by signal, the ring latest first, the
post-trigger chunks latest first. `bound` is the next chunk boundary, `wait` says that the recorder has started afresh within a chunk
and records from that boundary on, `slot0` is the stamp of the chunk's first slot-0 sample, `ref` the
strobe of the latest one. `e` is the error-bound code of the chunk
in progress, `frozen` says that the last pre-trigger chunk of the capture in progress has ended. -/
structure Recorder where
  on : Bool := false
  wait : Bool := false
  e : Nat := 1
  frozen : Bool := false
  bound : Nat := 0
  slot0 : Option Nat := none
  ref : Option Nat := none
  cur : Tab (List Nat) := []
  slotOfs : Tab Nat := []
  ring : List Chunk := []
  post : List Chunk := []
  fallback : Bool := false
  deriving DecidableEq, Repr

/-- A capture in progress (R360). `state`: 0 pre-trigger chunk running, 1 post, 2 writing, 3 its record is queued; `mask` and `e` are
BBX_CFG's at the trigger, `posts` the post-trigger chunks wanted, `kept` the chunks that stood written in coded form when an input
loss turned the rest to summary form. -/
structure Capture where
  kind : Nat
  src : Nat
  stamp : Nat
  state : Nat
  prot : Bool
  summ : Bool
  num : Nat
  mask : Nat := 0
  e : Nat := 0
  posts : Nat := 79
  endAt : Nat := 0
  addr : Nat := 0
  kept : Nat := 0
  deriving DecidableEq, Repr

/-- The black box (10). -/
structure Bbx where
  e : Nat := 1
  trigLev : Nat := 2
  islMask : Nat := 0xFFFF
  code : Nat := 0
  missed : Nat := 0
  drop : Nat := 0
  recs : Tab Recorder := []
  cap : Option Capture := none
  lastNum : Nat := 0
  lastInfo : Word := 0
  lastAddr : Nat := 0
  lastLines : Nat := 0
  protNum : Nat := 0
  protAddr : Nat := 0
  protLines : Nat := 0
  relAt : Option Nat := none
  doneAt : Option Nat := none
  irq : Irq := {}
  irqEn : Word := 0
  deriving DecidableEq, Repr

/-! ## CFG (11) -/

/-- The configuration loader (11). `op`: 0 none, 1 LOAD, 2 APPLY, 3 start-up. -/
structure Cfg where
  busy : Bool := false
  op : Nat := 0
  force : Nat := 0
  fromRecovery : Bool := false
  code : Nat := 0
  err : Nat := 0
  detail : Nat := 0
  tag : Nat := 0
  ofs : Nat := 0
  arbVer : Nat := 0
  fmt : Nat := 0
  slot : Nat := 0
  build : Nat := 0
  len : Nat := 0
  imgId : Tab Word := []
  digest : Tab Word := []
  loaded : Bool := false
  rtAddr : Nat := 0
  rtBase : Nat := 0
  rtImg : Option Env := none
  rtN : Nat := 0
  rtSects : Nat := 0
  irq : Irq := {}
  irqEn : Word := 0
  deriving DecidableEq, Repr

/-! ## CAS (12) -/

/-- A cascade frame the device sends (R406). -/
inductive CasFrame where
  | enum (path depth addr : Nat)
  | hello (uid variant time delay path depth phase ports : Nat) (refused : Bool)
  | time (value : Nat)
  | rail (dst rail code : Nat)
  | sub (dst rail : Nat) (subscribe : Bool)
  | fault (org src level : Nat) (safe : Bool) (stamp : Nat)
  | state (seq : Nat)
  | dom (on : Bool) (phase act : Nat)
  | eqx (tick : Nat) (cnt : Bool)
  | eqxRep (org : Nat) (ok : Bool) (why : Nat)
  | mgn (corner tick : Nat) (abort : Bool)
  | mgnRep (org nmember npass nfail rail why : Nat)
  | reset (dst : Nat)
  | lost (addrs : List Nat)
  | join (addr : Nat)
  /-- A frame of another device, passed on as it came. -/
  | fwd (org : Nat) (f : CasFrame)
  deriving DecidableEq, Repr

/-- A cascade port (R401 to R403): frames sent and not acknowledged as (LSEQ, frame), frames waiting as (tick, frame); the last NAK
received and the last NAK sent, each with how often in a row; `ackOut` the last ACK or NAK sent. -/
structure CasPort where
  link : PortLink := .disabled
  fell : Bool := false
  nak : Nat := 0
  err : Nat := 0
  unacked : List (Nat × CasFrame) := []
  waiting : List (Nat × CasFrame) := []
  lseq : Nat := 0
  nakRow : Nat := 0
  nakLast : Option Nat := none
  rxNakRow : Nat := 0
  rxNakLast : Option Nat := none
  sentAt : Nat := 0
  ackOut : List (Bool × Nat) := []
  deriving DecidableEq, Repr

/-- A device as the leader knows it, by address; `skipAt` is the tick on which its loss counted as a device skipped. -/
structure CasDev where
  joined : Bool := false
  lost : Bool := false
  path : Nat := 0
  depth : Nat := 0
  phase : Nat := 0
  seq : Option Nat := none
  skipAt : Option Nat := none
  deriving DecidableEq, Repr

/-- An ENUM frame the leader has sent and no HELLO has answered: path, depth, address (0 for a refusal), tick. -/
structure EnumOffer where
  path : Nat
  depth : Nat
  addr : Nat
  at_ : Nat
  deriving DecidableEq, Repr

/-- A domain phase in progress on the leader (R421). -/
structure DomPhase where
  phase : Nat
  act : Nat
  waiting : List Nat
  deriving DecidableEq, Repr

/-- The cascade (12). `todo` lists as (path, depth) the places the leader has still to enumerate, depth first; `slew` is the error
still to be slewed away, `slewCnt` the ticks since the last one added or omitted, `domActs` the domain requests waiting for their act
ticks (true: on). -/
structure Cas where
  cfg : Word := 0
  st : CasSt := .down
  depth : Nat := 0
  pubFull : Bool := false
  pub : Tab Word := []
  addr : Nat := 0xFFF
  path : Nat := 0
  tbErr : Int := 0
  delay : Nat := 0
  ahead : Bool := false
  slew : Int := 0
  slewCnt : Nat := 0
  goodTimes : Nat := 0
  timeAt : Nat := 0
  timeSent : Nat := 0
  ports : Tab CasPort := []
  enumDone : Bool := false
  todo : List (Nat × Nat) := []
  offer : Option EnumOffer := none
  devs : Tab CasDev := []
  nDev : Nat := 1
  nLost : Nat := 0
  ctrlCode : Nat := 0
  domCode : Nat := 0
  domBusy : Bool := false
  domOff : Bool := false
  domPhase : Option DomPhase := none
  nSkip : Nat := 0
  domTo : Word := 0
  domActs : List (Bool × Nat) := []
  eqxAt : Nat := 0
  eqxCode : Nat := 0
  eqxBusy : Bool := false
  eqxDone : Bool := false
  nOk : Nat := 0
  nMiss : Nat := 0
  eqxCounted : NatSet := []
  eqxMiss : Word := 0
  rfault : Word := 0
  rfaultTs : Nat := 0
  orphanEnd : Option Nat := none
  subsSent : Bool := false
  irq : Irq := {}
  irqEn : Word := 0
  deriving DecidableEq, Repr

/-! ## LNK (13) -/

/-- The response last sent (R436). -/
structure HmpResp where
  status : Nat
  detail : Nat
  payload : List Byte
  deriving DecidableEq, Repr

/-- The host port (13). `nonce` holds its level, its bytes and the tick it was given; `broken` says that a timeout has ended a frame
whose transaction goes on (R437). -/
structure Hmp where
  session : Option Level := none
  lockEnd : Option Nat := none
  fails : Nat := 0
  status : Nat := 0
  detail : Nat := 0
  idle : Nat := 0x3C
  eCrc : Nat := 0
  eLen : Nat := 0
  eTout : Nat := 0
  eAbort : Nat := 0
  nonce : Option (Level × List Byte × Nat) := none
  resp : Option HmpResp := none
  out : Option HmpResp := none
  broken : Bool := false
  acceptedAt : Nat := 0
  wrote : Nat := 0
  deriving DecidableEq, Repr

/-- A frame the supervisor sends on the MCP (R451, KX and KEYLOAD of R483). -/
inductive McpFrame where
  | fill
  | admState (isOpen : Bool) (stamp : Nat) (groups : List Nat)
  | drain (trig : Nat)
  | permit (entries : List (Nat × Bool))
  | keyload (index : Nat) (wrapped : List Byte)
  | kx (nonce : List Byte)
  deriving DecidableEq, Repr

/-- A MAC block sent and not acknowledged (R454). -/
structure TxBlk where
  n : Nat
  frames : List McpFrame
  sentAt : Nat
  deriving DecidableEq, Repr

/-- The media-controller link (13), with the interrupt words of the LNK block. `kxKey` is the pairing key of the establishment under
way, `admDue` says that the first ADMIT frame of an UP link is to be sent (R448). `rxNext` is the block whose verdict is due next,
`rxBytes` the frame bytes arrived of blocks not yet judged, `rxStray` those of blocks out of turn, `rxCut` a block cut off by a
timeout: its tick, the bytes still to come of it, whether it goes on arriving (R455), `rxLate` the block that was arriving when the
link was lost, with its bytes (R465), `rxSkip` says that blocks are discarded until the expected one arrives again (R454), `rxOld`
lists blocks that had arrived in full when the link was lost (R241), `opened` the frames of the block being filled (R453), `lctl`
the last ACK or NAK sent, `heard` the last tick on which a block is known to have arrived, `lostAt` the stamp of the last loss,
`okAt` the block of the last passing verdict and its tick. -/
structure Mcp where
  link : McpLink := .down
  lanes : Nat := 0
  keyed : Bool := false
  dack : Bool := false
  ndown : Nat := 0
  nakTx : Nat := 0
  nakRx : Nat := 0
  eTout : Nat := 0
  eType : Nat := 0
  why : Nat := 0
  hdrErr : Tab Nat := []
  nonceS : List Byte := []
  key : List Byte := []
  kxKey : List Byte := []
  admDue : Bool := false
  keyEnd : Option Nat := none
  rxNext : Nat := 0
  rxSkip : Bool := false
  rxOld : List Nat := []
  rxBytes : Tab Nat := []
  rxStray : Nat := 0
  rxCut : Option (Nat × Nat × Bool) := none
  rxLate : Option (Nat × Nat) := none
  rxNakRow : Nat := 0
  txNakRow : Nat := 0
  txNakLast : Option Nat := none
  rxNakLast : Option Nat := none
  txNext : Nat := 0
  heard : Nat := 0
  lostAt : Option Nat := none
  okAt : Option (Nat × Nat) := none
  unacked : List TxBlk := []
  opened : List McpFrame := []
  waiting : List (List McpFrame) := []
  lctl : List (Bool × Nat) := []
  blkAt : Nat := 0
  irq : Irq := {}
  irqEn : Word := 0
  deriving DecidableEq, Repr

/-- What a PMBus transaction is for (R460). -/
inductive PmbUse where
  | margin (ch step : Nat)
  | pass
  | poll (ch k : Nat)
  | setup
  deriving DecidableEq, Repr

/-- A PMBus transaction: device, command, data to write (none for a read or a send), use. -/
structure PmbTxn where
  dev : Nat
  page : Nat
  cmd : Nat
  data : Option Nat
  use : PmbUse
  deriving DecidableEq, Repr

/-- The PMBus host (13). -/
structure Pmb where
  devs : Tab Word := []
  nDev : Nat := 0
  queue : List PmbTxn := []
  cur : Option PmbTxn := none
  startedAt : Nat := 0
  retryAt : Option Nat := none
  retried : Bool := false
  busy : Bool := false
  code : Nat := 0
  skip : Nat := 0
  nFail : Nat := 0
  data : Nat := 0
  lastErr : Word := 0
  deriving DecidableEq, Repr

/-- A link-test target (R463, R464). -/
structure Lt where
  mode : Nat := 0
  poly : Nat := 0
  code : Nat := 0
  lock : Bool := false
  errs : Nat := 0
  bits : Nat := 0
  inj : Nat := 0
  injAt : Nat × Nat := (0, 0)
  recent : List (Nat × Nat) := []
  deriving DecidableEq, Repr

/-- The JTAG port (R462, R475); `loads` counts what has been shifted into the cells of the boundary-scan chain. -/
structure Jtag where
  ir : JtagIr := .idcode
  dr : Nat := 0
  pads : List (BitVec 16) := []
  loads : Nat := 0
  prevRead : Word := 0
  nonce : Option (List Byte × Nat) := none
  fails : Nat := 0
  lockEnd : Option Nat := none
  unlocks : Nat := 0
  deriving DecidableEq, Repr

/-! ## SEC and PWR (14) -/

/-- A key index of KEYPOLICY (R386). -/
structure KPol where
  cond : Nat := 0
  line : Nat := 0
  valid : Bool := false
  deriving DecidableEq, Repr

/-- A fuse operation in progress (R469, R471). -/
structure LcOp where
  op : Nat
  win : Nat := 0
  hwStart : Bool := false
  arb : Nat := 0
  deriving DecidableEq, Repr

/-- Lifecycle, debug level, keys, permits and tamper (14). `rnd` counts the random values drawn (the model's own field, see
notes/assumptions/5). `tamperEnd` is the tick from which TAMPER_N is high again; `alarmTs` keeps by key index one more than the
stamp of its last alarm. -/
structure Sec where
  dbg : Dbg := .off
  lcCode : Nat := 0
  lcOp : Option LcOp := none
  keyCode : Nat := 0
  keyBusy : Option (Nat × List Byte) := none
  paired : Bool := false
  kp : List Byte := []
  kbuf : Tab Word := []
  rootReg : Nat := 0
  ready : BitVec 256 := 0
  bad : BitVec 256 := 0
  permit : BitVec 256 := 0
  held : BitVec 256 := 0
  rel : BitVec 256 := 0
  revoked : BitVec 256 := 0
  kram : Tab (List Byte) := []
  unwrapping : Option (List Nat) := none
  kpol : Tab KPol := []
  tamperEnd : Nat := 0
  alarmTs : Tab Nat := []
  restored : Option (Nat × Nat) := none
  transAt : Option Nat := none
  tamperN : Nat := 0
  tamperLast : Nat := 0
  irq : Irq := {}
  irqEn : Word := 0
  rnd : Nat := 0
  deriving DecidableEq, Repr

/-- The power ladder (14). `entry` is a rung being entered, `prepared` says that steps 2 to 7 of R492 are done, `asked` that a request
made it; `woke` is a wake source that fired in an entry, with its tick; `exit` a rung being left for, with the stamp of the wake. -/
structure Pwr where
  rung : Rung := .summer
  entry : Option Rung := none
  prepared : Bool := false
  asked : Bool := false
  woke : Option (Nat × Nat) := none
  exit : Option (Rung × Nat) := none
  code : Nat := 0
  wake : Nat := 0
  policy : Word := 0
  wakeWinter : Word := 0
  wakeMid : Word := 0
  vinLoss : Bool := false
  lossAt : Nat := 0
  lossEnd : Nat := 0
  entryTs : Nat := 0
  domOn : Bool := false
  tamperWake : Option Nat := none
  hotEnd : Nat := 0
  irq : Irq := {}
  irqEn : Word := 0
  deriving DecidableEq, Repr

/-! ## GPIO (15) and CNT (16) -/

/-- A GPIO port. -/
structure Port where
  inp : Nat := 0
  pad : Nat := 0
  out : Nat := 0
  dir : Nat := 0
  od : Nat := 0
  pull : Word := 0
  locked : Nat := 0
  claim : Nat := 0
  lockAt : Option (Nat × Nat) := none
  parkEnd : Tab Nat := []
  deriving DecidableEq, Repr

/-- Pins (15). `latched` says that the drives are held (R511), `mirHeld` gives the levels the mirrors hold; `edges` keeps the present
tick's edges that a line watches, by pin and port, `dbgOut` its GPIO_OUT_SET and GPIO_OUT_CLR writes by DBG_REG (R517). -/
structure Gpio where
  ports : Tab Port := []
  pen : Nat := 0
  wakePol : Nat := 0
  err : Word := 0
  irq : Irq := {}
  irqEn : Word := 0
  intStat : Irq := {}
  intEn : Nat := 0
  mir : Tab Word := []
  sel : Tab Word := []
  ts : Tab Nat := []
  wakeNow : Nat := 0
  wakeAct : Nat := 0
  latched : Bool := false
  mirHeld : Nat := 0
  edges : List (Nat × Nat) := []
  dbgOut : List (Nat × Nat × Bool) := []
  deriving DecidableEq, Repr

/-- Throughput of a port (R527). -/
structure Tp where
  win : Nat := 0
  nextWin : Option Nat := none
  endAt : Option Nat := none
  bytes : Nat := 0
  frames : Nat := 0
  errs : Nat := 0
  lBytes : Nat := 0
  lFrames : Nat := 0
  lErrs : Nat := 0
  wseq : Nat := 0
  deriving DecidableEq, Repr

/-- Counters (16): leaves by 8n + j, island totals by 8i + j, device totals by j. Of the present tick: `wrote` lists the leaves
written, `incd` counts the increments by leaf, `ovfNow` lists the leaves that overflowed with their OVF before, `missNow` the leaves
of each event that a freeze kept from being counted, `freezing` says that FREEZE was written. `req` is the capture tick of a
CNT_SNAP, `servedAt` the tick on which a view with counters was accepted last, `shadow` a capture not yet delivered (source, tick,
words by offset). -/
structure Cnt where
  leaf : Tab Nat := []
  ev : Tab Nat := []
  pre : NatSet := []
  inv : NatSet := []
  ovf : NatSet := []
  isl : Tab Nat := []
  dev : Tab Nat := []
  islInv : NatSet := []
  devInv : NatSet := []
  frozen : Bool := false
  code : Nat := 0
  done : Bool := false
  src : Nat := 0
  corr : Nat := 0
  missed : Nat := 0
  userEn : Bool := false
  preload : Nat := 0
  stage : Nat := 0
  wrote : List Nat := []
  incd : Tab Nat := []
  ovfNow : List (Nat × Bool) := []
  missNow : List (List Nat) := []
  freezing : Bool := false
  req : Option Nat := none
  servedAt : Option Nat := none
  shadow : Option (Nat × Nat × Tab Word) := none
  snap : Tab Word := []
  snapTick : Nat := 0
  tp : Tab Tp := []
  irq : Irq := {}
  irqEn : Word := 0
  deriving DecidableEq, Repr

/-! ## The whole state -/

/-- The supervisor's state, with the queue of waiting commands, first in first out. -/
structure State where
  hw : Hw := {}
  sys : Sys := {}
  chans : Tab Chan := []
  seq : Seq := {}
  hs : Hs := {}
  camp : Camp := {}
  hld : Hld := {}
  flt : Flt := {}
  wdg : Wdg := {}
  env : Env := {}
  bbx : Bbx := {}
  cfg : Cfg := {}
  cas : Cas := {}
  hmp : Hmp := {}
  mcp : Mcp := {}
  pmb : Pmb := {}
  lt : Tab Lt := []
  jtag : Jtag := {}
  sec : Sec := {}
  pwr : Pwr := {}
  gpio : Gpio := {}
  cnt : Cnt := {}
  pending : List Instr := []
  deriving DecidableEq, Repr

/-- No fault stops this machine: the manual gives every command of the table an effect, and reads beyond a present
resource answer 0 (R3, R9). Raised by nothing; safe. -/
inductive Fault where
  /-- Raised by no command: kept so that the type names what a stop would be. Safe. -/
  | none
  deriving DecidableEq, Repr

/-- Why a command has no meaning here. -/
inductive Refusal where
  /-- The command of this mnemonic is not modelled. Raised by an arm of `exec` that has no meaning yet. Safe. -/
  | notModelled (mnemonic : String)
  deriving DecidableEq, Repr

/-- The state of a variant right after reset: the power-on reset is held (R52), the timebase is 0 (R22), every register
holds its reset value. -/
def State.resetOf (v : Variant) : State :=
  { hw := { variant := v }
    bbx := { islMask := match v with | .dz128 => 0xFFFF | .dz32 => 0x000F } }

/-- The machine right after reset, a DZ-128 as shipped (notes/assumptions/3). -/
def State.reset : State := State.resetOf .dz128

end Sys2Proof.Machine
end

