-- ==== Sys2Proof/Machine/Bits.lean ====
section
/-! DEFINITION. Fields of 32-bit words, byte strings, and times in timebase ticks. -/

namespace Sys2Proof.Machine

/-- Field of `len` bits from bit `lo` of a register word. -/
def fld (w : Word) (lo len : Nat) : Nat := w.toNat / 2 ^ lo % 2 ^ len

/-- A word from a number. -/
def w32 (n : Nat) : Word := BitVec.ofNat 32 n

/-- Bit `i` of a word. -/
def wbit (w : Word) (i : Nat) : Bool := w.getLsbD i

/-- The word with bit `i` set. -/
def wset (w : Word) (i : Nat) : Word := w ||| w32 (2 ^ i)

/-- The word with bit `i` clear. -/
def wclr (w : Word) (i : Nat) : Word := w &&& ~~~ w32 (2 ^ i)

/-- The hardware sets bit `i` of a write-1-to-clear word. -/
def Irq.set (x : Irq) (i : Nat) : Irq := { st := wset x.st i, fresh := wset x.fresh i }

/-- The hardware sets every bit of `m`. -/
def Irq.join (x : Irq) (m : Word) : Irq := { st := x.st ||| m, fresh := x.fresh ||| m }

/-- A write of 1 clears each bit that the hardware has not set on the tick of the write (R11). -/
def Irq.w1c (x : Irq) (w : Word) : Irq := { x with st := x.st &&& ~~~ (w &&& ~~~ x.fresh) }

/-- The word on the next tick. -/
def Irq.next (x : Irq) : Irq := { x with fresh := 0 }

/-- A word made of fields, each as (low bit, width, value); a value is cut to its field's width. -/
def wpack (fs : List (Nat × Nat × Nat)) : Word :=
  w32 (fs.foldl (fun a f => a + f.2.2 % 2 ^ f.2.1 * 2 ^ f.1) 0)

/-- 0 or 1. -/
def b2n (b : Bool) : Nat := if b then 1 else 0

/-- One more, saturating at `m`. -/
def incTo (m n : Nat) : Nat := if n < m then n + 1 else m

/-- A field of `len` bits read as a signed number. -/
def sgn (len n : Nat) : Int := if n < 2 ^ (len - 1) then (n : Int) else (n : Int) - (2 ^ len : Nat)

/-- A signed number as a field of `len` bits. -/
def unsgn (len : Nat) (x : Int) : Nat := (x % (2 ^ len : Nat)).toNat

/-- Quotient rounded up. -/
def ceilDiv (a b : Nat) : Nat := (a + b - 1) / b

/-- Little-endian bytes as a number. -/
def leNat : List Byte → Nat
  | [] => 0
  | b :: r => b.toNat + 256 * leNat r

/-- A number as `len` little-endian bytes. -/
def leBytes : Nat → Nat → List Byte
  | 0, _ => []
  | len + 1, n => BitVec.ofNat 8 n :: leBytes len (n / 256)

/-- `len` bytes from offset `i`, 0 beyond the end. -/
def slice (bs : List Byte) (i len : Nat) : List Byte :=
  let r := (bs.drop i).take len
  r ++ List.replicate (len - r.length) 0

/-- The little-endian number of `len` bytes at offset `i`. -/
def leAt (bs : List Byte) (i len : Nat) : Nat := leNat (slice bs i len)

/-- The bytes with those from offset `i` replaced by `b`. -/
def splice (bs : List Byte) (i : Nat) (b : List Byte) : List Byte :=
  bs.take i ++ b ++ bs.drop (i + b.length)

/-- A 64-byte line from bytes at given offsets; bytes not given are 0. -/
def lineOf (parts : List (Nat × List Byte)) : List Byte :=
  parts.foldl (fun l p => splice l p.1 p.2) (List.replicate 64 0)

/-- ASCII text as bytes. -/
def ascii (t : List Nat) : List Byte := t.map (BitVec.ofNat 8)

/-- Ticks in a microsecond. -/
def tUs : Nat := 100

/-- Ticks in a millisecond. -/
def tMs : Nat := 100000

/-- Ticks in a second. -/
def tSec : Nat := 100000000

/-- The low 32 bits of a count. -/
def lo32 (n : Nat) : Word := w32 n

/-- The high word of a 64-bit count. -/
def hi32 (n : Nat) : Word := w32 (n / 2 ^ 32)

/-- A due time that has come, and the time itself. -/
def dueAt (d : Option Nat) (now : Nat) : Option Nat := d.filter (fun t => decide (t ≤ now))

/-- The CRC-32C register after one byte: polynomial 0x1EDC6F41 reflected (R431). -/
def crcByte (c : BitVec 32) (b : Byte) : BitVec 32 :=
  (List.range 8).foldl (fun c _ => if c.getLsbD 0 then (c >>> 1) ^^^ 0x82F63B78#32 else c >>> 1) (c ^^^ b.zeroExtend 32)

/-- CRC-32C of a byte string: initial value all ones, final inversion (R431). -/
def crc32c (bs : List Byte) : BitVec 32 := ~~~ (bs.foldl crcByte 0xFFFFFFFF#32)

/-- The SMBus CRC-8 register after one byte: polynomial x⁸ + x² + x + 1 (R457). -/
def pecByte (c b : Byte) : Byte :=
  (List.range 8).foldl (fun c _ => if c.getLsbD 7 then (c <<< 1) ^^^ 0x07#8 else c <<< 1) (c ^^^ b)

/-- The SMBus CRC-8 of a message (R457). -/
def pec8 (bs : List Byte) : Byte := bs.foldl pecByte 0#8

end Sys2Proof.Machine
end

