-- ==== Sys2Proof/Machine/Operands.lean ====
section
/-! DEFINITION. What a command's operands name: the resources a variant has (R2, R3), the block and island behind a register
address (R19, R20), session levels (R441), references to rails (R125), and the checks 5 to 8 of R433 that a register write
passes before it acts. -/

namespace Sys2Proof.Machine

/-! ## Resources of a variant (R2) -/

/-- Rail channels. -/
def nCh : Variant → Nat
  | .dz128 => 128
  | .dz32 => 32

/-- Rail islands. -/
def nIsl : Variant → Nat
  | .dz128 => 16
  | .dz32 => 4

/-- High-voltage sense inputs. -/
def nHvs : Variant → Nat
  | .dz128 => 4
  | .dz32 => 2

/-- Cascade ports, the up port included. -/
def nCasPort : Variant → Nat
  | .dz128 => 5
  | .dz32 => 2

/-- MCP lanes. -/
def nLane : Variant → Nat
  | .dz128 => 2
  | .dz32 => 1

/-- GPIO ports. -/
def nGpio : Variant → Nat
  | .dz128 => 3
  | .dz32 => 2

/-- Ledger entries. -/
def nLedger : Variant → Nat
  | .dz128 => 8192
  | .dz32 => 2048

/-- ENV store bytes. -/
def envSize : Variant → Nat
  | .dz128 => 0x1000000
  | .dz32 => 0x400000

/-- The VARIANT code (R1). -/
def Variant.code : Variant → Nat
  | .dz128 => 1
  | .dz32 => 2

/-- Key of channel HS in the channel table, and its number in a reference (R125). -/
def HS : Nat := 128

/-! ## Tables of the state -/

/-- Channel `n`; 128 is channel HS. -/
def State.chan (s : State) (n : Nat) : Chan := tget {} s.chans n

/-- The state with channel `n` changed. -/
def State.modChan (s : State) (n : Nat) (f : Chan → Chan) : State := { s with chans := tmod {} s.chans n f }

/-- The present tick: the stamp of what happens now. -/
def State.now (s : State) : Nat := s.sys.tb

/-- Channel `n` is present and in use: a rail channel (R122). -/
def State.inUse (s : State) (n : Nat) : Bool :=
  decide (n < nCh s.hw.variant) && wbit (s.chan n).ch.cfg 0

/-- The rails: channel HS and every channel in use (R122), ascending. -/
def State.rails (s : State) : List Nat :=
  (s.chans.filterMap fun e => if s.inUse e.1 then some e.1 else none) ++ [HS]

/-- The island of a channel. -/
def islOf (n : Nat) : Nat := n / 8

/-- An island is lost. Islands are numbered as the bits of SYS_ISL_STAT: 0 to 15 rail, 17 link, 18 security, 19 always-on;
the control island, 16, is never lost. -/
def State.islLost (s : State) (i : Nat) : Bool := s.sys.lost.testBit i

/-! ## Levels -/

/-- Session levels in rank order (R441). -/
def Level.rank : Level → Nat
  | .user => 0
  | .operator => 1
  | .owner => 2
  | .vendor => 3

/-- The level of a two-bit code (R432). -/
def Level.ofCode : Nat → Level
  | 0 => .user
  | 1 => .operator
  | 2 => .owner
  | _ => .vendor

/-- `a` is at least `b`. -/
def Level.ge (a b : Level) : Bool := decide (b.rank ≤ a.rank)

/-! ## Blocks (R19) -/

/-- The register blocks. -/
inductive Blk where
  | sys | pwr | seq | ch | flt | wdg | gpio | cnt | hld | sec | env | cfg | cas | lnk | bbx
  deriving DecidableEq, Repr

/-- Base address of a block (R19). -/
def Blk.base : Blk → Nat
  | .sys => 0x00000 | .pwr => 0x01000 | .seq => 0x02000 | .ch => 0x10000 | .flt => 0x20000 | .wdg => 0x30000 | .gpio => 0x31000
  | .cnt => 0x40000 | .hld => 0x50000 | .sec => 0x60000 | .env => 0x70000 | .cfg => 0x80000 | .cas => 0x90000 | .lnk => 0xA0000
  | .bbx => 0xB0000

/-- Bytes from a block's base to the end of its last register, as the register tables give them (notes/assumptions/6). -/
def Blk.size : Blk → Nat
  | .sys => 0x80 | .pwr => 0x38 | .seq => 0x4200 | .ch => 0x821C | .flt => 0x9000 | .wdg => 0xA0 | .gpio => 0x200
  | .cnt => 0x7C40 | .hld => 0xA4 | .sec => 0x800 | .env => 0x100 | .cfg => 0x88 | .cas => 0x500 | .lnk => 0x114
  | .bbx => 0x80

/-- The block whose base is the last one not above an address. -/
def blkBelow (a : Nat) : Option Blk :=
  if a < 0x1000 then some .sys
  else if a < 0x2000 then some .pwr
  else if a < 0x10000 then some .seq
  else if a < 0x20000 then some .ch
  else if a < 0x30000 then some .flt
  else if a < 0x31000 then some .wdg
  else if a < 0x40000 then some .gpio
  else if a < 0x50000 then some .cnt
  else if a < 0x60000 then some .hld
  else if a < 0x70000 then some .sec
  else if a < 0x80000 then some .env
  else if a < 0x90000 then some .cfg
  else if a < 0xA0000 then some .cas
  else if a < 0xB0000 then some .lnk
  else if a < 0xC0000 then some .bbx
  else none

/-- The block of a register address; an address between two blocks or above the last one belongs to none (R9). -/
def blkOf (a : Nat) : Option Blk := (blkBelow a).filter fun b => decide (a < b.base + b.size)

/-- The channel whose leaf words lie at an address of the CNT block, if any (R518, map of 16). -/
def leafChan (a : Nat) : Option Nat :=
  if 0x41000 ≤ a ∧ a < 0x43000 then some ((a - 0x41000) / 0x40) else none

/-- The island that serves an address (R19): channels and leaves by their rail island. -/
def islServing (a : Nat) : Nat :=
  match blkOf a with
  | some .ch => if a < 0x18000 then islOf ((a - 0x10000) / 0x100) else 16
  | some .sec => 18
  | some .cas | some .lnk => 17
  | some .pwr => 19
  | some .cnt => match leafChan a with
    | some n => islOf n
    | none => 16
  | _ => 16

/-- A reload runs (R391): the phases of an image load entered from READY or recovery. -/
def State.reloading (s : State) : Bool := s.cfg.busy && decide (s.cfg.op = 1)

/-- Check 6 of R433: the block of address `a` is refused in the present phase. From the start of S3 to READY only SYS, ENV and
SEC answer (R57); HALT answers reads of SYS alone (R60); a reload refuses every other block as S4 and S5 do, CFG apart
(R391). -/
def State.notReady (s : State) (a : Nat) (write : Bool) : Bool :=
  match s.sys.phase with
  | .ready | .recovery => false
  | .halt => write || !decide (blkOf a = some .sys)
  | .s3 | .s4 | .s5 =>
    match blkOf a with
    | some .sys | some .env | some .sec | none => false
    | some .cfg => !s.reloading
    | _ => true
  | _ => true

/-- The HMP answers: from the start of S3, or in HALT (R56, R60). -/
def State.hmpUp (s : State) : Bool :=
  match s.sys.phase with
  | .s3 | .s4 | .s5 | .ready | .recovery | .halt => s.sys.mainClock && !s.sys.vauxDown
  | _ => false

/-- Check 7 of R433: the blocks answer in Summer and Autumn only (rung table of 14). -/
def State.rungOk (s : State) : Bool :=
  match s.pwr.rung with
  | .summer | .autumn => true
  | _ => false

/-- Checks 5 to 8 of R433 for a register write at address `a` whose chapter asks at least `min` at check 5; the level of the
session that writes, or none where the write is refused. -/
def State.writer (s : State) (a : Nat) (min : Level) : Option Level :=
  match s.hmp.session with
  | none => none
  | some l =>
    if l.ge min && s.hmpUp && !s.notReady a true && s.rungOk && !s.islLost (islServing a) then some l else none

/-- A register write by the open session: its behaviour, or nothing where a check of R433 refuses it. -/
def State.byHost (s : State) (a : Nat) (min : Level) (f : Level → State) : State :=
  match s.writer a min with
  | none => s
  | some l => f l

/-- A register read by the open session, where it has an effect: checks 5 to 8 of R433 as for a write of USER level. -/
def State.byReader (s : State) (a : Nat) (f : State) : State :=
  match s.hmp.session with
  | none => s
  | some _ => if s.hmpUp && !s.notReady a false && s.rungOk && !s.islLost (islServing a) then f else s

/-- The control and rail islands run on a loaded configuration: READY or a reload from it, in Summer or Autumn, main clock
running, VAUX not collapsed. -/
def State.running (s : State) : Bool :=
  (s.sys.phase == .ready || (s.reloading && !s.cfg.fromRecovery)) && s.sys.mainClock && !s.sys.vauxDown && s.rungOk

/-- The fault collector and the other engines of the control island run: as above, in recovery mode too. -/
def State.active (s : State) : Bool :=
  (s.sys.phase == .ready || s.sys.phase == .recovery || s.reloading) && s.sys.mainClock && !s.sys.vauxDown && s.rungOk

/-- Channel `n` is in use and its island works. -/
def State.chanRuns (s : State) (n : Nat) : Bool := s.running && s.inUse n && !s.islLost (islOf n)

/-- `r` is a rail of this device. -/
def State.isRail (s : State) (r : Nat) : Bool := decide (r = HS) || s.inUse r

/-- Address of a register of channel `n`. -/
def chReg (n ofs : Nat) : Nat := 0x10000 + 0x100 * n + ofs

/-- A write to a register of channel `n` other than CH_LOCK breaks a lock sequence (R109). -/
def State.chTouch (s : State) (n : Nat) : State :=
  s.modChan n fun c => { c with sense := { c.sense with lockAt := none } }

/-- A write to the register at `ofs` of channel `n` by a session of at least `min`; a channel not in use ignores it. -/
def State.chHost (s : State) (n ofs : Nat) (min : Level) (f : State → Level → State) : State :=
  s.byHost (chReg n ofs) min fun l => if s.inUse n then f (s.chTouch n) l else s

/-! ## References (R125) -/

/-- The predecessor slots of a rail, unused ones left out. -/
def predSlots (c : RailCfg) : List Nat :=
  if fld c.rflag 16 4 = 0 then []
  else [fld c.p01 0 16, fld c.p01 16 16, fld c.p23 0 16, fld c.p23 16 16,
        fld c.p45 0 16, fld c.p45 16 16, fld c.p67 0 16, fld c.p67 16 16].filter (· ≠ 0xFFFF)

/-- The predecessors of a rail (R123): a channel rail that names none has channel HS. -/
def State.preds (s : State) (r : Nat) : List Nat :=
  let p := predSlots (s.chan r).rcfg
  if r ≠ HS && p.isEmpty then [HS] else p

/-- A reference is remote. -/
def isRemote (ref : Nat) : Bool := ref.testBit 15

/-- The number in a reference: a local rail, or an entry of SEQ_REMOTE. -/
def refNum (ref : Nat) : Nat := ref % 256

/-- A remote reference. -/
def State.remote (s : State) (k : Nat) : Remote := tget {} s.seq.remote k

/-- Rails of which `r` is a predecessor. -/
def State.succs (s : State) (r : Nat) : List Nat :=
  s.rails.filter fun x => (s.preds x).contains r

/-- `r` names a remote reference. -/
def State.hasRemote (s : State) (r : Nat) : Bool := (s.preds r).any isRemote

/-- Adds the successors of the rails of a set, `fuel` times over. -/
def State.closeSet (s : State) : Nat → List Nat → List Nat
  | 0, l => l
  | fuel + 1, l =>
    let more := s.rails.filter fun x => !l.contains x && (s.preds x).any (fun p => !isRemote p && l.contains p)
    if more.isEmpty then l else s.closeSet fuel (l ++ more)

/-- A set of rails with all its dependents (R146). -/
def State.withDependents (s : State) (l : List Nat) : List Nat := s.closeSet s.rails.length l

/-! ## Timing of a rail and a channel -/

/-- Delay in ticks (R135). -/
def tDelay (c : RailCfg) : Nat := fld c.time0 0 16 * 1000
/-- Qualification time in ticks. -/
def tQual (c : RailCfg) : Nat := fld c.time0 16 16 * 100
/-- Start timeout in ticks. -/
def tStart (c : RailCfg) : Nat := fld c.time1 0 16 * 10000
/-- Discharge timeout in ticks. -/
def tDis (c : RailCfg) : Nat := fld c.time1 16 16 * 10000
/-- Retry wait in ticks. -/
def tRetry (c : RailCfg) : Nat := fld c.rflag 0 16 * 10000
/-- Speculation limit in ticks; 0 where the rail is not spring-eligible (R167). -/
def tSpec (c : RailCfg) : Nat := fld c.spring 0 10 * 1000
/-- The rail is spring-eligible. -/
def springOk (c : RailCfg) : Bool := wbit c.rflag 20
/-- Deglitch time in ticks. -/
def tDgl (t : Thr) : Nat := fld t.vdis 16 10 * 10
/-- V_dis, an ADC code. -/
def vDis (t : Thr) : Nat := fld t.vdis 0 12
/-- OC blanking in ticks (R88). -/
def tBlank (c : ChCfg) : Nat := fld c.cfg 16 8 * 1000

end Sys2Proof.Machine
end

