-- ==== Sys2Proof/Machine/Flags.lean ====
section
/-! DEFINITION. What the status registers show of the state: rail codes and totals, the sequence state (R144), enable and
discharge drives (R86, R87), armed comparators (R88), the good result (R100, R101, R119, R197), ledger and energy figures
(R243, R254), admission (R250), the fault pins (R300, R302), and the interrupt status bits. -/

namespace Sys2Proof.Machine

/-! ## Rails -/

/-- Rail-state code (R129). -/
def RailState.code : RailState → Nat
  | .off => 0
  | .waiting => 1
  | .spring => 2
  | .ramping => 3
  | .qualifying => 4
  | .good => 5
  | .failed => 6
  | .blocked => 7
  | .retryWait => 8
  | .stopping => 9
  | .discharging => 10
  | .dischargeTimeout => 11

/-- EN is asserted in the state (R86). -/
def RailState.enOn : RailState → Bool
  | .spring | .ramping | .qualifying | .good | .stopping => true
  | _ => false

/-- Transitional states (R129). -/
def RailState.transitional : RailState → Bool
  | .spring | .ramping | .qualifying | .retryWait | .stopping | .discharging => true
  | _ => false

/-- OFF or DISCHARGE_TIMEOUT. -/
def RailState.down : RailState → Bool
  | .off | .dischargeTimeout => true
  | _ => false

/-- FAILED or BLOCKED. -/
def RailState.bad : RailState → Bool
  | .failed | .blocked => true
  | _ => false

/-- The state of rail `r`. -/
def State.rst (s : State) (r : Nat) : RailState := (s.chan r).rail.state

/-- The states of all rails. -/
def State.rsts (s : State) : List RailState := s.rails.map s.rst

/-- SEQ_STAT.SEQ (R144). -/
def State.seqCode (s : State) : Nat :=
  let l := s.rsts
  if l.any (fun x => x == .stopping || x == .discharging) then 4
  else if l.any (fun x => x == .waiting || x == .spring || x == .ramping || x == .qualifying || x == .retryWait) then 1
  else if l.all RailState.down then 0
  else if l.all (· == .good) then 2
  else if l.all (fun x => x == .good || x.bad) then 3
  else 5

/-- Some rail is STOPPING or DISCHARGING. -/
def State.falling (s : State) : Bool := s.rsts.any fun x => x == .stopping || x == .discharging

/-- Every rail is OFF or DISCHARGE_TIMEOUT. -/
def State.railsDown (s : State) : Bool := s.rsts.all RailState.down

/-- Every rail is OFF. -/
def State.railsOff (s : State) : Bool := s.rsts.all (· == .off)

/-- How many rails are in a state. -/
def State.nRails (s : State) (st : RailState) : Nat := (s.rsts.filter (· == st)).length

/-- A predecessor reference counts as GOOD (R124). -/
def State.refGood (s : State) (ref : Nat) : Bool :=
  if isRemote ref then decide ((s.remote (refNum ref)).state = 2) else s.rst (refNum ref) == .good

/-- A predecessor reference is FAILED or BLOCKED, or a remote one FAILED. -/
def State.refBad (s : State) (ref : Nat) : Bool :=
  if isRemote ref then decide ((s.remote (refNum ref)).state = 3) else (s.rst (refNum ref)).bad

/-- The GOOD stamp of a reference. -/
def State.refStamp (s : State) (ref : Nat) : Nat :=
  if isRemote ref then (s.remote (refNum ref)).stamp else (s.chan (refNum ref)).rail.goodAt

/-- A rail is ready: every predecessor is GOOD (R124). -/
def State.railReady (s : State) (r : Nat) : Bool := (s.preds r).all s.refGood

/-- The ready tick: the latest GOOD stamp of the predecessors; 0 where there are none. -/
def State.readyTick (s : State) (r : Nat) : Nat := (s.preds r).foldl (fun a p => max a (s.refStamp p)) 0

/-- Rail-state code of R160 as a publisher reports it (R416). -/
def State.pubCode (s : State) (r : Nat) : Nat :=
  match s.rst r with
  | .good => 2
  | .failed | .blocked => 3
  | _ => 1

/-! ## Drives and comparators of a channel -/

/-- CHn_EN is asserted now: its assertion tick, dead time included (R84), has come. -/
def Sense.enNow (c : Sense) (now : Nat) : Bool := c.en && decide (c.enAt ≤ now)

/-- The synchronised CHn_PG after its polarity: 1 means power good (R82). -/
def Chan.pg (c : Chan) : Bool := c.sense.pgPin != wbit c.ch.cfg 4

/-- CHn_DIS is asserted now: its assertion tick, dead time included (R84), has come. -/
def Sense.disNow (c : Sense) (now : Nat) : Bool := c.dis && decide (c.disAt ≤ now)

/-- Channel HS drives its gate (R116, R118, R260, R264); a VAUX collapse and a main-clock loss pull it to HSSRC (R267, R76). -/
def State.hsGate (s : State) : Bool :=
  s.sys.mainClock && !s.sys.vauxDown && (s.rst HS).enOn && !s.hs.tripped && (!s.hld.isolated || s.hld.rideWait)

/-- The margin code of a state (R190). -/
def MgnState.code : MgnState → Nat
  | .nominal => 0
  | .moving => 1
  | .held => 2
  | .returning => 3

/-- The code of a probe phase (R212). -/
def PrbPhase.code : PrbPhase → Nat
  | .idle => 0
  | .queued => 1
  | .baseline => 2
  | .step => 3
  | .ret => 4
  | .fit => 5

/-- The channel is engaged (text before R190). -/
def Chan.engaged (c : Chan) : Bool :=
  !(c.mgn.st == .nominal) || (c.prb.phase == .baseline || c.prb.phase == .step || c.prb.phase == .ret)

/-- GUARD of the margin set-up. -/
def Chan.guard (c : Chan) : Nat := fld c.ch.mgnCfg 4 8

/-- The edges of a band `g` codes inside the active OV and UV thresholds (R186). -/
def Chan.band (c : Chan) (g : Nat) : Int × Int :=
  ((4 * fld c.sense.act.uv 0 10 + g : Nat), (4 * fld c.sense.act.ov 0 10 : Nat) - (g : Int))

/-- The limit band. -/
def Chan.limitBand (c : Chan) : Int × Int := c.band (c.guard / 2)

/-- The clamp band. -/
def Chan.clampBand (c : Chan) : Int × Int := c.band c.guard

/-- A sample code lies within a band. -/
def inBand (b : Int × Int) (v : Nat) : Bool := decide (b.1 ≤ (v : Int)) && decide ((v : Int) ≤ b.2)

/-- The measured window test of a sample (R101), the limit band while the channel is engaged (R197). -/
def Chan.measGood (c : Chan) (v : Nat) : Bool :=
  if c.engaged then inBand c.limitBand v
  else decide (fld c.sense.act.good 0 12 ≤ v) && decide (v ≤ fld c.sense.act.good 16 12)

/-- The good result from its two parts (R100). -/
def goodOf (pgSrc : Nat) (pin meas : Bool) : Bool :=
  match pgSrc with
  | 0 => pin
  | 1 => meas
  | 2 => pin && meas
  | _ => pin || meas

/-- A comparator of a channel. -/
def Sense.cmp (c : Sense) : Cmp → CmpSt
  | .ov => c.ov
  | .uv => c.uv
  | .oc => c.oc

/-- The channel with a comparator replaced. -/
def Sense.setCmp (c : Sense) (k : Cmp) (v : CmpSt) : Sense :=
  match k with
  | .ov => { c with ov := v }
  | .uv => { c with uv := v }
  | .oc => { c with oc := v }

/-- Kind code of a comparator (R88). -/
def Cmp.code : Cmp → Nat
  | .ov => 0
  | .uv => 1
  | .oc => 2

/-- The threshold word of a comparator in a threshold set. -/
def Thr.cmp (t : Thr) : Cmp → Word
  | .ov => t.ov
  | .uv => t.uv
  | .oc => t.oc

/-- A comparator is armed at `now` (R88); in the dead time before its assertion tick EN is not asserted yet (R84). -/
def Chan.armed (c : Chan) (now : Nat) : Cmp → Bool
  | .ov => c.sense.enNow now || wbit c.sense.pinCfg 9
  | .uv => c.rail.state == .good
  | .oc => c.sense.enNow now && c.sense.ocBlankEnd.isNone

/-- Hysteresis of a threshold word in DAC steps (R95). -/
def hystOf (w : Word) : Nat :=
  match fld w 12 3 with
  | 0 => 0
  | 1 => 1
  | 2 => 2
  | 3 => 4
  | _ => 8

/-! ## Ledger (07) -/

/-- The energy of an entry in pJ (R243). -/
def LEntry.pj (cfg : Word) (e : LEntry) : Nat := e.bytes * fld cfg 0 16 + fld cfg 16 16 * 1000

/-- E_need in µJ, rounded up (R243). -/
def Hld.eNeed (h : Hld) : Nat := ceilDiv ((h.entries.map (LEntry.pj h.energy)).foldl (· + ·) 0) 1000000

/-- Admission is open: no cause holds (R250). -/
def Causes.isOpen (c : Causes) : Bool :=
  !(c.energy || c.free || c.loss || c.auth || c.host || c.safe || c.power || c.link || c.reset)

/-- HLD_STAT.CAUSE, bit 0 for ENERGY. -/
def Causes.code (c : Causes) : Nat :=
  b2n c.energy + 2 * b2n c.free + 4 * b2n c.loss + 8 * b2n c.auth + 16 * b2n c.host + 32 * b2n c.safe + 64 * b2n c.power
    + 128 * b2n c.link + 256 * b2n c.reset

/-- "No epoch" (R235). -/
def noEpoch : Nat := 0xFFFFFFFF

/-- Epoch `a` is later than epoch `b`; "no epoch" ranks earliest (R235). -/
def epochLater (a b : Nat) : Bool :=
  if a = noEpoch then false
  else if b = noEpoch then true
  else
    let d := (a + noEpoch - b) % noEpoch
    decide (1 ≤ d) && decide (d ≤ 0x7FFFFFFF)

/-- The earlier of two epochs. -/
def epochMin (a b : Nat) : Nat := if epochLater a b then b else a

/-- An epoch minus 1 (R235). -/
def epochPred (a : Nat) : Nat := (a + noEpoch - 1) % noEpoch

/-- HLD_DURABLE_EPOCH from the sealed epoch and the entries present (R254). -/
def durableOf (sealed : Nat) (es : List LEntry) : Nat :=
  if sealed = noEpoch then noEpoch
  else
    match es with
    | [] => sealed
    | e :: r => epochMin sealed (epochPred (r.foldl (fun a x => epochMin a x.epoch) e.epoch))

/-- Tentative changes awaiting a verdict: opens, closing marks and pending seals. -/
def Hld.tent (h : Hld) : Nat :=
  (h.entries.filter (·.openBlk.isSome)).length + (h.entries.filter (·.closeBlk.isSome)).length + h.seals.length

/-! ## Faults (08) -/

/-- Some source has PEND set. -/
def Flt.anyPend (f : Flt) : Bool := f.srcs.any (·.2.pend)

/-- How many sources have PEND set. -/
def Flt.nPend (f : Flt) : Nat := (f.srcs.filter (·.2.pend)).length

/-- A source's status. -/
def Flt.src (f : Flt) (i : Nat) : Src := tget {} f.srcs i

/-- FLT_SCFG of a source; a source with no record reads the word R381 gives it (notes/assumptions/7). -/
def Flt.cfgOf (f : Flt) (i : Nat) : Word := tget 0x00010105#32 f.scfg i

/-- FLT_SWIN of a source; no record: T of 1,000 ms, no rail tie (R381). -/
def Flt.winOf (f : Flt) (i : Nat) : Word := tget 0xFFFF03E8#32 f.swin i

/-- The current level of a source (R276). -/
def Flt.level (f : Flt) (i : Nat) : Nat := fld (f.cfgOf i) 0 2 + (f.src i).up

/-- The window T of a source in ticks. -/
def Flt.tWin (f : Flt) (i : Nat) : Nat := fld (f.winOf i) 0 16 * tMs

/-- FLT_SSTAT.CNT: the count while a window is open, and 0 from the tick after it closes (R276). -/
def Flt.cntNow (f : Flt) (i now : Nat) : Nat :=
  if now ≤ (f.src i).openAt + f.tWin i then (f.src i).cnt else 0

/-- The safe state holds. -/
def State.safeNow (s : State) : Bool := s.flt.safe.isSome

/-- The device is configured and in READY, or reloading from it. -/
def State.configured (s : State) : Bool :=
  s.sys.phase == .ready || (s.reloading && !s.cfg.fromRecovery)

/-- FAULT_N is driven low (R300): a source has PEND, a privileged bit is set, the safe state holds, or start-up has not reached READY
(R71, R74), HALT and recovery mode included; HALT keeps it low until the next power-on reset (R60), and a VAUX collapse releases it to
its pull-down (R267). -/
def State.faultLow (s : State) : Bool :=
  s.flt.anyPend || decide (s.flt.priv ≠ 0) || s.safeNow || !s.configured || s.sys.haltHold || s.sys.vauxDown

/-! ## Interrupts -/

/-- Some enabled status bit is set. -/
def irqHit (x : Irq) (en : Word) : Bool := !decide (x.st &&& en = 0)

/-- Some enabled interrupt status bit of any block is set. -/
def State.irqAny (s : State) : Bool :=
  irqHit s.sys.irq s.sys.irqEn || irqHit s.seq.irq s.seq.irqEn || irqHit s.seq.springIrq s.seq.springIrqEn
    || irqHit s.hld.irq s.hld.irqEn || irqHit s.flt.irq s.flt.irqEn || irqHit s.wdg.irq s.wdg.irqEn
    || irqHit s.env.irq s.env.irqEn || irqHit s.bbx.irq s.bbx.irqEn || irqHit s.cfg.irq s.cfg.irqEn
    || irqHit s.cas.irq s.cas.irqEn || irqHit s.mcp.irq s.mcp.irqEn || irqHit s.sec.irq s.sec.irqEn
    || irqHit s.pwr.irq s.pwr.irqEn || irqHit s.gpio.irq s.gpio.irqEn || irqHit s.cnt.irq s.cnt.irqEn
    || irqHit s.gpio.intStat (w32 s.gpio.intEn)
    || s.chans.any fun e => irqHit e.2.sense.irq e.2.sense.irqEn || irqHit e.2.mgn.irq e.2.mgn.irqEn

/-- ALERT_N is asserted (R446): while a privileged bit is set, in every phase (R302), and while an enabled bit is, outside Winter and
Midwinter (R492) and once configured (R71). -/
def State.alertLow (s : State) : Bool :=
  (s.configured && s.rungOk && s.irqAny) || decide (s.flt.priv ≠ 0)

/-- The state with SYS_IRQ_STAT bit `i` set; the same for the other blocks below. -/
def State.irqSys (s : State) (i : Nat) : State := { s with sys := { s.sys with irq := Irq.set s.sys.irq i } }
/-- SEQ_IRQ_STAT. -/
def State.irqSeq (s : State) (i : Nat) : State := { s with seq := { s.seq with irq := Irq.set s.seq.irq i } }
/-- SEQ_SPRING_IRQ_STAT. -/
def State.irqSpring (s : State) (i : Nat) : State := { s with seq := { s.seq with springIrq := Irq.set s.seq.springIrq i } }
/-- HLD_IRQ_STAT. -/
def State.irqHld (s : State) (i : Nat) : State := { s with hld := { s.hld with irq := Irq.set s.hld.irq i } }
/-- FLT_IRQ_STAT. -/
def State.irqFlt (s : State) (i : Nat) : State := { s with flt := { s.flt with irq := Irq.set s.flt.irq i } }
/-- WDG interrupt status. -/
def State.irqWdg (s : State) (i : Nat) : State := { s with wdg := { s.wdg with irq := Irq.set s.wdg.irq i } }
/-- ENV_IRQ_STAT. -/
def State.irqEnv (s : State) (i : Nat) : State := { s with env := { s.env with irq := Irq.set s.env.irq i } }
/-- BBX_IRQ_STAT. -/
def State.irqBbx (s : State) (i : Nat) : State := { s with bbx := { s.bbx with irq := Irq.set s.bbx.irq i } }
/-- CFG_IRQ_STAT. -/
def State.irqCfg (s : State) (i : Nat) : State := { s with cfg := { s.cfg with irq := Irq.set s.cfg.irq i } }
/-- CAS_IRQ_STAT. -/
def State.irqCas (s : State) (i : Nat) : State := { s with cas := { s.cas with irq := Irq.set s.cas.irq i } }
/-- LNK_IRQ_STAT. -/
def State.irqLnk (s : State) (i : Nat) : State := { s with mcp := { s.mcp with irq := Irq.set s.mcp.irq i } }
/-- SEC_IRQ_STAT. -/
def State.irqSec (s : State) (i : Nat) : State := { s with sec := { s.sec with irq := Irq.set s.sec.irq i } }
/-- PWR_IRQ_STAT. -/
def State.irqPwr (s : State) (i : Nat) : State := { s with pwr := { s.pwr with irq := Irq.set s.pwr.irq i } }
/-- GPIO_IRQ_STAT. -/
def State.irqGpio (s : State) (i : Nat) : State := { s with gpio := { s.gpio with irq := Irq.set s.gpio.irq i } }
/-- CNT_IRQ_STAT. -/
def State.irqCnt (s : State) (i : Nat) : State := { s with cnt := { s.cnt with irq := Irq.set s.cnt.irq i } }
/-- CH_IRQ_STAT of a channel. -/
def State.irqCh (s : State) (n i : Nat) : State :=
  s.modChan n fun c => { c with sense := { c.sense with irq := Irq.set c.sense.irq i } }
/-- CH_MH_IRQ_STAT of a channel. -/
def State.irqMh (s : State) (n i : Nat) : State :=
  s.modChan n fun c => { c with mgn := { c.mgn with irq := Irq.set c.mgn.irq i } }

end Sys2Proof.Machine
end

