-- ==== Sys2Proof/Machine/Capture.lean ====
section
/-! DEFINITION. The black box's coder, rings and captures (R355 to R365). -/

namespace Sys2Proof.Machine

/-! ## The coder (R355 to R357) -/

/-- The `len` low bits of a number, most significant first. -/
def bitsMsb (n len : Nat) : List Bool := (List.range len).map fun i => n.testBit (len - 1 - i)

/-- The code of `u` with parameter `k`. -/
def rice (u k : Nat) : List Bool :=
  if u / 2 ^ k < 24 then List.replicate (u / 2 ^ k) true ++ [false] ++ bitsMsb (u % 2 ^ k) k
  else List.replicate 24 true ++ bitsMsb u 13

/-- A value brought into the range of a code. -/
def clampCode (x : Int) : Int := if x < 0 then 0 else if 4095 < x then 4095 else x

/-- Error bound of a BBX_CFG.E code. -/
def errBound (code : Nat) : Nat := match code % 4 with | 0 => 0 | 1 => 1 | 2 => 2 | _ => 4

/-- The numbers u of the samples after the first, given the last two reconstructed values. -/
def codeFrom (e : Nat) (first : Bool) (r1 r2 : Int) : List Nat → List Nat
  | [] => []
  | x :: xs =>
    let d : Int := 2 * e + 1
    let p := if first then r1 else clampCode (2 * r1 - r2)
    let err := (x : Int) - p
    let a := ((err.natAbs : Int) + e) / d
    let q := if err < 0 then -a else a
    let u := if 0 ≤ q then 2 * q else -2 * q - 1
    u.toNat :: codeFrom e false (clampCode (p + q * d)) r1 xs

/-- Coded length of the numbers of a signal with parameter `k`. -/
def riceLen (us : List Nat) (k : Nat) : Nat := (us.map fun u => (rice u k).length).foldl (· + ·) 0

/-- The parameter of least coded length; among equals the manual states none. -/
def riceK (xs us : List Nat) : Nat :=
  let best := ((List.range 13).map (riceLen us)).foldl min (riceLen us 0)
  let ks := (List.range 13).filter fun k => riceLen us k = best
  ks.getD (Config.riceTie xs % ks.length) 0

/-- A signal of a coded chunk, its samples oldest first. -/
def codeSignal (e : Nat) (xs : List Nat) : List Bool :=
  let x := xs.headD 0
  let us := codeFrom e true x x xs.tail
  let k := riceK xs us
  bitsMsb k 4 ++ bitsMsb x 12 ++ (us.map fun u => rice u k).flatten

/-- A coded chunk, its signals in SIGMASK order. -/
def codeChunk (e : Nat) (sigs : List (List Nat)) : List Bool := [false, false] ++ (sigs.map (codeSignal e)).flatten

/-- A summary chunk. -/
def sumChunk (l : List (Nat × Nat)) : List Bool :=
  [false, true] ++ (l.map fun p => bitsMsb p.1 12 ++ bitsMsb p.2 12).flatten

/-- Bits as bytes, most significant first, padded with 0. -/
def packBits : Nat → List Bool → List Byte
  | 0, _ => []
  | _ + 1, [] => []
  | fuel + 1, l =>
    BitVec.ofNat 8 ((List.range 8).foldl (fun a i => 2 * a + b2n (l.getD i false)) 0) :: packBits fuel (l.drop 8)

/-- A bit string as whole bytes. -/
def bitBytes (l : List Bool) : List Byte := packBits (l.length + 1) l

/-! ## Chunks and rings (R358) -/

/-- Bits of a chunk, in summary form where `summ` or where no coded form is kept. -/
def Chunk.bits (c : Chunk) (summ : Bool) : List Bool :=
  match c.coded with
  | some b => if summ then sumChunk c.summary else b
  | none => sumChunk c.summary

/-- Bytes a chunk takes. -/
def Chunk.size (c : Chunk) : Nat := ceilDiv (c.bits false).length 8

/-- Bytes of a ring. -/
def ringSize (l : List Chunk) : Nat := (l.map Chunk.size).foldl (· + ·) 0

/-- The signals of the chunk in progress, in SIGMASK order, oldest sample first. -/
def Recorder.sigs (r : Recorder) : List (List Nat) := r.cur.map fun x => x.2.reverse

/-- The chunk in progress, coded where its form may be coded. -/
def Recorder.chunk (r : Recorder) (summ : Bool) : Chunk :=
  let sigs := r.sigs
  { first := r.slot0.getD (r.bound - 6400)
    mask := (r.cur.map fun x => 2 ^ x.1).foldl (· + ·) 0
    coded := if summ then none else some (codeChunk (errBound r.e) sigs)
    summary := sigs.map fun l => (l.foldl min (l.headD 0), l.foldl max 0) }

/-- A chunk stored in a space of `room` bytes of which `used` are taken: coded where it fits, else its summary alone. -/
def Chunk.fitIn (c : Chunk) (used room : Nat) : Chunk := if used + c.size ≤ room then c else { c with coded := none }

/-- The chunk in progress ends: it goes to the ring, or to the post area of a capture whose last pre-trigger chunk has ended. A recorder
that started afresh within the chunk has none of it (R357, notes/assumptions/116). -/
def Recorder.endChunk (r : Recorder) (summ capturing : Bool) (posts e : Nat) : Recorder :=
  let c := r.chunk summ
  let r' := { r with cur := [], slot0 := none, wait := false, e := if capturing then r.e else e }
  if r.wait then r'
  else if capturing && r.frozen then
    (if r.post.length < posts then
      let c := c.fitIn (ringSize r.post) 49152
      { r' with post := c :: r.post, fallback := c.coded.isNone }
     else r')
  else
    let c := c.fitIn (ringSize (r.ring.take 312)) 163840
    { r' with ring := (c :: r.ring).take 313, frozen := capturing, fallback := c.coded.isNone }

/-- The recorder at `now`: a chunk whose boundary has come has ended; boundaries lie 6,400 ticks apart (R357). -/
def Recorder.roll (r : Recorder) (now : Nat) (summ capturing : Bool) (posts e : Nat) : Recorder :=
  if r.on && decide (r.bound ≤ now) then
    { r.endChunk summ capturing posts e with bound := r.bound + 6400 * ((now - r.bound) / 6400 + 1) }
  else r

/-- The post-trigger chunks that are still recorded: none once the post-trigger part has ended (R360, R361). -/
def Bbx.postsWanted (b : Bbx) : Nat := match b.cap with | some c => if c.state ≤ 1 then c.posts else 0 | none => 0

/-- The recorder of island `i` brought to `now`. -/
def Bbx.roll (b : Bbx) (i now : Nat) (summ : Bool) : Bbx :=
  { b with recs := tmod {} b.recs i fun r => r.roll now summ b.cap.isSome b.postsWanted b.e }

/-- A write of the error bound at `now`: it applies from a chunk that begins on that tick, unless a capture is in progress (R366). -/
def Bbx.setE (b : Bbx) (e now : Nat) (summ : Bool) : Bbx :=
  let b := (b.recs.map (·.1)).foldl (fun b i => b.roll i now summ) b
  { b with e := e
           recs := if b.cap.isSome then b.recs
             else tmap {} (fun _ r => if r.on && decide (r.bound = now + 6400) then { r with e := e } else r) b.recs }

/-! ## Space (R363) -/

/-- First line of the black-box region, and its lines. -/
def bbxRegion : Variant → Nat × Nat
  | .dz128 => (0xA00000, 65536)
  | .dz32 => (0x280000, 16384)

/-- Lines reserved for a capture of `n` islands. -/
def bbxNeed (n : Nat) (summ : Bool) : Nat := 1 + n * (1 + if summ then 320 else 3328)

/-- Lines `a` on, `n` of them, meet lines `b` on, `m` of them, in a region of `size` lines taken round. -/
def meets (size a n b m : Nat) : Bool :=
  decide (m ≠ 0) && (decide ((b + size - a) % size < n) || decide ((a + size - b) % size < m))

/-- The islands of a capture. -/
def Capture.isls (c : Capture) (v : Variant) : List Nat := (List.range (nIsl v)).filter c.mask.testBit

/-- Where the capture goes, and whether in summary form only; none where it is dropped. It starts on the line after the previous
capture, or past the protected one where not even the summary form fits before it (notes/assumptions/34). -/
def Bbx.place (b : Bbx) (v : Variant) (c : Capture) : Option (Nat × Bool) :=
  let (base, size) := bbxRegion v
  let n := (c.isls v).length
  let prot := (b.protAddr - base) / 64
  let next := if b.lastNum = 0 then 0 else ((b.lastAddr - base) / 64 + b.lastLines) % size
  let hit (at_ : Nat) (summ : Bool) :=
    decide (size < bbxNeed n summ) || (decide (b.protNum ≠ 0) && meets size at_ (bbxNeed n summ) prot b.protLines)
  let at_ := if hit next true then (prot + b.protLines) % size else next
  let addr := base + 64 * at_
  if !c.summ && !hit at_ false then some (addr, false)
  else if !hit at_ true then some (addr, true)
  else none

/-- Recorders start afresh with an empty ring, on the boundaries they have (R357, R360). -/
def Bbx.restart (b : Bbx) : Bbx :=
  { b with cap := none
           recs := tmap {} (fun _ r => { on := r.on, wait := true, e := b.e, bound := r.bound, slotOfs := r.slotOfs, ref := r.ref }) b.recs }

/-- The post-trigger part has ended at `stamp`: the capture takes its place, or is dropped. -/
def Bbx.toWrite (b : Bbx) (v : Variant) (stamp : Nat) : Bbx :=
  match b.cap with
  | none => b
  | some c =>
    match b.place v c with
    | some p => { b with cap := some { c with state := 2, endAt := stamp, addr := p.1, summ := p.2 } }
    | none => { b.restart with drop := incTo 0xFF b.drop, irq := Irq.set b.irq 2 }

/-- A capture in progress when input loss arises ends its post-trigger part, and the chunks not yet written go on in summary form
(R361). How many of a capture being written stand written at that stamp is a free value (notes/assumptions/129). -/
def Bbx.lossCut (b : Bbx) (v : Variant) (stamp : Nat) : Bbx :=
  match b.cap with
  | none => b
  | some c =>
    let c' := { c with
      summ := c.summ || decide (c.state ≤ 2), posts := if c.state = 0 then 0 else c.posts
      kept := if c.state = 2 ∧ !c.summ then Config.chunksWritten stamp else c.kept }
    let b' := { b with cap := some c' }
    if c.state = 1 then b'.toWrite v stamp else b'

/-- The capture goes on once every running recorder's last pre-trigger chunk has ended, and again once their post-trigger chunks
have. -/
def Bbx.progress (b : Bbx) (v : Variant) (stamp : Nat) : Bbx :=
  match b.cap with
  | none => b
  | some c =>
    if c.state ≤ 1 ∧ b.recs.all (fun r => !r.2.on || r.2.frozen) then
      (if b.recs.all fun r => !r.2.on || decide (c.posts ≤ r.2.post.length) then b.toWrite v stamp
       else { b with cap := some { c with state := 1 } })
    else b

/-! ## The stream (R365) -/

/-- Bytes padded to whole lines. -/
def padLines (l : List Byte) : List Byte := l ++ List.replicate (ceilDiv l.length 64 * 64 - l.length) 0

/-- The chunks of a capture's recorder. -/
def Recorder.count (r : Recorder) : Nat := r.ring.length + r.post.length

/-- The stream of island `i`: its header line, its chunks, the end-of-stream chunk; in summary form but for its first `kept` chunks. -/
def Recorder.stream (r : Recorder) (i : Nat) (summ : Bool) (kept : Nat) : List Byte :=
  let pre := r.ring.reverse
  let post := r.post.reverse
  let mask := (pre ++ post).foldl (fun m c => Nat.lor m c.mask) 0
  let first := ((pre ++ post).map (·.first)).headD 0
  let hdr := lineOf ([(0, leBytes 1 i), (2, leBytes 2 mask), (4, leBytes 8 first), (12, leBytes 2 pre.length),
    (14, leBytes 2 post.length)] ++ (List.range 8).map fun j => (16 + j, leBytes 1 (tget 0 r.slotOfs j)))
  let chunks := (pre ++ post).zipIdx.map fun c => bitBytes (c.1.bits (summ && decide (kept ≤ c.2)))
  padLines (hdr ++ chunks.flatten ++ bitBytes [true, true])

/-- The streams of islands, the first `kept` chunks of them in the form they were kept in. -/
def Bbx.streams (b : Bbx) (summ : Bool) : Nat → List Nat → List (Nat × List Byte)
  | _, [] => []
  | kept, i :: r => (i, (tget {} b.recs i).stream i summ kept) :: b.streams summ (kept - (tget {} b.recs i).count) r

/-- The bytes of a capture: its header line, then the streams of its islands. -/
def Bbx.image (b : Bbx) (v : Variant) (c : Capture) : List Byte :=
  let streams := b.streams c.summ c.kept (c.isls v)
  let hdr := lineOf ([(0, ascii [0x42, 0x42, 0x58, 0x43]), (4, leBytes 4 c.num), (8, leBytes 8 c.stamp), (16, leBytes 1 c.kind),
    (17, leBytes 1 (b2n c.prot + 2 * b2n c.summ)), (18, leBytes 2 c.src), (20, leBytes 2 c.mask), (22, leBytes 1 c.e)]
    ++ streams.map fun x => (24 + 2 * x.1, leBytes 2 (x.2.length / 64)))
  hdr ++ (streams.map (·.2)).flatten

end Sys2Proof.Machine
end

