-- ==== Sys2Proof/Machine/Ops.lean ====
section
/-! DEFINITION. Named operations that many commands share: counters (16), sending on the links (12, 13), the journal queue
(10), the black-box trigger (10), the fault collector's report (08), privileged events (08), and the passing of a timebase
tick. Each is written as an update of the fields it may change, so that what it leaves alone is visible in its form. -/

namespace Sys2Proof.Machine

/-- A number shown in a field of `len` bits; of one that does not fit, the manual states no reading (notes/assumptions/20). -/
def fit (len n : Nat) : Nat := if n < 2 ^ len then n else Config.beyondRange n % 2 ^ len

/-- A signed number shown in a field of `len` bits; of one that does not fit, the manual states no reading
(notes/assumptions/20). -/
def fitSgn (len : Nat) (x : Int) : Nat :=
  if -(2 ^ (len - 1) : Nat) ≤ x ∧ x < (2 ^ (len - 1) : Nat) then unsgn len x else Config.beyondRange x % 2 ^ len

/-- Bytes drawn from the random source: `len` bytes of the next free value, and the state with the draw counted
(notes/assumptions/5). -/
def State.draw (s : State) (len : Nat) : List Byte × State :=
  (slice (Config.random s.sec.rnd) 0 len, { s with sec := { s.sec with rnd := s.sec.rnd + 1 } })

/-- The 8-byte UID. -/
def State.uidBytes (s : State) : List Byte := leBytes 8 s.sys.taken.uid

/-! ## Counters (R518 to R524) -/

/-- The largest leaf value. -/
def leafMax : Nat := 0xFFFFFFFFFFFF

/-- One increment of leaf key `k` = 8n + j: lost on the tick of a write of the leaf (R522) or while the leaf is invalid (R523);
overflow to the preload value or 0 (R521); the island and device totals take the same increment (R520). -/
def Cnt.inc (c : Cnt) (k : Nat) : Cnt :=
  if tget false c.inv k || c.wrote.contains k then c
  else
    let v := tget 0 c.leaf k
    let ovfl := decide (leafMax ≤ v)
    let v' := if ovfl then (if tget false c.pre k then c.preload else 0) else v + 1
    let ik := 8 * (k / 64) + k % 8
    { c with
      leaf := tset 0 c.leaf k v'
      incd := tset 0 c.incd k (tget 0 c.incd k + 1)
      isl := if tget false c.islInv ik then c.isl else tset 0 c.isl ik (tget 0 c.isl ik + 1)
      dev := if tget false c.devInv (k % 8) then c.dev else tset 0 c.dev (k % 8) (tget 0 c.dev (k % 8) + 1)
      ovf := if ovfl then tset false c.ovf k true else c.ovf
      ovfNow := if ovfl && !(c.ovfNow.any fun e => decide (e.1 = k)) then (k, tget false c.ovf k) :: c.ovfNow else c.ovfNow }

/-- The increments of the present tick that leaf `k` took are lost: the totals give them back, and no overflow of theirs raises an
interrupt (R520, R522, R531). -/
def Cnt.unInc (c : Cnt) (k : Nat) : Cnt :=
  let m := tget 0 c.incd k
  let ik := 8 * (k / 64) + k % 8
  { c with
    incd := tset 0 c.incd k 0
    isl := if tget false c.islInv ik then c.isl else tset 0 c.isl ik (tget 0 c.isl ik - m)
    dev := if tget false c.devInv (k % 8) then c.dev else tset 0 c.dev (k % 8) (tget 0 c.dev (k % 8) - m)
    ovf := match c.ovfNow.find? fun e => decide (e.1 = k) with | some e => tset false c.ovf k e.2 | none => c.ovf
    ovfNow := c.ovfNow.filter fun e => !decide (e.1 = k) }

/-- The counters at the end of a tick: an overflow of it raises its interrupt (R521), a FREEZE of it holds from the next (R524). -/
def Cnt.tickEnd (c : Cnt) : Cnt :=
  { c with frozen := c.frozen || c.freezing, freezing := false
           irq := if c.ovfNow.isEmpty then c.irq else Irq.set c.irq 0 }

/-- What the counters keep of one tick ends with it. -/
def Cnt.newTick (c : Cnt) : Cnt :=
  { c with irq := c.irq.next, wrote := [], incd := [], ovfNow := [], missNow := []
           missed := min 0xFFFF (c.missed + c.missNow.length) }

/-- The leaves of channel `n` that count one of the codes `es` (R519). -/
def Cnt.leavesOf (c : Cnt) (n : Nat) (es : List Nat) : List Nat :=
  ((List.range 8).map (8 * n + ·)).filter fun k => es.contains (tget 0 c.ev k)

/-- One event on channel `n`, which the table of R519 names by the codes `es`: each leaf that counts it is incremented, or the event is
missed once while the counters are frozen (R524). -/
def Cnt.count (c : Cnt) (n : Nat) (es : List Nat) : Cnt :=
  let l := c.leavesOf n es
  if l.isEmpty then c else if c.frozen then { c with missNow := l :: c.missNow } else l.foldl Cnt.inc c

/-- Keys of leaves that changed since the last COUNT record: channels. -/
def markDirty (v : Variant) (t : NatSet) (n : Nat) : NatSet := if n < nCh v then tset false t n true else t

/-- An event of code `e` (not 0) on a channel in use (R518, R519). -/
def State.count (s : State) (n e : Nat) : State :=
  { s with
    cnt := if s.inUse n then s.cnt.count n [e] else s.cnt
    env := { s.env with countDirty := if s.inUse n && !decide ((s.cnt.count n [e]).leaf = s.cnt.leaf)
                                      then tset false s.env.countDirty n true else s.env.countDirty } }

/-! ## Port throughput (R527, R528) -/

/-- A window ends at `t`: its counts are published, and the next one begins, with a new length where one waits. -/
def Tp.close (x : Tp) (t : Nat) : Tp :=
  let win := x.nextWin.getD x.win
  { win := win, nextWin := none, endAt := if win = 0 then none else some (t + win * 100)
    bytes := 0, frames := 0, errs := 0, lBytes := x.bytes, lFrames := x.frames, lErrs := x.errs, wseq := (x.wseq + 1) % 0x10000 }

/-- Every window that has ended by `now` is closed: an item stamped on a boundary belongs to the new window. -/
def Tp.roll (now : Nat) : Nat → Tp → Tp
  | 0, x => x
  | fuel + 1, x =>
    match x.endAt with
    | some t => if t ≤ now then Tp.roll now fuel (x.close t) else x
    | none => x

/-- Adds up to a largest value. -/
def addTo (m a b : Nat) : Nat := min m (a + b)

/-- Items counted on a port at `now`; a port without a window counts nothing. -/
def Tp.add (x : Tp) (now bytes frames errs : Nat) : Tp :=
  if x.win = 0 then x
  else
    let x := x.roll now now
    { x with bytes := addTo 0xFFFFFFFF x.bytes bytes, frames := addTo 0xFFFFFFFF x.frames frames
             errs := addTo 0xFFFF x.errs errs }

/-- Items counted on port `p`: 0 HMP, 1 MCP, 2 PMBus, 3 the cascade up port, 4 to 7 down ports. -/
def State.tpAdd (s : State) (p bytes frames errs : Nat) : State :=
  { s with cnt := { s.cnt with tp := tmod {} s.cnt.tp p fun x => x.add s.sys.tb bytes frames errs } }

/-! ## Sending on the MCP (R453, R454) -/

/-- The link is UP, on one lane or on all. -/
def Mcp.up (m : Mcp) : Bool := m.link == .up || m.link == .degraded

/-- Frames in blocks of eight, the last completed with FILL frames. -/
def blocksOf : Nat → List McpFrame → List (List McpFrame)
  | 0, _ => []
  | _ + 1, [] => []
  | fuel + 1, fs => (fs.take 8 ++ List.replicate (8 - (fs.take 8).length) McpFrame.fill) :: blocksOf fuel (fs.drop 8)

/-- Waiting blocks go on the wire while fewer than 16 are unacknowledged. -/
def Mcp.pump (now : Nat) : Nat → Mcp → Mcp
  | 0, m => m
  | fuel + 1, m =>
    match m.waiting with
    | [] => m
    | b :: r =>
      if m.unacked.length < 16 then
        Mcp.pump now fuel { m with waiting := r, txNext := (m.txNext + 1) % 0x10000
                                   unacked := m.unacked ++ [{ n := m.txNext, frames := b, sentAt := now }] }
      else m

/-- Blocks that are complete go to those that wait for the wire. -/
def Mcp.launch (m : Mcp) (bs : List (List McpFrame)) (now : Nat) : Mcp :=
  Mcp.pump now (m.waiting.length + bs.length) { m with waiting := m.waiting ++ bs }

/-- Frames the supervisor must send take the next free slots of the open block, a block being opened where none is (R453). A DRAIN
clears DACK (R452). Nothing is sent on a link that is not UP. -/
def Mcp.send (m : Mcp) (fs : List McpFrame) (now : Nat) : Mcp :=
  if m.up && !fs.isEmpty then
    let all := m.opened ++ fs
    let full := all.length / 8 * 8
    { m with opened := all.drop full
             dack := m.dack && !fs.any fun f => match f with | .drain _ => true | _ => false }.launch
      (blocksOf full (all.take full)) now
  else m

/-- The open block is completed with FILL frames: no further frame is queued (R453). The model takes it so at the end of each tick
(DESIGN CHOICE, notes/assumptions/131). -/
def Mcp.close (m : Mcp) (now : Nat) : Mcp :=
  if m.opened.isEmpty then m else { m with opened := [] }.launch (blocksOf 1 m.opened) now

/-- The open block at the end of a tick. -/
def State.sendTick (s : State) : State := { s with mcp := s.mcp.close s.now }

/-- Sends frames on the MCP. -/
def State.mcpSend (s : State) (fs : List McpFrame) : State := { s with mcp := s.mcp.send fs s.now }

/-! ## Sending on the cascade (R403, R405, R406) -/

/-- A frame for a port's link: sent at once while fewer than eight are unacknowledged, else kept waiting; a port that is not
UP sends nothing. -/
def CasPort.push (p : CasPort) (f : CasFrame) (now : Nat) : CasPort :=
  if p.link == .up then
    if p.unacked.length < 8 then
      { p with unacked := p.unacked ++ [(p.lseq, f)], lseq := (p.lseq + 1) % 16
               sentAt := if p.unacked.isEmpty then now else p.sentAt }
    else { p with waiting := p.waiting ++ [(now, f)] }
  else p

/-- The frame goes out of port `p`: 0 the up port, 1 + k down port k. -/
def Cas.out (c : Cas) (p : Nat) (f : CasFrame) (now : Nat) : Cas :=
  { c with ports := tmod {} c.ports p fun q => q.push f now }

/-- The hop of a path at a device of depth `d`: the down port taken there. -/
def hopAt (path d : Nat) : Nat := path / 4 ^ d % 4

/-- The port toward an address: a device known below goes by its path, anything else up. -/
def Cas.portTo (c : Cas) (leader : Bool) (dst : Nat) : Option Nat :=
  let d := tget {} c.devs dst
  if d.joined then some (1 + hopAt d.path c.depth) else if leader then none else some 0

/-- A frame to one address. -/
def State.casTo (s : State) (dst : Nat) (f : CasFrame) : State :=
  { s with cas := match s.cas.portTo s.sys.strap dst with
                  | some p => s.cas.out p f s.now
                  | none => s.cas }

/-- A frame toward the leader. -/
def State.casUp (s : State) (f : CasFrame) : State :=
  { s with cas := if s.sys.strap then s.cas else s.cas.out 0 f s.now }

/-- A frame to every device below: out of every down port. -/
def State.casDown (s : State) (f : CasFrame) : State :=
  { s with cas := (List.range (nCasPort s.hw.variant - 1)).foldl (fun c k => c.out (k + 1) f s.now) s.cas }

/-! ## Responses (R434, R436) -/

/-- A response is sent and held. -/
def State.answer (s : State) (status detail : Nat) (payload : List Byte) : State :=
  let r : HmpResp := { status := status, detail := detail, payload := payload }
  { s with hmp := { s.hmp with status := status, detail := detail, resp := some r, out := some r } }

/-- A response to a request that passed every check of R433, an accepted frame for the idle limit (R445). -/
def State.answerOk (s : State) (at_ status detail : Nat) (payload : List Byte) : State :=
  let s := s.answer status detail payload
  { s with hmp := { s.hmp with acceptedAt := at_ } }

/-- A response as it stands on HMP_MISO (R434): SYNC, STATUS, DETAIL, RLEN, the payload, CRC-32C over all but SYNC. -/
def HmpResp.bytes (r : HmpResp) : List Byte :=
  let body := leBytes 1 r.status ++ leBytes 1 r.detail ++ leBytes 2 r.payload.length ++ r.payload
  0x5A#8 :: body ++ leBytes 4 (crc32c body).toNat

/-- What the supervisor has last sent on HMP_MISO. -/
def State.miso (s : State) : List Byte := (s.hmp.out.map HmpResp.bytes).getD []

/-! ## Black-box trigger (R359 to R361) -/

/-- The lowest-coded of two triggers of one stamp decides the kind and the source. -/
def Capture.join (c : Capture) (kind src : Nat) : Capture :=
  if kind < c.kind then { c with kind := kind, src := src } else c

/-- No capture is protected as of `stamp`: one whose release was accepted by then no longer counts (R362, R366). -/
def Bbx.unprotected (b : Bbx) (stamp : Nat) : Bool := decide (b.protNum = 0) || b.relAt.any fun t => decide (t ≤ stamp)

/-- A trigger counted as missed. -/
def Bbx.miss (b : Bbx) : Bbx := { b with missed := incTo 0xFF b.missed, irq := Irq.set b.irq 1 }

/-- The chunk in progress at `stamp` has ended: the recorder is in a later one, or starts afresh (R360). -/
def Recorder.past (r : Recorder) (stamp : Nat) : Bool := r.wait || decide (stamp + 6400 < r.bound)

/-- A trigger of `kind` and `src` at `stamp`. It starts a capture where the recorder runs and none is in progress; one of the
same stamp joins it; a first fault within the span of the capture in progress marks it FIRST_FAULT and protected; any other, and one
that carries no later stamp than the end of the last commit, is counted as missed (R360, R366). `lossOn` and `autumn` make the capture
summary form only (R361, R489). -/
def Bbx.trigger (b : Bbx) (now : Nat) (lossOn autumn : Bool) (kind src stamp : Nat) : Bbx :=
  let b := (b.recs.map (·.1)).foldl (fun b i => b.roll i now autumn) b
  match b.cap with
  | none =>
    if b.doneAt.any fun t => decide (stamp ≤ t) then b.miss
    else if b.recs.any (·.2.on) then
      { b with cap := some { kind := kind, src := src, stamp := stamp, state := 0
                             prot := decide (kind = 1) && b.unprotected stamp, summ := lossOn || autumn
                             num := b.lastNum + 1, mask := b.islMask, e := b.e, posts := if lossOn then 0 else 79 }
               recs := tmap {} (fun _ r => { r with frozen := r.on && r.past stamp }) b.recs }
    else b
  | some c =>
    if c.stamp = stamp then
      { b with cap := some { c.join kind src with prot := c.prot || (decide (kind = 1) && b.unprotected stamp) } }
    else if kind = 1 ∧ (c.state ≤ 1 ∨ stamp ≤ c.endAt) then
      { b with cap := some { c with kind := 1, src := src, prot := c.prot || b.unprotected stamp } }
    else b.miss

/-- The input-loss comparator held at `stamp`, or holds now, when the loss has arisen within the capture of a trigger of `stamp`
(R361). -/
def State.lossHeld (s : State) (stamp : Nat) : Bool :=
  s.pwr.vinLoss || (decide (s.pwr.lossAt ≤ stamp) && decide (stamp < s.pwr.lossEnd))

/-- A black-box trigger. -/
def State.bbxTrigger (s : State) (kind src stamp : Nat) : State :=
  { s with bbx := s.bbx.trigger s.now (s.lossHeld stamp) (s.pwr.rung == .autumn) kind src stamp }

/-! ## The fault log and the collector (08) -/

/-- The order of R279 within one stamp: higher level first, then lower source. -/
def FEntry.before (a b : FEntry) : Bool :=
  decide (b.level < a.level) || (decide (a.level = b.level) && decide (a.src ≤ b.src))

/-- Whether the entry is that of an event (raised, consequential or wire). -/
def FEntry.isEvent (e : FEntry) : Bool := decide (e.kind ≤ 2)

/-- An entry put in from the newest end (the list is newest first): past entries of a later stamp, and past events of its own stamp that
come after it (R305). -/
def logIns (e : FEntry) : List FEntry → List FEntry
  | [] => [e]
  | x :: r =>
    if e.stamp < x.stamp ∨ (x.stamp = e.stamp ∧ x.isEvent ∧ e.isEvent ∧ !x.before e) then x :: logIns e r else e :: x :: r

/-- Appends an entry to the fault log (oldest first), or drops it when 256 are held (R305, R164). -/
def Flt.logAdd (f : Flt) (e : FEntry) : Flt :=
  if f.log.length < 256 then { f with log := (logIns e f.log.reverse).reverse }
  else { f with logOvf := true, irq := Irq.set f.irq 8 }

/-- The sources that the tables of R270 to R272 name on a variant. R270 names the sources of channels 0 to 127 for every variant; those of
channels that the DZ-32 lacks, and 1,030 to 1,033, which are never raised there, count as not named (DESIGN CHOICE,
notes/assumptions/43). -/
def srcNamed (v : Variant) (i : Nat) : Bool :=
  decide (i < 8 * nCh v) || (decide (1024 ≤ i) && decide (i ≤ 1057) && !(v == .dz32 && decide (1030 ≤ i) && decide (i ≤ 1033)))

/-- A channel source. -/
def isChSrc (i : Nat) : Bool := decide (i < 1024)

/-- The island that detects a source's event: the rail island of a channel source; the link island for the ports
(notes/assumptions/8); the control island otherwise. -/
def srcIsl (i : Nat) : Nat :=
  if i < 1024 then i / 64 else if [1043, 1044, 1046, 1047, 1048, 1054].contains i then 17 else 16

/-- The source can raise events now (R3, R4, R270, R273). -/
def State.srcLive (s : State) (i : Nat) : Bool :=
  srcNamed s.hw.variant i && (!isChSrc i || s.inUse (i / 8)) && !s.islLost (srcIsl i)

/-- The rail a source is masked with (R292): its own channel, channel HS for 1,034 to 1,036, else the tie of FLT_SWIN. -/
def Flt.tieOf (f : Flt) (i : Nat) : Option Nat :=
  if i < 1024 then some (i / 8)
  else if 1034 ≤ i ∧ i ≤ 1036 then some HS
  else
    let t := fld (f.winOf i) 16 16
    if t = 0xFFFF then none else some (t % 256)

/-- The origin of the masking of a source for an event at `stamp`, none where it is not masked (R292, R293). -/
def State.maskOf (s : State) (i stamp : Nat) : Option Nat :=
  match s.flt.tieOf i with
  | none => none
  | some r => let c := (s.chan r).rail; c.mask.filter fun _ => decide (c.maskAt < stamp)

/-- Grace time of a level in ticks (R284). -/
def Flt.graceOf (f : Flt) (lev : Nat) : Nat :=
  match lev with
  | 1 => fld f.grace0 0 16 * tMs
  | 2 => fld f.grace0 16 16 * tMs
  | _ => fld f.grace1 0 16 * tMs

/-- The level an event of the source is reported at: its current level, at least MINOR for a channel source of the DZ-32
(R276, R290). -/
def State.evLevel (s : State) (i : Nat) : Nat :=
  let l := s.flt.level i
  if s.hw.variant == .dz32 && isChSrc i then max l 1 else l

/-- An event reported at `lev` leaves its marks on the source: PEND, EVENTS, the last level and stamp, and its grace timer
(R278, R284, R285). `react` says whether a grace timer applies (R290). -/
def Flt.markSrc (f : Flt) (x : Src) (i lev stamp : Nat) (react : Bool) : Src :=
  let c := f.cfgOf i
  let starts := react && decide (fld c 4 3 ≠ 0) && decide (fld c 8 2 ≤ lev) && decide (1 ≤ lev)
  let t := stamp + f.graceOf lev
  { x with
    last := some stamp
    evAt := some stamp
    lastLev := lev
    decayAt := stamp + f.tWin i
    pend := x.pend || decide (1 ≤ lev)
    pendAt := if x.pend then x.pendAt else stamp
    events := if 1 ≤ lev then incTo 0xFFFF x.events else x.events
    ack := x.ack && !starts
    grace := if starts then some (match x.grace with | some g => min g t | none => t) else x.grace }

/-- Counting toward classification (R276): a closed window opens again, the count reaches N and promotes. -/
def Flt.classify (f : Flt) (i stamp : Nat) : Src :=
  let x := f.src i
  let c := f.cfgOf i
  let fresh := decide (x.cnt = 0) || decide (x.openAt + f.tWin i < stamp)
  let n := (if fresh then 0 else x.cnt) + 1
  let full := decide (n = fld c 16 8)
  { x with
    openAt := if fresh then stamp else x.openAt
    cnt := if full then 0 else n
    up := if full && decide (f.level i < fld c 2 2) then x.up + 1 else x.up }

/-- An event reported at `lev` with the source's new status `x`: log, interrupt bits, eligibility to be the first fault
(R278, R279, R284). -/
def Flt.raise (f : Flt) (x : Src) (i lev stamp kind : Nat) (wire inj react : Bool) : Flt :=
  let x' := f.markSrc x i lev stamp react
  let started := x'.grace.isSome && (f.src i).grace.isNone
  let f := f.logAdd { src := i, kind := kind, level := lev, origin := 0, inj := inj, stamp := stamp }
  { f with
    srcs := tset {} f.srcs i x'
    irq := f.irq.join ((if 1 ≤ lev then 1#32 else 0) ||| (if started then 4#32 else 0) ||| (if wire then 64#32 else 0))
    elig := if 1 ≤ lev ∧ f.rearmAt ≤ stamp then f.elig ++ [{ src := i, level := lev, stamp := stamp, wire := wire }]
            else f.elig }

/-- A decay of the source's level on the tick of its event has not taken place (R306). -/
def Src.unfall (x : Src) (stamp : Nat) : Src :=
  match x.fell with
  | some (t, up) => if t = stamp then { x with up := up, fell := none } else x
  | none => x

/-- The entry of the log that an accepted clear of source `i` made on tick `t`. -/
def FEntry.isClear (e : FEntry) (i t : Nat) : Bool := decide (e.kind = 5) && decide (e.src = i) && decide (e.stamp = t)

/-- An event of a source on the tick of its decay or of an accepted clear: no decay, and the clear is refused with PRESENT (R306). -/
def Flt.undo (f : Flt) (i stamp : Nat) : Flt :=
  let x := (f.src i).unfall stamp
  match x.cleared with
  | some (t, ack, g) =>
    if t = stamp then
      { f with srcs := tset {} f.srcs i { x with pend := true, ack := ack, grace := g, cleared := none }
               log := f.log.filter fun e => !e.isClear i t, cmdCode := 3, irq := Irq.set f.irq 5 }
    else { f with srcs := tset {} f.srcs i x }
  | none => { f with srcs := tset {} f.srcs i x }

/-- An event of a masked source: logged as consequential, nothing else (R293); a CLR of its tick finds it present (R306). -/
def Flt.conseq (f : Flt) (i origin stamp : Nat) (inj : Bool) : Flt :=
  let f := f.logAdd { src := i, kind := 1, level := f.level i, origin := origin, inj := inj, stamp := stamp }
  { f with irq := Irq.set f.irq 7, srcs := tset {} f.srcs i { f.src i with evAt := some stamp } }

/-- A source event at the leaves: the comparator's own code, and SRC_EVT or CONSEQ (R519). -/
def Cnt.srcEvent (c : Cnt) (i : Nat) (masked : Bool) : Cnt :=
  let all := if masked then 0x24 else 0x23
  c.count (i / 8) (if i % 8 < 3 then [0x20 + i % 8, all] else [all])

/-- A source event is counted where it is a channel's (R519), and the channel is marked for its next COUNT record where a leaf of it
changed (R346). -/
def State.countSrc (s : State) (i : Nat) (masked : Bool) : State :=
  let cnt := s.cnt.srcEvent i masked
  if !isChSrc i then s
  else { s with
    cnt := cnt
    env := if cnt.leaf = s.cnt.leaf then s.env else { s.env with countDirty := tset false s.env.countDirty (i / 8) true } }

/-- In Autumn with AUT_FLT, an event at MINOR or above returns the device to Summer (PWR_POLICY). -/
def Pwr.onEvent (p : Pwr) (lev stamp : Nat) : Pwr :=
  if p.rung == .autumn && wbit p.policy 3 && decide (1 ≤ lev) then
    { p with rung := .summer, entryTs := stamp, irq := Irq.set p.irq 0 }
  else p

/-- An event of source `i` with stamp `stamp` reaches the collector (R276, R278, R284, R290, R292, R293). A source that is not
live raises nothing. Entry to the safe state on the DZ-32 is added where channel events are raised. -/
def State.report (s : State) (i stamp : Nat) (inj : Bool := false) : State :=
  if !s.srcLive i then s
  else
    let m := s.maskOf i stamp
    let f := s.flt.undo i stamp
    let lev := { s with flt := f }.evLevel i
    let s := s.countSrc i m.isSome
    { s with
      flt := match m with
        | some o => f.conseq i o stamp inj
        | none => f.raise (f.classify i stamp) i lev stamp 0 false inj (!(s.hw.variant == .dz32 && isChSrc i))
      bbx := if m.isNone && decide (s.bbx.trigLev ≤ lev) then
               s.bbx.trigger s.now (s.lossHeld stamp) (s.pwr.rung == .autumn) 2 i stamp else s.bbx
      pwr := if m.isNone then s.pwr.onEvent lev stamp else s.pwr }

/-- A wire fault of source `i` (R275): reported at the ceiling level, for a channel source of the DZ-32 at least at MINOR (R290),
not counted toward classification, never masked; WIRE stays set until the pair has read a valid code on two consecutive ticks, which
for an injected one, of two ticks, is three ticks on (R304). -/
def State.reportWire (s : State) (i stamp : Nat) (inj : Bool := false) : State :=
  if !s.srcLive i then s
  else
    let ceil := fld (s.flt.cfgOf i) 2 2
    let lev := if s.hw.variant == .dz32 && isChSrc i then max ceil 1 else ceil
    let f := s.flt.undo i stamp
    let s := s.countSrc i false
    { s with
      flt :=
        f.raise { f.src i with wireEnd := stamp + 3 + (if inj then 0 else Config.wireLen i stamp) } i lev stamp 2 true inj (!(s.hw.variant == .dz32 && isChSrc i))
      bbx := if s.bbx.trigLev ≤ lev then s.bbx.trigger s.now (s.lossHeld stamp) (s.pwr.rung == .autumn) 2 i stamp else s.bbx
      pwr := s.pwr.onEvent lev stamp }

/-- Several sources reported in turn. -/
def State.reports (s : State) (l : List Nat) (stamp : Nat) : State := l.foldl (fun s i => s.report i stamp) s

/-! ## The journal queue (R342 to R344) -/

/-- Lines of a log segment (R340). -/
def segLines : Variant → Nat
  | .dz128 => 1024
  | .dz32 => 256

/-- Log lines. -/
def logLines (v : Variant) : Nat := 92 * segLines v

/-- Log segments in use (R344): those touched by the records above the checkpoint's BASE, which fill the lines before the
next one. -/
def State.segUsed (s : State) : Nat :=
  let n := s.env.jseq - s.env.base
  let l := segLines s.hw.variant
  let inLast := (s.env.jline + logLines s.hw.variant - 1) % l + 1
  if n = 0 then 0 else min 92 (1 + ceilDiv (n - inLast) l)

/-- Record `r` is written before `x`, queued earlier (R343): class by class, as queued within a class, ascending type within
one stamp. -/
def JRec.precedes (r x : JRec) : Bool :=
  decide (r.cls < x.cls)
    || (decide (r.cls = x.cls) && (decide (r.queued < x.queued) || (decide (r.queued = x.queued) && decide (r.typ < x.typ))))

/-- A record put in its place in the queue (R343). -/
def queueIns (r : JRec) : List JRec → List JRec
  | [] => [r]
  | x :: t => if r.precedes x then r :: x :: t else x :: queueIns r t

/-- The control island runs: from S3 on, main clock running, VAUX not collapsed. -/
def State.ctrlUp (s : State) : Bool :=
  s.sys.mainClock && !s.sys.vauxDown &&
    (match s.sys.phase with | .s3 | .s4 | .s5 | .ready | .recovery | .halt => true | _ => false)

/-- The journal has been replayed, so that records can be written: records queued in S3 wait for the end of replay, and in
HALT, which makes none, they stay queued (notes/assumptions/32). -/
def State.storeUp (s : State) : Bool :=
  s.sys.mainClock && !s.sys.vauxDown && (match s.sys.phase with | .s4 | .s5 | .ready | .recovery => true | _ => false)

/-- A line write takes 20 µs (R333). -/
def lineTime : Nat := 20 * tUs

/-- The bank of a line (R335). -/
def bankOf (a : Nat) : Nat := a / 64 % 16

/-- First address of the journal region; its two checkpoint segments come before the log (R336, R340). -/
def jrnlBase : Variant → Nat
  | .dz128 => 0x400000
  | .dz32 => 0x100000

/-- Lines of a checkpoint segment. -/
def ckLines : Variant → Nat
  | .dz128 => 2048
  | .dz32 => 512

/-- Address of log line `i`. -/
def logAddr (v : Variant) (i : Nat) : Nat := jrnlBase v + 128 * ckLines v + 64 * i

/-- Banks are granted at `t`: to a journal record before a host line write, and never while a write is in progress in the bank (R335).
-/
def Env.grant (e : Env) (v : Variant) (t : Nat) : Env :=
  let jBank := e.writing.map fun w => bankOf (logAddr v w.line)
  let aBank := e.acc.map fun o => bankOf o.line
  let aHeld := e.acc.any fun o => o.granted.isSome
  let w := e.writing.map fun w =>
    if w.granted.isSome || (aHeld && decide (jBank = aBank)) then w else { w with granted := some t }
  let jHeld := w.any fun w => w.granted.isSome
  { e with
    writing := w
    acc := e.acc.map fun o => if o.granted.isSome || (jHeld && decide (jBank = aBank)) then o else { o with granted := some t } }

/-- Where no record is being written, the write of the first queued record begins and takes its SEQ and line (R343). A record
queued on the tick a write began, and written before it by R343, takes its place (notes/assumptions/42). -/
def Env.kick (e : Env) (v : Variant) (up : Bool) (now : Nat) : Env :=
  match e.writing, e.queue with
  | none, r :: q =>
    if up then { e with queue := q, writing := some { rec_ := r, seq := e.jseq + 1, line := e.jline, since := now } }.grant v now
    else e
  | some w, r :: q =>
    if w.since = now ∧ r.precedes w.rec_ then { e with queue := w.rec_ :: q, writing := some { w with rec_ := r } } else e
  | _, _ => e

/-- A record is queued, or dropped where the journal is full, raising JRNL_FULL (R344). -/
def State.jrnl (s : State) (r : JRec) : State :=
  let used := s.segUsed
  if (r.cls ≠ 1 ∧ 90 ≤ used) ∨ 92 ≤ used then (s.irqEnv 2).report 1051 s.now
  else { s with env := { s.env with queue := queueIns r s.env.queue }.kick s.hw.variant s.storeUp s.now }

/-- The payload of a record: byte lists at line offsets, cut to bytes 16 to 63. -/
def payloadOf (parts : List (Nat × List Byte)) : List Byte := (lineOf parts).drop 16

/-- Queues a record by class, type, argument, stamp and payload parts (R341, R342), with the stamp it is queued by (R343). -/
def State.recordAt (s : State) (cls typ arg stamp queued : Nat) (parts : List (Nat × List Byte)) : State :=
  s.jrnl { cls := cls, typ := typ, arg := arg, stamp := stamp, queued := queued, payload := payloadOf parts }

/-- Queues a record with the stamp of what it records. -/
def State.record (s : State) (cls typ arg stamp : Nat) (parts : List (Nat × List Byte)) : State :=
  s.recordAt cls typ arg stamp stamp parts

/-! ## Privileged events (R302) -/

/-- Bit of FLT_PRIV_STAT of a WHICH code of FLT_PRIV_FIRST. -/
def privBit (which : Nat) : Nat := which - 1

/-- A privileged event: its bit, and the first since power-on reset. -/
def Flt.privSet (f : Flt) (which stamp : Nat) : Flt :=
  { f with
    priv := Nat.lor f.priv (2 ^ privBit which)
    privNew := Nat.lor f.privNew (2 ^ privBit which)
    privFirst := if wbit f.privFirst 31 then f.privFirst else wpack [(0, 3, which), (31, 1, 1)]
    privTs := if wbit f.privFirst 31 then f.privTs else stamp }

/-- A privileged event sets its bit; where the bit rises and the control island runs, a PRIV record is queued (R342). -/
def State.privEvent (s : State) (which stamp : Nat) : State :=
  let rises := !s.flt.priv.testBit (privBit which)
  let s := { s with flt := s.flt.privSet which stamp }
  if rises && s.ctrlUp then s.record 1 0x07 0 stamp [(16, leBytes 1 which)] else s

/-! ## Time -/

/-- The always-on island's step for one RC period (R27): 3,051 or 3,052 ticks with a mean of 3,051.7578, by a fractional
accumulator of 1/10,000 tick. -/
def rcStep (acc : Nat) : Nat × Nat :=
  let a := acc + 7578
  if 10000 ≤ a then (3052, a - 10000) else (3051, a)

/-- The slew of a follower's timebase over one tick (R412): after every 16 ticks one is added, which is a tick like any other, or one is
omitted, which leaves no trace but in the count, until the error is slewed away (notes/assumptions/130). -/
def Cas.slewTick (c : Cas) : Cas :=
  if c.slew = 0 then c
  else if 0 < c.slew then
    (if c.slewCnt < 16 then { c with slewCnt := c.slewCnt + 1 } else { c with slewCnt := 0, slew := c.slew - 1 })
  else if c.slewCnt < 14 then { c with slewCnt := c.slewCnt + 1 }
  else { c with slewCnt := 0, slew := c.slew + 1 }

/-- The settled tick when the timebase comes to `t`: 1 to 40 ticks behind it, since events of the present tick are still to come, and
never falling (R32, R33). Whatever carries an earlier stamp has been raised at the end of its own tick (R552). -/
def settledNext (old t : Nat) : Nat := max old (t - (1 + Config.settledLag t % 40))

/-- Every event stamped `t` has been delivered: `t` lies at or before the settled tick (R32, R34), and the tick is over. -/
def State.settledBy (s : State) (t : Nat) : Bool := decide (t ≤ s.sys.settled) && decide (t < s.sys.tb)

/-- An RC edge: the always-on island carries the timebase on by one RC period (R27); a main clock that restarts resumes from its value
at the next such edge (R28). -/
def State.rcEdge (s : State) : State :=
  let r := rcStep s.sys.rcAcc
  let t := s.sys.tb + r.1
  { s with sys := { s.sys with tb := t, rcAcc := r.2, settled := settledNext s.sys.settled t } }

/-- A channel on a new tick. -/
def Chan.newTick (c : Chan) : Chan :=
  { c with sense := { c.sense with irq := c.sense.irq.next }, mgn := { c.mgn with irq := c.mgn.irq.next } }

/-- What lasts for one tick only ends with it: the bits that a write of the tick cannot clear (R11), leaves written or overflowed on
it (R522). -/
def State.newTick (s : State) : State :=
  { s with
    sys := { s.sys with irq := s.sys.irq.next }
    chans := tmap {} (fun _ c => c.newTick) s.chans
    seq := { s.seq with irq := s.seq.irq.next, springIrq := s.seq.springIrq.next }
    hs := { s.hs with hvsStat := s.hs.hvsStat.next }
    hld := { s.hld with irq := s.hld.irq.next }
    flt := { s.flt with irq := s.flt.irq.next, privNew := 0, elig := if s.flt.ff.isSome then [] else s.flt.elig }
    wdg := { s.wdg with irq := s.wdg.irq.next }
    env := { s.env with irq := s.env.irq.next }
    bbx := { s.bbx with irq := s.bbx.irq.next }
    cfg := { s.cfg with irq := s.cfg.irq.next }
    cas := { s.cas with irq := s.cas.irq.next }
    mcp := { s.mcp with irq := s.mcp.irq.next }
    sec := { s.sec with irq := s.sec.irq.next }
    pwr := { s.pwr with irq := s.pwr.irq.next }
    gpio := { s.gpio with irq := s.gpio.irq.next, intStat := s.gpio.intStat.next }
    cnt := s.cnt.newTick }

/-- Time passes with no command waiting: one tick of the running timebase, an added one of a slew included (R412), or one RC period
of the carried one (R21, R27). The settled tick follows within its bound (R32, R33) and never falls. In the power-on reset the
timebase stands at 0. -/
def tickPass (s : State) : State :=
  if s.sys.phase == .por then s
  else if s.sys.mainClock then
    let t := s.sys.tb + 1
    let s := s.newTick
    { s with sys := { s.sys with tb := t, settled := settledNext s.sys.settled t, strobe := s.sys.strobe + 1 }
             cas := s.cas.slewTick, env := { s.env with hourPart := s.env.hourPart + 1 } }
  else s.newTick.rcEdge

end Sys2Proof.Machine
end

