-- ==== Sys2Proof/Machine/Hold.lean ====
section
/-! DEFINITION. Shared operations of the hold-up account (07) and of the key permits (14): admission, the drain, reverts of
tentative ledger changes, permits. -/

namespace Sys2Proof.Machine

/-! ## Admission (R250, R251, R252, R236) -/

/-- The input has returned: the input-loss comparator is released and the last 100 HVS0 samples were at or above VIN_OK
(R264). -/
def State.inputReturned (s : State) : Bool := !s.pwr.vinLoss && decide (100 ≤ s.hld.vinOk)

/-- The causes as they follow from the state: ENERGY with its hysteresis, FREE, LOSS after a drain without ride-through, POWER
and LINK; the others are set and cleared where they arise. -/
def State.causesNow (s : State) : Causes :=
  let h := s.hld
  let need := h.eNeed + h.eRsv
  { h.cause with
    energy := if h.eAvail < need then true else if need + fld h.hyst 0 20 ≤ h.eAvail then false else h.cause.energy
    free := decide (nLedger s.hw.variant - h.entries.length ≤ fld h.admCfg 0 14)
    loss := h.cause.loss && !(h.drain.isNone && !h.rideWait && s.inputReturned)
    power := !(s.rst HS == .good && s.rungOk)
    link := !s.mcp.up }

/-- ADMIT frames carrying a state and the groups of rejected OPENs, at most 14 in each (R236, R451). -/
def admFrames : Nat → Bool → Nat → List Nat → List McpFrame
  | 0, o, st, g => [.admState o st g]
  | fuel + 1, o, st, g =>
    if g.length ≤ 14 then [.admState o st g] else .admState o st (g.take 14) :: admFrames fuel o st (g.drop 14)

/-- Ticks after a rejection within which the ADMIT frame of a change of admission names its group (R236). -/
def rejSpan : Nat := 20

/-- Recomputes admission at `stamp`. A change sets ADM_OPEN or ADM_CLOSE and sends an ADMIT frame, which also names the groups rejected
within the last 20 ticks; rejected groups are named in an ADMIT frame at once, whether or not admission changes (R236,
notes/assumptions/132). A close for ENERGY or FREE alone raises ADMISSION_STALL. It opens only where
`mayOpen`. -/
def State.admissionBy (s : State) (mayOpen : Bool) (stamp : Nat) (rejected : List Nat) : State :=
  let c := s.causesNow
  let was := s.hld.admOpen
  let is := c.isOpen && (was || mayOpen)
  let at_ := if was = is then s.hld.admAt else stamp
  let held := s.hld.rejHeld.filter fun e => decide (stamp ≤ e.2 + rejSpan)
  let named := if was = is then rejected else held.map (·.1) ++ rejected
  let h := { s.hld with
    cause := c, admOpen := is, admAt := at_
    rejHeld := held ++ rejected.map fun g => (g, stamp)
    durable := durableOf s.hld.sealed_ s.hld.entries
    irq := if was = is then s.hld.irq else Irq.set s.hld.irq (if is then 1 else 0) }
  let s1 := { s with hld := h }
  let s2 := if was = is ∧ rejected.isEmpty then s1 else s1.mcpSend (admFrames named.length is at_ named)
  let others := c.loss || c.auth || c.host || c.safe || c.power || c.link || c.reset
  if was && (c.energy || c.free) && !others then s2.report 1040 stamp else s2

/-- Admission at `stamp`: on the present tick it only closes, and opens at the tick's end, since a cause that sets keeps it closed where
another one of its stamp clears (R269). -/
def State.admission (s : State) (stamp : Nat) (rejected : List Nat) : State := s.admissionBy (decide (stamp < s.now)) stamp rejected

/-- At the end of a tick admission opens where no cause holds any more; a link that has come UP on it is told how admission stands
(R448). -/
def State.admitTick (s : State) : State :=
  let due := s.mcp.admDue
  let s := { s with mcp := { s.mcp with admDue := false } }
  if s.causesNow.isOpen && !s.hld.admOpen then s.admissionBy true s.now []
  else if due then s.mcpSend [.admState s.hld.admOpen s.hld.admAt []]
  else s

/-- The state with an admission cause changed. -/
def State.setCause (s : State) (f : Causes → Causes) : State := { s with hld := { s.hld with cause := f s.hld.cause } }

/-! ## Reverts (R240, R241) -/

/-- Reverts every tentative change of blocks satisfying `p`: opens are removed, closing marks cleared, pending seals
dropped; admission cause AUTH is set (R240, R250). -/
def Hld.revert (h : Hld) (p : Nat → Bool) : Hld :=
  let hit (o : Option Nat) := match o with | some b => p b | none => false
  let n := (h.entries.filter fun e => hit e.openBlk).length + (h.entries.filter fun e => hit e.closeBlk).length
    + (h.seals.filter fun e => p e.1).length
  { h with
    entries := (h.entries.filter fun e => !hit e.openBlk).map fun e => if hit e.closeBlk then { e with closeBlk := none } else e
    seals := h.seals.filter fun e => !p e.1
    lastRev := n
    cause := { h.cause with auth := true }
    irq := Irq.set h.irq 5 }

/-! ## The start of the gate (R112, R224, R226) -/

/-- The input with role HOLDUP (R112). -/
def State.holdupIdx (s : State) : Nat :=
  ((List.range (nHvs s.hw.variant)).find? fun k => decide ((tget {} s.hs.hvs k).role = 1)).getD 1

/-- The commands of the queue that carry the present tick: up to a READ of several registers, which takes a tick for each (R439). -/
def State.thisTick (s : State) : List Instr :=
  s.pending.takeWhile fun i => match i with | .hmpRead _ len _ => decide (len.toNat ≤ 4) | _ => true

/-- The HOLDUP sample of the present tick: one queued behind, else the latest one taken (R224). -/
def State.holdup (s : State) : Nat :=
  (s.thisTick.findSome? fun i => match i with
    | .hvsSample k c => if k = s.holdupIdx then some (min 4095 c) else none
    | _ => none).getD (tget {} s.hs.hvs s.holdupIdx).code

/-- HSGATE starts to ramp: the capacitance measurement is armed, or skipped where HOLDUP lies at or above V1 (R224, R226). -/
def Hs.capBegin (h : Hs) (holdup : Nat) : Hs :=
  if fld h.capWin 0 12 ≤ holdup then { h with cap := {}, cN := 0, cDv := 0, cOut := 3 }
  else { h with cap := { armed := true }, cN := 0, cDv := 0 }

/-! ## The drain (R259 to R264) -/

/-- Priority of triggers: LOSS, SAFE, RESET, HOST (R259); codes of HLD_LAST_INFO.TRIGGER. -/
def trigRank (t : Nat) : Nat :=
  match t with
  | 1 => 0
  | 3 => 1
  | 4 => 2
  | _ => 3

/-- The trigger recorded of two. -/
def trigMin (a b : Nat) : Nat := if trigRank b < trigRank a then b else a

/-- The payload of a COMMIT record (R342). -/
def commitParts (c : Commit) : List (Nat × List Byte) :=
  [(16, leBytes 4 c.epoch), (20, leBytes 2 c.drained), (22, leBytes 2 c.aborted), (24, leBytes 1 c.trig),
   (25, leBytes 1 c.end_), (26, leBytes 1 (b2n c.ride))]

/-- A drain ends with code `end_` at `stamp` (R262): reverts at FLOOR and LINK, aborts what is left, queues the commit record (R263),
and settles ride-through (R264), which a host off request of the stamp rules out (R269). Where the link was lost on that stamp, the
verdicts of blocks that had arrived by then change nothing any more once they are reverted (R241). A gate that ramps again begins a
capacitance measurement (R224). -/
def State.drainEnd (s : State) (end_ stamp : Nat) : State :=
  match s.hld.drain with
  | none => s
  | some d =>
    let h0 := if (end_ = 2 ∨ end_ = 3) ∧ s.hld.tent ≠ 0 then s.hld.revert fun _ => true else s.hld
    let n := h0.entries.length
    let ride := wbit h0.cfg 23 && d.loss && s.inputReturned && !decide (s.seq.hostOffAt = some stamp)
    let c : Commit := { epoch := durableOf h0.sealed_ h0.entries, drained := d.drained, aborted := n, trig := d.trig
                        end_ := end_, ride := ride, stamp := stamp }
    let gateBack := ride && (s.rst HS).enOn
    let irq := Irq.set h0.irq 3
    let h := { h0 with
      drain := none
      entries := h0.entries.map fun e => { e with aborted := true }
      rideWait := gateBack
      isolated := h0.isolated && (!ride || gateBack)
      cause := { h0.cause with loss := h0.cause.loss && (!ride || gateBack) }
      irq := if n = 0 then irq else Irq.set irq 4 }
    { s with
      hld := h, hs := if gateBack then s.hs.capBegin s.holdup else s.hs
      mcp := if (end_ = 2 ∨ end_ = 3) ∧ s.mcp.lostAt = some stamp then { s.mcp with rxOld := [] } else s.mcp }.record
        1 0x03 0 stamp (commitParts c)

/-- A drain of `trig` begins at `stamp`, or joins the one that runs (R259, R260 step 3). One of the safe state or of an orderly
reset is skipped where the input is lost and the energy does not suffice (R261); one that begins with the link down ends with LINK
(R262, notes/assumptions/13), one with no entry with EMPTY: at the end of the tick, so that what carries its stamp comes first
(R269), or at once where the stamp is past. The DRAIN frame goes out with the tick (`drainFrame`). -/
def State.drainStart (s : State) (trig stamp : Nat) : State :=
  match s.hld.drain with
  | some d =>
    { s with hld := { s.hld with drain := some { d with trig := trigMin d.trig trig, loss := d.loss || decide (trig = 1) } } }
  | none =>
    let h := { s.hld with drain := some { trig := trig, began := stamp, loss := decide (trig = 1) }, irq := Irq.set s.hld.irq 2 }
    let s1 := { s with hld := h }
    if (trig = 3 ∨ trig = 4) ∧ s.pwr.vinLoss ∧ s.hld.eAvail < s.hld.eNeed + s.hld.eRsv then s1.drainEnd 4 stamp
    else if !s.mcp.up then
      (if stamp < s.now then s1.drainEnd 3 stamp
       else { s1 with hld := { s1.hld with drain := s1.hld.drain.map fun d => { d with lost := true } } })
    else if s.hld.entries.isEmpty ∧ stamp < s.now then (s1.mcpSend [.drain trig]).drainEnd 1 stamp
    else s1

/-- At the end of the tick on which a drain begins, its DRAIN frame is sent with the trigger recorded by then (R259, R260 step 3); with
the link down none is (R262). -/
def State.drainFrame (s : State) : State :=
  match s.hld.drain with
  | some d =>
    if d.told then s
    else
      let s := if s.mcp.admDue then s.admitTick else s
      { s with hld := { s.hld with drain := some { d with told := true } } }.mcpSend [.drain d.trig]
  | none => s

/-- The code with which a drain ends on the present tick, over everything that carries its stamp, 0 where it goes on: EMPTY over FLOOR
and LINK, FLOOR over LINK (R262, R269); with the link lost on the stamp it begins, LINK. -/
def State.drainCode (s : State) : Nat :=
  match s.hld.drain with
  | none => 0
  | some d =>
    if s.hld.entries.isEmpty then (if d.lost ∧ d.began = s.now then 3 else 1) else if d.floor then 2 else if d.lost then 3 else 0

/-- At the end of a tick a drain ends for which it has come. -/
def State.drainTick (s : State) : State := if s.drainCode = 0 then s else s.drainEnd s.drainCode s.now

/-- The drain that runs, changed. -/
def Hld.modDrain (h : Hld) (f : Drain → Drain) : Hld := { h with drain := h.drain.map f }

/-! ## Permits (R480, R482, R484) -/

/-- KEYPOLICY entry `i` (SEC_KPOL). -/
def State.kpol (s : State) (i : Nat) : KPol := tget {} s.sec.kpol i

/-- The lifecycle state of LCS bits (R466). -/
def lcsOf (bits : Nat) : Lcs :=
  if bits / 4096 % 16 ≠ 0 then .retired
  else if bits / 256 % 16 ≠ 0 then .returned
  else if bits / 16 % 16 ≠ 0 then .deployed
  else if bits % 16 ≠ 0 then .provisioned
  else .blank

/-- The lifecycle state. -/
def State.lcs (s : State) : Lcs := lcsOf s.sys.taken.lcs

/-- Every condition of R480 but the bits of the index. -/
def State.permitBase (s : State) : Bool :=
  s.lcs == .deployed && (s.sec.dbg == .off || s.sec.dbg == .observe) && s.rungOk && !s.safeNow && !s.wdg.expiredSince
    && !s.flt.priv.testBit 4 && s.mcp.up && s.sys.phase != .recovery && !s.pwr.prepared

/-- The conditions of R479 and R480 that hang on the index's COND word and bits. -/
def State.permitIdx (s : State) (up : Bool) (i : Nat) : Bool :=
  let c := (s.kpol i).cond
  (s.sec.dbg == .off || c.testBit 1) && (s.pwr.rung == .summer || c.testBit 0) && (!c.testBit 2 || up)
    && (!c.testBit 3 || s.cas.st == .leader || s.cas.st == .locked) && (!c.testBit 4 || s.sec.rel.getLsbD i)
    && s.sec.ready.getLsbD i && !s.sec.bad.getLsbD i && !s.sec.held.getLsbD i

/-- A 256-bit map from a list of indices. -/
def mapOf (l : List Nat) : BitVec 256 := l.foldl (fun m i => m ||| BitVec.ofNat 256 (2 ^ i)) 0

/-- The indices whose permit stands: those in key RAM that meet R480. -/
def State.permitMap (s : State) : BitVec 256 :=
  if s.permitBase then
    let up := decide (s.seqCode = 2)
    mapOf ((s.sec.kram.map (·.1)).filter (s.permitIdx up))
  else 0

/-- Indices of a map that has bits only among `l`. -/
def mapIdx (l : List Nat) (m : BitVec 256) : List Nat := l.filter fun i => m.getLsbD i

/-- Permit entries in frames of at most 15. -/
def permitFrames : Nat → List (Nat × Bool) → List McpFrame
  | 0, _ => []
  | _ + 1, [] => []
  | fuel + 1, l => .permit (l.take 15) :: permitFrames fuel (l.drop 15)

/-- Permits whose conditions no longer hold are revoked; their REVOKE entries wait for the end of the tick (R480). -/
def State.permits (s : State) : State :=
  let gone := s.sec.permit &&& ~~~ s.permitMap
  if gone = 0 then s
  else
    { s with sec := { s.sec with
        permit := s.sec.permit &&& ~~~ gone, revoked := s.sec.revoked ||| gone, irq := Irq.set s.sec.irq 1 } }

/-- The end of a tick: permits whose conditions hold are granted, and the tick's entries are sent, REVOKE before GRANT, each GRANT
preceded by its KEYLOAD (R480, R484, R496). -/
def State.permitTick (s : State) : State :=
  let s := s.permits
  let new := s.permitMap &&& ~~~ s.sec.permit
  if new = 0 && s.sec.revoked = 0 then s
  else
    let come := mapIdx (List.range 256) new
    let gone := mapIdx (List.range 256) s.sec.revoked
    let loads := come.map fun i => McpFrame.keyload i (Config.keyWrap s.mcp.key (tget [] s.sec.kram i))
    { s with sec := { s.sec with
        permit := s.sec.permit ||| new, revoked := 0
        irq := if come.isEmpty then s.sec.irq else Irq.set s.sec.irq 0 } }.mcpSend
      (loads ++ permitFrames 36 (gone.map (·, false) ++ come.map (·, true)))

/-- Key RAM is zeroized (R482). -/
def State.zeroize (s : State) : State := { s with sec := { s.sec with kram := [], ready := 0, unwrapping := none } }

/-! ## Ports, their park (R503), boundary scan (R462) -/

/-- Port `p`: 0 A, 1 B, 2 C. -/
def State.port (s : State) (p : Nat) : Port := tget {} s.gpio.ports p

/-- The state with port `p` changed. -/
def State.modPort (s : State) (p : Nat) (f : Port → Port) : State :=
  { s with gpio := { s.gpio with ports := tmod {} s.gpio.ports p f } }

/-- The pins of `bits` change their function at `now`: they are parked for this tick and the next (R503). -/
def Port.park (x : Port) (bits now : Nat) : Port :=
  { x with parkEnd := (List.range 16).foldl (fun t i => if bits.testBit i then tset 0 t i (now + 2) else t) x.parkEnd }

/-- Pin `i` is parked at `now`. -/
def Port.parked (x : Port) (i now : Nat) : Bool := decide (now < tget 0 x.parkEnd i)

/-- Every port pin is parked (R462, R503). -/
def State.parkAll (s : State) : State :=
  (List.range (nGpio s.hw.variant)).foldl (fun s p => s.modPort p fun x => x.park 0xFFFF s.now) s

/-- Boundary-scan instructions that hold the rails down (R155, R462). -/
def JtagIr.holds : JtagIr → Bool
  | .extest | .clamp | .highz => true
  | _ => false

/-- EXTEST, CLAMP or HIGHZ is in effect: it was taken with every rail OFF, and the debug level allows it (R462). -/
def State.scanHolds (s : State) : Bool := s.jtag.ir.holds && (s.sec.dbg == .control || s.sec.dbg == .factory)

/-! ## The debug level, the session -/

/-- The watchdog's service mode follows its conditions (R315): KEY before the first accepted on request, in recovery mode and at
CONTROL or FACTORY. A change discards check-ins and a half-written key pair. -/
def State.wdgMode (s : State) : State :=
  let qa := s.seq.everOn && s.sys.phase != .recovery && !(s.sec.dbg == .control || s.sec.dbg == .factory)
  { s with wdg := if s.wdg.qa = qa then s.wdg else { s.wdg with qa := qa, checked := 0, keyAt := none } }

/-- The debug level becomes `d`; a change sets DBG_CHG (R476), and the service mode of the watchdog follows (R315). A boundary scan
that it ends parks the pins (R503). -/
def State.setDbg (s : State) (d : Dbg) : State :=
  let t := { s with sec := { s.sec with dbg := d, irq := if s.sec.dbg = d then s.sec.irq else Irq.set s.sec.irq 5 } }
  (if s.scanHolds && !t.scanHolds then t.parkAll else t).wdgMode

/-- The open session ends (R445). -/
def State.endSession (s : State) : State :=
  { s with hmp := { s.hmp with session := none }
           mcp := { s.mcp with irq := if s.hmp.session.isSome then Irq.set s.mcp.irq 4 else s.mcp.irq } }

end Sys2Proof.Machine
end

