-- ==== Sys2Proof/Machine/Rung.lean ====
section
/-! DEFINITION. The loss of the MCP link (R241, R456) and the entry to Winter or Midwinter (R491, R492), domain phases (R421)
and equinox counts (R426) on the leader. -/

namespace Sys2Proof.Machine

/-! ## The MCP link goes down -/

/-- The block that is expected to arrive next: behind those that have arrived in full and await their verdict. -/
def Mcp.rxCur (m : Mcp) : Nat := (m.rxNext + (m.rxBytes.filter fun e => decide (512 ≤ e.2)).length) % 0x10000

/-- The block begun last: no byte of a later one has arrived. -/
def Mcp.lastBlk (m : Mcp) : Nat := if tget 0 m.rxBytes m.rxCur = 0 then (m.rxCur + 0xFFFF) % 0x10000 else m.rxCur

/-- A MAC block has begun, and nothing shows that it is complete: fewer than its 512 frame bytes have arrived, or no byte of a later
block, so that its MAC may be missing (R241). -/
def Mcp.openBlk (m : Mcp) (b : Nat) : Bool :=
  let n := tget 0 m.rxBytes b
  decide (0 < n) && (decide (n < 512) || decide (b = m.lastBlk))

/-- A MAC block is unfinished: a frame of it, or its MAC, has not yet arrived (R241). No row tells the arrival of the MAC behind the
last frame: a free value (notes/assumptions/112). -/
def Mcp.unfinished (m : Mcp) (b : Nat) : Bool := m.openBlk b && !(decide (512 ≤ tget 0 m.rxBytes b) && Config.macIn b m.blkAt)

/-- Some block is unfinished. -/
def Mcp.anyUnfinished (m : Mcp) : Bool := m.rxBytes.any fun e => m.unfinished e.1

/-- The link reads DOWN: lanes, key, blocks sent and arriving are gone (R456). -/
def Mcp.drop (m : Mcp) : Mcp :=
  { m with
    link := .down, lanes := 0, keyed := false, key := [], keyEnd := none, opened := []
    rxNext := 0, rxSkip := false, rxBytes := [], rxCut := none, admDue := false
    rxLate := if m.up then some (m.rxCur, tget 0 m.rxBytes m.rxCur) else none
    rxOld := m.rxOld ++ (m.rxBytes.filter fun e => decide (512 ≤ e.2) && !m.unfinished e.1).map (·.1)
    rxNakRow := 0, txNakRow := 0, txNakLast := none, rxNakLast := none
    txNext := 0, unacked := [], waiting := [], lctl := []
    irq := if m.lanes = 0 then m.irq else Irq.set m.irq 2 }

/-- What the loss of the link does to the ledger at `stamp`: unfinished blocks are reverted (R241), a drain that runs ends with
LINK (R262), at the end of the tick where nothing of its stamp comes before (R269). R240 counts a block that fails verification in
NBAD; of one reverted unfinished, or by the end of a drain, the manual does not say: NBAD leaves it out (DESIGN CHOICE,
notes/assumptions/133). -/
def State.linkRevert (s : State) (stamp : Nat) : State :=
  let h := if s.mcp.anyUnfinished then s.hld.revert s.mcp.unfinished else s.hld
  let s := { s with hld := h.modDrain fun d => { d with lost := true }, mcp := { s.mcp.drop with lostAt := some stamp } }
  if stamp < s.now then s.drainEnd 3 stamp else s

/-- The MCP link is lost for reason `why` of R456 at `stamp`: NDOWN, WHY, MCP_LINK, the ledger, admission cause LINK, and every
permit falls (R480). A link test raises no source (R463). -/
def State.mcpGone (s : State) (why stamp : Nat) (quiet : Bool) : State :=
  let s := { s with mcp := { s.mcp with ndown := incTo 0xFFFF s.mcp.ndown, why := why, irq := Irq.set s.mcp.irq 1 } }
  let s := s.linkRevert stamp
  ((if quiet then s else s.report 1043 stamp).admission stamp []).permits

/-- The MCP link is lost. -/
def State.mcpLost (s : State) (why stamp : Nat) : State := s.mcpGone why stamp false

/-! ## Entry to Winter or Midwinter -/

/-- An entry waits for a capture that has not completed and for a reload or run-time replacement (R364, R393). -/
def State.entryWaits (s : State) : Bool := s.cfg.busy || s.bbx.cap.isSome

/-- The addresses an equinox snapshot or a campaign counts: the leader and every device joined and not LOST (R426). -/
def Cas.members (c : Cas) : List Nat := 0 :: (c.devs.filterMap fun e => if e.2.joined && !e.2.lost then some e.1 else none)

/-- The leader counts the equinox outcome of a device, once each; DONE when every joined device has been counted (R426). -/
def Cas.eqxCount (c : Cas) (org : Nat) (ok : Bool) (why : Nat) : Cas :=
  if !c.eqxBusy || tget false c.eqxCounted org then c
  else
    let counted := tset false c.eqxCounted org true
    let all := c.members.all fun a => tget false counted a
    let lower := !wbit c.eqxMiss 31 || decide (org < fld c.eqxMiss 0 12)
    { c with
      eqxCounted := counted
      nOk := if ok then c.nOk + 1 else c.nOk
      nMiss := if ok then c.nMiss else c.nMiss + 1
      eqxMiss := if !ok && lower then wpack [(0, 12, org), (12, 4, why), (31, 1, 1)] else c.eqxMiss
      eqxBusy := !all
      eqxDone := all
      irq := if all then Irq.set c.irq 5 else c.irq }

/-- The device's own equinox outcome: counted on the leader, sent toward it by a follower (R425). -/
def State.eqxReply (s : State) (ok : Bool) (why : Nat) : State :=
  if s.sys.strap then { s with cas := s.cas.eqxCount 0 ok why } else s.casUp (.eqxRep s.cas.addr ok why)

/-- A pending view is dropped with ABORTED, with the counters it has captured (R45, R47, R50). An equinox view so dropped is answered
with RUNG (R425). -/
def State.dropView (s : State) : State :=
  let eqx := (match s.sys.viewReq with | some v => v.eqx | none => false)
    || (match s.sys.shadow with | some v => v.1.eqx | none => false)
  if s.sys.viewReq.isSome || s.sys.shadow.isSome then
    let s1 := { s with
      sys := { s.sys with viewReq := none, shadow := none, viewCode := 5, irq := Irq.set s.sys.irq 1 }
      cnt := { s.cnt with shadow := s.cnt.shadow.filter fun x => decide (x.1 = 0) } }
    if eqx then s1.eqxReply false 2 else s1
  else s

/-! ## Domain phases on the leader (R421) -/

/-- The devices of a domain phase: the leader by its own PHASE, the joined ones by theirs. -/
def State.domDevs (s : State) (p : Nat) (lost : Bool) : List Nat :=
  (if fld s.cas.cfg 1 3 = p ∧ !lost then [0] else [])
    ++ (s.cas.devs.filterMap fun e => if e.2.joined && e.2.lost == lost && decide (e.2.phase = p) then some e.1 else none)

/-- A device has not reported SEQ = OFF. -/
def State.domUp (s : State) (a : Nat) : Bool :=
  if a = 0 then decide (s.seqCode ≠ 0) else decide ((tget {} s.cas.devs a).seq ≠ some 0)

/-- Phase `p` begins: the DOM off frame, the leader's own act tick, the devices waited for. A phase with nothing to wait for ends
at once; after phase 0 the domain off is done. -/
def State.domBegin : Nat → Nat → State → State
  | 0, _, s => s
  | fuel + 1, p, s =>
    let act := s.now + 500
    let wait := (s.domDevs p false).filter s.domUp
    let s := s.casDown (.dom false p act)
    let c := { s.cas with
      nSkip := s.cas.nSkip + (s.domDevs p true).length
      domActs := if fld s.cas.cfg 1 3 = p then s.cas.domActs ++ [(false, act)] else s.cas.domActs }
    if wait.isEmpty then
      (if p = 0 then { s with cas := { c with domPhase := none, domBusy := false, irq := Irq.set c.irq 4 } }
       else State.domBegin fuel (p - 1) { s with cas := c })
    else { s with cas := { c with domPhase := some { phase := p, act := act, waiting := wait } } }

/-- A device leaves the phase in progress, skipped or with its report; the phase ends with its last device. -/
def State.domLeave (s : State) (a : Nat) (skip : Bool) : State :=
  match s.cas.domPhase with
  | none => s
  | some d =>
    if !d.waiting.contains a then s
    else
      let w := d.waiting.erase a
      let c := { s.cas with nSkip := if skip then s.cas.nSkip + 1 else s.cas.nSkip, domPhase := some { d with waiting := w } }
      let s := { s with cas := c }
      if !w.isEmpty then s
      else if d.phase = 0 then { s with cas := { c with domPhase := none, domBusy := false, irq := Irq.set c.irq 4 } }
      else State.domBegin 8 (d.phase - 1) s

/-- A port in link state `l` with nothing outstanding and no row of NAKs; one that was UP and fell counts as fallen until it is UP
again (R272). -/
def CasPort.clear (q : CasPort) (l : PortLink) : CasPort := { link := l, nak := q.nak, err := q.err, fell := q.fell && l != .up }

/-- References that satisfy `p` become LOST with stamp `t` (R160, R417). -/
def Seq.lose (q : Seq) (p : Remote → Bool) (t : Nat) : Seq :=
  { q with remote := tmap {} (fun _ r => if r.valid && p r then { r with state := 4, stamp := t } else r) q.remote }

/-- The lock of a follower ends or begins: its state, and LOCK_CHG (R413). -/
def Cas.setLock (c : Cas) (st : CasSt) : Cas :=
  if c.st = st then c else { c with st := st, irq := if c.st = .locked ∨ st = .locked then Irq.set c.irq 1 else c.irq }

/-- A follower whose up port is down: DOWN, every reference outside its own subtree LOST, the orphan delay runs (R417, R418). -/
def State.upLost (s : State) : State :=
  let c := s.cas.setLock .down
  { s with
    seq := s.seq.lose (fun r => !(tget {} s.cas.devs r.addr).joined) s.now
    cas := { c with goodTimes := 0, slew := 0, subsSent := false
                    orphanEnd := some (s.now + fld s.cas.cfg 24 8 * 10 * tMs) } }

/-- Every cascade port is disabled (R492, step 7): a follower loses its up port. -/
def State.casDisable (s : State) : State :=
  let s := { s with cas := { s.cas with ports := tmap {} (fun _ q => q.clear .disabled) s.cas.ports, todo := [], offer := none } }
  if s.sys.strap || s.cas.st == .down then s else s.upLost

/-- A watchdog expiry has come that is still to be carried out: it goes before the suspension (R332). -/
def State.expiryWaits (s : State) : Bool := s.wdg.run && s.sys.mainClock && decide (s.wdg.start + s.wdg.len ≤ s.now)

/-- Steps 2 to 7 of R492, once nothing holds the entry back. -/
def State.entryReady (s : State) : Bool := s.pwr.entry.isSome && !s.pwr.prepared && !s.entryWaits && !s.expiryWaits

/-- Steps 2 to 7 of R492: the watchdog is suspended with the entry prepared (R311). -/
def State.rungPrepare (s : State) : State :=
  match s.pwr.entry with
  | none => s
  | some r =>
      let s := s.dropView
      let s := { s with wdg := { s.wdg with armed := false }, pwr := { s.pwr with prepared := true } }
      let s := (((s.zeroize.permits).endSession).setDbg .off).linkRevert s.now
      let s := s.admission s.now []
      if r = .midwinter then s.casDisable else s

/-- Entry to rung `r` begins, by a request or by itself (R490, R491); its steps are taken at the end of the tick, once nothing of its
stamp stands against it (R496). -/
def State.rungEnter (s : State) (r : Rung) (asked : Bool) : State :=
  { s with pwr := { s.pwr with entry := some r, prepared := false, asked := asked, woke := none } }

/-- An on request is acted on: an entry that has not taken its steps is given up, a request for it refused with STATE (R496,
notes/assumptions/119). -/
def State.entryYields (s : State) : State :=
  if s.pwr.entry.isNone || s.pwr.prepared then s
  else if s.pwr.asked then { s with pwr := { s.pwr with entry := none, code := 4, irq := Irq.set s.pwr.irq 2 } }
  else { s with pwr := { s.pwr with entry := none } }

/-! ## Waking (R493) -/

/-- Wake of the device by source `src`: exit to the wake rung begins. One that fires while a rung is being entered is kept for the stop
tick (R496). -/
def State.wakeBy (s : State) (src : Nat) : State :=
  let rung := if src = 6 then Rung.summer else if wbit s.pwr.policy 2 then .autumn else .summer
  if s.rungOk then (if s.pwr.entry.isSome then { s with pwr := { s.pwr with woke := some (src, s.now) } } else s)
  else if s.pwr.exit.isSome then s
  else { s with pwr := { s.pwr with exit := some (rung, s.now), wake := src, irq := Irq.set s.pwr.irq 1 } }

/-- A wake source is enabled in the present rung, or in the one being entered. -/
def State.wakeEnabled (s : State) (src : Nat) : Bool :=
  match s.pwr.entry.getD s.pwr.rung with
  | .winter => decide (src = 6) || (decide (1 ≤ src ∧ src ≤ 5) && wbit s.pwr.wakeWinter (src - 1))
  | .midwinter => decide (src = 6) || (decide (1 ≤ src ∧ src ≤ 5 ∧ src ≠ 3) && wbit s.pwr.wakeMid (src - 1))
  | _ => false

/-- An enabled source wakes the device; that of the cascade is a DOM on frame, which is acted on at the exit. -/
def State.wakeEvent (s : State) (src : Nat) : State :=
  if s.wakeEnabled src then
    (if src = 3 ∧ !s.rungOk then { s with pwr := { s.pwr with domOn := true } } else s).wakeBy src
  else s

end Sys2Proof.Machine
end

