-- ==== Sys2Proof/Machine/Safe.lean ====
section
/-! DEFINITION. Entry to the safe state (R294 to R296), events of a channel source (R88, R290), COUNT records (R346). -/

namespace Sys2Proof.Machine

/-! ## Drives of a channel (R84, R86, R87) -/

/-- DIS is wanted while EN is deasserted: the latest sample is at or above V_dis, or DIS_IDLE behaviour applies (R87, R296). -/
def Chan.disWant (c : Chan) (safe : Bool) : Bool :=
  decide (vDis c.sense.act ≤ c.sense.v) || wbit c.ch.cfg 8 || safe

/-- EN is asserted at tick `t`, or 10 ticks after DIS is deasserted (R84). Where the sample that lets a held rail start also ends its
discharge, R182 asks for EN on the next tick and R84 for the 10: the model keeps the 10 (DESIGN CHOICE, notes/assumptions/117). -/
def Sense.enAssert (c : Sense) (t : Nat) : Sense :=
  let e := if c.dis then (if c.disAt ≤ t then t + 10 else t) else max t (c.disAt + 10)
  { c with
    en := true
    enAt := e
    armAt := some e
    dis := false
    disAt := if c.dis then (if c.disAt ≤ t then t else 0) else c.disAt
    nEn := 0 }

/-- EN is deasserted at tick `t`, and DIS asserted where wanted, 10 ticks later (R84). -/
def Sense.enDrop (c : Sense) (t : Nat) (want : Bool) : Sense :=
  { c with
    en := false
    enAt := t
    armAt := none
    ocBlankEnd := none
    dis := want
    disAt := if want then (if c.enAt ≤ t then t + 10 else t) else c.disAt }

/-- DIS follows R87 while EN is deasserted, with the dead time of R84. -/
def Sense.disUpd (c : Sense) (t : Nat) (want : Bool) : Sense :=
  if c.en || c.dis == want then c
  else
    { c with
      dis := want
      disAt := if want then max t (c.enAt + 10) else if c.disAt ≤ t then t else 0 }

/-- DIS of every channel in use brought to R87 at tick `t`. -/
def State.disAll (s : State) (t : Nat) : State :=
  { s with chans := tmap {} (fun n c =>
      if s.inUse n then { c with sense := c.sense.disUpd t (c.disWant s.safeNow) } else c) s.chans }

/-! ## The safe state -/

/-- The level a safe-state report carries: that of the source that entered it; for a privileged event the manual names none, and
the level is free (notes/assumptions/14). -/
def State.safeLevel (s : State) (origin : Nat) : Nat :=
  if origin = 2047 then Config.privLevel % 4 else (s.flt.src origin).lastLev

/-- Entry to the safe state with `stamp`; `origin` is the source that entered it, or 2,047 (R293, R295, R296). While the safe
state holds nothing changes (R297). -/
def State.safeEnter (s : State) (origin stamp : Nat) : State :=
  if s.safeNow then s
  else
    let s := { s with
      flt := { s.flt with safe := some { step := 2, stamp := stamp, origin := origin }, irq := Irq.set s.flt.irq 4 }
      seq := { s.seq with onLatch := none }
      hld := { s.hld with cause := { s.hld.cause with safe := true } } }
    let s := (s.disAll stamp).casUp (.fault s.cas.addr origin (s.safeLevel origin) true stamp)
    let s := (s.bbxTrigger 3 origin stamp).admission stamp []
    (s.drainStart 3 stamp).permits

/-- An event of a channel source: on the DZ-32 an unmasked one enters the safe state with its stamp (R5, R290). -/
def State.chanEvent (s : State) (src stamp : Nat) (inj : Bool := false) : State :=
  let t := s.report src stamp inj
  if s.hw.variant == .dz32 && isChSrc src && s.srcLive src && (s.maskOf src stamp).isNone then t.safeEnter src stamp else t

/-! ## COUNT records (R341, R342, R346, R523) -/

/-- A leaf counter as read: all ones while invalid. -/
def Cnt.leafRead (c : Cnt) (k : Nat) : Nat := if tget false c.inv k then leafMax else tget 0 c.leaf k

/-- The payload of a COUNT record: eight 48-bit leaves. -/
def State.countParts (s : State) (n : Nat) : List (Nat × List Byte) :=
  (List.range 8).map fun j => (16 + 6 * j, leBytes 6 (s.cnt.leafRead (8 * n + j)))

/-- A COUNT record is queued for each channel in use whose leaves changed since its last one; one that is dropped (R344) leaves the
channel marked. -/
def State.countRecords (s : State) (stamp : Nat) : State :=
  s.env.countDirty.foldl (fun s e =>
    if s.inUse e.1 then
      let t := s.record 3 0x08 e.1 stamp (s.countParts e.1)
      if 90 ≤ s.segUsed then t else { t with env := { t.env with countDirty := tset false t.env.countDirty e.1 false } }
    else s) s

end Sys2Proof.Machine
end

