-- ==== Sys2Proof/Machine/Bus.lean ====
section
/-! DEFINITION. The PMBus host (R121, R203, R204, R457 to R461): its queue, its transactions, what they put on the bus, their
outcomes, polls and host pass-through. The command codes are those of PMBus (notes/assumptions/18). -/

namespace Sys2Proof.Machine

/-! ## Command codes -/

/-- OPERATION. -/
def pmbOperation : Nat := 0x01
/-- ON_OFF_CONFIG. -/
def pmbOnOff : Nat := 0x02
/-- CLEAR_FAULTS. -/
def pmbClear : Nat := 0x03
/-- VOUT_COMMAND. -/
def pmbVout : Nat := 0x21
/-- VOUT_MARGIN_HIGH. -/
def pmbHigh : Nat := 0x25
/-- VOUT_MARGIN_LOW. -/
def pmbLow : Nat := 0x26
/-- READ_VOUT, READ_IOUT, READ_TEMPERATURE_1, STATUS_WORD: the polled readings in order. -/
def pmbReads : List Nat := [0x8B, 0x8C, 0x8D, 0x79]
/-- The readings pass-through allows: STATUS_WORD, READ_VIN, READ_VOUT, READ_IOUT, READ_TEMPERATURE_1. -/
def pmbPassReads : List Nat := [0x79, 0x88, 0x8B, 0x8C, 0x8D]

/-! ## The queue (R460) -/

/-- Order of service: set-up and margining, pass-through, polls by channel. -/
def PmbUse.rank : PmbUse → Nat
  | .setup => 0
  | .margin _ _ => 0
  | .pass => 1
  | .poll ch _ => 2 + ch

/-- A transaction put behind those of its rank. -/
def pmbIns (t : PmbTxn) : List PmbTxn → List PmbTxn
  | [] => [t]
  | x :: r => if t.use.rank < x.use.rank then t :: x :: r else x :: pmbIns t r

/-- An idle bus starts the first waiting transaction. -/
def Pmb.start (p : Pmb) (now : Nat) : Pmb :=
  match p.cur, p.queue with
  | none, t :: r => { p with cur := some t, queue := r, startedAt := now, retried := false, retryAt := none }
  | _, _ => p

/-- A transaction that began on the present tick goes back where one of a lower rank has come to wait: work that falls due together is
served in its order (R460, R465). -/
def Pmb.yields (p : Pmb) (now : Nat) : Pmb :=
  match p.cur, p.queue with
  | some c, t :: _ =>
    if t.use.rank < c.use.rank ∧ p.startedAt = now ∧ !p.retried ∧ p.retryAt = none then
      { p with cur := none, queue := (p.queue.takeWhile fun x => decide (x.use.rank < c.use.rank)) ++ c ::
                 p.queue.dropWhile fun x => decide (x.use.rank < c.use.rank) }
    else p
  | _, _ => p

/-- Transactions queued. -/
def Pmb.push (p : Pmb) (ts : List PmbTxn) (now : Nat) : Pmb :=
  (({ p with queue := ts.foldl (fun q t => pmbIns t q) p.queue }).yields now).start now

/-- The transaction is a margining one of channel `n`. -/
def PmbTxn.isMargin (t : PmbTxn) (n : Nat) : Bool := match t.use with | .margin c _ => c == n | _ => false

/-- Margining transactions of a channel that wait are replaced by new ones. -/
def Pmb.margin (p : Pmb) (n : Nat) (ts : List PmbTxn) (now : Nat) : Pmb :=
  ({ p with queue := p.queue.filter fun t => !t.isMargin n }).push ts now

/-- A transaction of a channel: to its bound device and page (R120). -/
def Chan.pmbTxn (c : Chan) (cmd : Nat) (data : Option Nat) (use : PmbUse) : PmbTxn :=
  { dev := fld c.ch.pmb 0 5, page := fld c.ch.pmb 8 8, cmd := cmd, data := data, use := use }

/-- The transaction that writes OPERATION for channel `n`; steps: 2 a corner, 3 nominal, 4 nominal after a failure. -/
def Chan.pmbOp (c : Chan) (n step data : Nat) : PmbTxn :=
  c.pmbTxn pmbOperation (some data) (.margin n step)

/-! ## On the bus (R120, R457) -/

/-- The device's option `k` of R457: 0 FAST, 1 NOPEC, 2 PAGED, 3 OOC. -/
def Pmb.option (p : Pmb) (dev k : Nat) : Bool := wbit (tget 0 p.devs dev) (8 + k)

/-- A message with its PEC, the SMBus CRC-8, unless the device takes none. -/
def Pmb.withPec (p : Pmb) (dev : Nat) (bs : List Byte) : List Byte := if p.option dev 1 then bs else bs ++ [pec8 bs]

/-- Data bytes of a command: none of CLEAR_FAULTS, one of OPERATION and ON_OFF_CONFIG, a word of the others. -/
def pmbData (cmd : Nat) : Nat := if cmd = pmbClear then 0 else if cmd = pmbOperation ∨ cmd = pmbOnOff then 1 else 2

/-- The messages the host sends for a transaction: PAGE first, to a PAGED device only, then the command with its address byte and the
data it writes; a reading is the command, a repeated start and the address with the read bit. -/
def Pmb.messages (p : Pmb) (t : PmbTxn) : List (List Byte) :=
  let at_ := fld (tget 0 p.devs t.dev) 0 7
  let b (n : Nat) : Byte := BitVec.ofNat 8 n
  let page := if p.option t.dev 2 then [p.withPec t.dev [b (2 * at_), 0x00#8, b t.page]] else []
  let head := [b (2 * at_), b t.cmd]
  match t.data with
  | some d => page ++ [p.withPec t.dev (head ++ leBytes (pmbData t.cmd) d)]
  | none => page ++ [if t.cmd = pmbClear then p.withPec t.dev head else head ++ [b (2 * at_ + 1)]]

/-- The bus clock of a transaction, kHz. -/
def Pmb.clockKHz (p : Pmb) (t : PmbTxn) : Nat := if p.option t.dev 0 then 1000 else 400

/-! ## Outcomes (R121, R203, R204, R459, R461) -/

/-- A reading of a poll is stored (R121). -/
def Sense.pollStore (c : Sense) (k data : Nat) : Sense :=
  let lo (w : Word) := wpack [(0, 16, data), (16, 16, fld w 16 16)]
  let hi (w : Word) := wpack [(0, 16, fld w 0 16), (16, 16, data)]
  match k with
  | 0 => { c with pmbVi := lo c.pmbVi }
  | 1 => { c with pmbVi := hi c.pmbVi }
  | 2 => { c with pmbTs := lo c.pmbTs }
  | _ => { c with pmbTs := hi c.pmbTs, irq := if data = 0 then c.irq else Irq.set c.irq 6, polling := false }

/-- A margining transaction completed: HELD after the corner, NOMINAL after the return, unless newer ones of the channel wait. -/
def Margin.pmbDone (m : Margin) (step : Nat) (more : Bool) : Margin :=
  if more then m
  else
    match step with
    | 2 => if m.st = .moving then { m with st := .held, irq := Irq.set m.irq 0 } else m
    | 3 | 4 => if m.st = .nominal then m else { m with st := .nominal, campHold := m.campHold && decide (m.campCmd ≠ 0) }
    | _ => m

/-- The data bytes of a transaction, PAGE included where the device is PAGED (R457, R528). -/
def Pmb.bytesOf (p : Pmb) (t : PmbTxn) : Nat :=
  b2n (p.option t.dev 2) + pmbData t.cmd

/-- The transaction in progress has completed with `data`. -/
def State.pmbOk (s : State) (t : PmbTxn) (data : Nat) : State :=
  let s := { s with pmb := { s.pmb with cur := none } }.tpAdd 2 (s.pmb.bytesOf t) 1 0
  match t.use with
  | .setup => s
  | .margin n step =>
    let more := s.pmb.queue.any (·.isMargin n)
    s.modChan n fun c => { c with mgn := c.mgn.pmbDone step more }
  | .pass =>
    { s with pmb := { s.pmb with busy := false, code := 0, data := if t.data.isNone && t.cmd ≠ pmbClear then data else s.pmb.data }
             mcp := { s.mcp with irq := Irq.set s.mcp.irq 5 } }
  | .poll n k => s.modChan n fun c => { c with sense := c.sense.pollStore k data }

/-- The transaction in progress has failed for the second time, for reason `why`: PMBUS is raised and the failure recorded
(R459). -/
def State.pmbGiveUp (s : State) (t : PmbTxn) (why : Nat) : State :=
  let s := ({ s with
    pmb := { s.pmb with
      cur := none
      lastErr := wpack [(0, 5, t.dev), (8, 8, t.cmd), (16, 3, why), (31, 1, 1)] }
    mcp := { s.mcp with irq := Irq.set s.mcp.irq 6 } }).report 1054 s.now
  match t.use with
  | .setup => s
  | .margin n step =>
    if step = 4 then s.modChan n fun c => { c with mgn := c.mgn.pmbDone 4 false }
    else
      let c := s.chan n
      let s := s.modChan n fun c => { c with mgn := { c.mgn with code := 7 } }
      { s with pmb := s.pmb.margin n [c.pmbOp n 4 0x80] s.now }
  | .pass => { s with pmb := { s.pmb with busy := false, code := 6 }, mcp := { s.mcp with irq := Irq.set s.mcp.irq 5 } }
  | .poll n k => if k = 3 then s.modChan n fun c => { c with sense := { c.sense with polling := false } } else s

/-- The transaction in progress fails: it is tried once more after 100 µs, or given up. Every failure counts
(notes/assumptions/19). -/
def State.pmbFail (s : State) (why : Nat) : State :=
  match s.pmb.cur with
  | none => s
  | some t =>
    let s := s.tpAdd 2 0 0 1
    let p := { s.pmb with nFail := incTo 0xFFFF s.pmb.nFail }
    if p.retried then
      let s := ({ s with pmb := p }).pmbGiveUp t why
      { s with pmb := s.pmb.start s.now }
    else { s with pmb := { p with retryAt := some (s.now + 100 * tUs) } }

/-- WHY codes of LNK_PMB_LASTERR. -/
def pmbWhy : PmbEnd → Nat
  | .addrNack => 1
  | .dataNack => 2
  | .badPec => 3
  | _ => 5

/-- The transaction on the bus ends. -/
def State.pmbEnds (s : State) (res : PmbEnd) (data : Nat) : State :=
  match s.pmb.cur with
  | none => s
  | some t =>
    if s.pmb.retryAt.isSome || !s.running then s
    else
      match res with
      | .ok => let s := s.pmbOk t data; { s with pmb := s.pmb.start s.now }
      | e => s.pmbFail (pmbWhy e)

/-- A PMBus transaction ends. -/
def execPmbusTransactionDone (res : PmbEnd) (data : BitVec 16) (s : State) : Host.Outcome State Fault Refusal :=
  .next (s.pmbEnds res data.toNat)

/-- The second attempt begins, 100 µs after the first failure (R459). -/
def State.pmbAgain (s : State) : State :=
  match dueAt s.pmb.retryAt s.now with
  | some t => if s.running then { s with pmb := { s.pmb with retryAt := none, retried := true, startedAt := t } } else s
  | none => s

/-- The 100 µs after a failure have passed. -/
def execPmbusRetry (s : State) : Host.Outcome State Fault Refusal := .next s.pmbAgain

/-- SCL has been held low for 25 ms: the transaction fails (R459). -/
def execPmbusStretchTimeout (s : State) : Host.Outcome State Fault Refusal :=
  .next (if s.running && s.pmb.retryAt.isNone && s.pmb.cur.isSome && decide (s.pmb.startedAt + 25 * tMs ≤ s.now) then s.pmbFail 4
         else s)

/-! ## Polls (R121, R460) -/

/-- The poll of a channel falls due; one that finds the previous poll unfinished is skipped. Nothing is polled where POLL is 0, on a
channel that has no PMBus device, or while a load replaces either. -/
def State.pmbPoll (s : State) (n : Nat) : State :=
  let c := s.chan n
  match dueAt c.sense.pollNext s.now with
  | some t =>
    if s.running && s.inUse n && s.sys.phase == .ready && wbit c.ch.cfg 11 && decide (fld c.ch.pmb 16 8 ≠ 0) then
      let next := some (t + fld c.ch.pmb 16 8 * tMs)
      if c.sense.polling then
        { s.modChan n (fun c => { c with sense := { c.sense with pollNext := next } }) with
          pmb := { s.pmb with skip := incTo 0xFF s.pmb.skip } }
      else
        { s.modChan n (fun c => { c with sense := { c.sense with pollNext := next, polling := true } }) with
          pmb := s.pmb.push ((List.range 4).map fun k => c.pmbTxn (pmbReads.getD k 0) none (.poll n k)) s.now }
    else s
  | none => s

/-- The poll of channel `ch` falls due. -/
def execPmbusPoll (ch : Nat) (s : State) : Host.Outcome State Fault Refusal := .next (s.pmbPoll ch)

/-! ## Pass-through (R461) -/

/-- Every channel bound to the device has margin state NOMINAL and no probe in progress. -/
def State.pmbQuiet (s : State) (dev : Nat) : Bool :=
  s.chans.all fun e => !(wbit e.2.ch.cfg 0 && wbit e.2.ch.cfg 11 && decide (fld e.2.ch.pmb 0 5 = dev))
    || (e.2.mgn.st == .nominal && e.2.prb.phase == .idle)

/-- LNK_PMB_CMD.GO from a session of level `l`. The page a PAGED device is given is a free value (notes/assumptions/111). -/
def State.pmbGo (s : State) (l : Level) (dev cmd : Nat) : State :=
  let refuse (c : Nat) := { s with pmb := { s.pmb with code := c } }
  if !l.ge .owner then refuse 1
  else if s.pmb.busy then refuse 2
  else if s.pmb.nDev ≤ dev then refuse 4
  else if !(pmbPassReads.contains cmd || cmd == pmbClear || cmd == pmbVout) then refuse 3
  else if cmd = pmbVout ∧ !s.pmbQuiet dev then refuse 5
  else
    let t : PmbTxn := { dev := dev, page := Config.passPage dev, cmd := cmd, data := if cmd = pmbVout then some s.pmb.data else none, use := .pass }
    { s with pmb := Pmb.push { s.pmb with code := 0, busy := true } [t] s.now }

/-- LNK_PMB_CMD.GO is written. -/
def execLnkPmbGo (dev : BitVec 5) (cmd : BitVec 8) (s : State) : Host.Outcome State Fault Refusal :=
  .next (s.byHost 0xA0064 .user fun l => s.pmbGo l dev.toNat cmd.toNat)

end Sys2Proof.Machine
end

