-- ==== Sys2Proof/Machine/Rail.lean ====
section
/-! DEFINITION. The sequencer (04, 05): rail transitions with their timers and side effects, the good result, blocking,
spring confirmation and rollback, the frontier, shut-downs and on requests, and what settles after each command. -/

namespace Sys2Proof.Machine

/-! ## Order of the rails -/

/-- Rails placed one by one: each time the lowest one whose local predecessors are all placed. -/
def topoGo (preds : Nat → List Nat) : Nat → List Nat → List Nat → List Nat
  | 0, rem, acc => acc ++ rem
  | fuel + 1, rem, acc =>
    match rem.find? fun r => (preds r).all fun p => isRemote p || acc.contains p with
    | none => acc ++ rem
    | some r => topoGo preds fuel (rem.erase r) (acc ++ [r])

/-- The rails, predecessors first: the order in which the happenings of one stamp are taken (notes/assumptions/15). -/
def State.topo (s : State) : List Nat := topoGo s.preds s.rails.length s.rails []

/-- Latest voltage sample below V_dis; for channel HS the condition counts as met (R134). -/
def State.below (s : State) (r : Nat) : Bool :=
  decide (r = HS) || decide ((s.chan r).sense.v < vDis (s.chan r).sense.act)

/-! ## The transition log (R164, R550) -/

/-- Appends an entry, or drops it when 512 are held. -/
def Seq.tlogAdd (q : Seq) (e : TEntry) : Seq :=
  if q.tlog.length < 512 then { q with tlog := q.tlog ++ [e] } else { q with tlogOvf := true, irq := Irq.set q.irq 7 }

/-- CAUSE of a transition in a shut-down, by its REQ_SRC (line 3 of R550). -/
def shutCause (src : Nat) : Nat :=
  match src with
  | 0 => 1
  | 2 => 8
  | 3 => 2
  | 4 => 4
  | 5 => 5
  | 6 => 9
  | _ => 1

/-- CAUSE of a transition taken on an on request, by its REQ_SRC (line 4 of R550). -/
def onCause (src : Nat) : Nat :=
  match src with
  | 0 => 1
  | 1 => 0xA
  | 2 => 8
  | _ => 2

/-- CAUSE of a rail in the shut-down it is in. -/
def State.causeOf (s : State) (r : Nat) : Nat := shutCause ((s.chan r).rail.shut.getD 0)

/-! ## One transition (R130, R131, R135, R182) -/

/-- EN is asserted afresh by the transition. -/
def asserts (old new : RailState) : Bool := new.enOn && !old.enOn

/-- The rail record after a transition into `new` with `stamp`; EN was asserted at `enAt`. -/
def Rail.enter (x : Rail) (c : RailCfg) (hs : Bool) (new : RailState) (stamp enAt : Nat) (below : Bool) : Rail :=
  let rolled := if x.state = .spring ∧ !new.enOn then true
    else x.rolled && !(new.enOn || new == .off || new == .retryWait || new == .waiting)
  { x with
    state := new
    since := stamp
    goodAt := if new = .good then stamp else x.goodAt
    due := none
    startEnd := if asserts x.state new then some (enAt + tStart c)
                else if new = .ramping ∨ new = .qualifying then x.startEnd else none
    qualEnd := if new = .qualifying then some (stamp + tQual c) else none
    disEnd := if new = .discharging ∧ !hs then some (stamp + tDis c) else none
    retryEnd := if new = .retryWait then some (stamp + tRetry c) else none
    dglEnd := none
    specEnd := if new = .spring then some (enAt + tSpec c) else none
    attempt := if new = .retryWait then incTo 15 x.attempt else x.attempt
    dto := if new = .waiting then false else x.dto || decide (new = .dischargeTimeout)
    blockBy := if x.state = .blocked then 0xFFFF else x.blockBy
    rolled := rolled
    hold := if x.state = .spring ∧ !new.enOn then !below else x.hold && rolled
    timed := false
    mask := if new = .waiting then none else x.mask }

/-- The drives after a transition: EN and DIS with their dead time, OC blanking counted from the assertion of EN. -/
def Chan.drive (c : Chan) (new : RailState) (stamp : Nat) (safe : Bool) : Sense :=
  if asserts c.rail.state new then
    let x := c.sense.enAssert stamp
    { x with ocBlankEnd := if tBlank c.ch = 0 then none else some (x.enAt + tBlank c.ch) }
  else if c.rail.state.enOn && !new.enOn then c.sense.enDrop stamp (c.disWant safe)
  else c.sense

/-- The probe measures or returns: its baseline, step or return runs. -/
def Probe.running (p : Probe) : Bool := p.phase == .baseline || p.phase == .step || p.phase == .ret

/-- A probe is in progress and not yet aborted. -/
def Probe.live (p : Probe) : Bool := (p.running || p.phase == .fit) && !p.aborting

/-- The records of a probe that ends with `outcome`, its return still to run where `walk` says so. -/
def Probe.stop (p : Probe) (outcome : Nat) (walk : Bool) : Probe :=
  { p with phase := if walk then .ret else .idle, outcome := outcome, aborting := walk
           recV := [], recI := [], baseV := [], baseI := [] }

/-- Walk period of a channel in ticks (RATE, R196). -/
def Chan.walk (c : Chan) : Nat := fld c.ch.mgnCfg 16 8 * tUs

/-- A probe in progress is aborted with `why` (4 BAND, 5 ABORTED): a code that stands is walked back under R196 (R216). -/
def Chan.probeAbort (c : Chan) (why stamp : Nat) : Chan :=
  if c.prb.live then
    { c with
      prb := c.prb.stop why c.sense.trimOn
      mgn := { c.mgn with irq := Irq.set c.mgn.irq 4, goal := 0, nextAt := stamp + c.walk } }
  else c

/-- The probe of a rail that leaves GOOD: aborted, its code released at once (R200, R216). -/
def Probe.leave (p : Probe) : Probe :=
  if p.live then p.stop 5 false else if p.running then p.stop p.outcome false else p

/-- The margin of a rail that leaves GOOD at `stamp`: NOMINAL at once, with no walk back, CODE = ABORTED where the channel was engaged
(R200); a request accepted on that stamp counts as refused with STATE after it (R223). CLAMPED is cleared with the target it belongs to
(DESIGN CHOICE, notes/assumptions/107). -/
def Margin.leave (m : Margin) (p : Probe) (stamp : Nat) : Margin :=
  let eng := !(m.st == .nominal)
  let late := decide (m.reqAt = some stamp)
  let irq := if p.live then Irq.set m.irq 4 else m.irq
  { m with
    st := .nominal, clamped := m.clamped && !eng, goal := 0, inband := 0
    code := if late then 2 else if eng || p.running then 8 else m.code
    campHold := m.campHold && decide (m.campCmd ≠ 0)
    irq := if late then Irq.set irq 2 else irq }

/-- The channel after its rail's transition. -/
def Chan.move (c : Chan) (hs : Bool) (new : RailState) (stamp : Nat) (safe below : Bool) : Chan :=
  let x := if hs then c.sense else c.drive new stamp safe
  let enAt := if hs then stamp else x.enAt
  let leaves := decide (c.rail.state = .good ∧ new ≠ .good)
  { c with
    rail := c.rail.enter c.rcfg hs new stamp enAt below
    sense := if leaves then { x with trimOn := false, trim := 0 } else x
    mgn := if leaves then c.mgn.leave c.prb stamp else c.mgn
    prb := if leaves then c.prb.leave else c.prb }

/-- Leaf events of a transition (R519); the assertion of EN has an event of its own (`armDue`). -/
def moveEvents (new : RailState) : List Nat :=
  (if new = .good then [0x11] else [])
    ++ (if new = .failed then [0x12] else []) ++ (if new = .dischargeTimeout then [0x13] else [])
    ++ (if new = .retryWait then [0x14] else [])

/-- Leaf events counted in turn. -/
def State.counts (s : State) (n : Nat) (l : List Nat) : State := l.foldl (fun s e => s.count n e) s

/-- A RAIL frame to each subscriber of the rail (R416). -/
def State.publish (s : State) (r : Nat) : State :=
  s.cas.pub.foldl (fun s e =>
    if wbit e.2 31 && decide (fld e.2 12 8 = r) then s.casTo (fld e.2 0 12) (.rail (fld e.2 0 12) r (s.pubCode r)) else s) s

/-- An armed comparator raises its event with `stamp` (R88): its interrupt bit, the source, the end of a probe (R216). -/
def State.cmpEvent (s : State) (n : Nat) (k : Cmp) (stamp : Nat) : State :=
  let s := s.modChan n fun c =>
    ({ c with sense := { c.sense with irq := Irq.set c.sense.irq (Cmp.code k) } }).probeAbort 5 stamp
  s.chanEvent (8 * n + Cmp.code k) stamp

/-- A comparator becomes armed at `stamp` while its output is 1 (R89). -/
def State.armRaise (s : State) (n : Nat) (k : Cmp) (stamp : Nat) : State :=
  if (s.chan n).armed s.now k && ((s.chan n).sense.cmp k).out then s.cmpEvent n k stamp else s

/-- The assertion tick of EN has come: it is counted (R519, R520), and OV and OC are armed, and raise their events with its stamp where
their outputs are 1 (R84, R89). -/
def State.armDue (s : State) (n : Nat) : State :=
  match dueAt (s.chan n).sense.armAt s.now with
  | none => s
  | some t =>
    let s := (s.modChan n fun c => { c with sense := { c.sense with armAt := none } }).count n 0x10
    let s := if wbit (s.chan n).sense.pinCfg 9 then s else s.armRaise n .ov t
    s.armRaise n .oc t

/-- Comparators that a transition arms. -/
def State.armMoved (s : State) (n : Nat) (new : RailState) : State :=
  let s := s.armDue n
  if new = .good then s.armRaise n .uv (s.chan n).rail.goodAt else s

/-! ## Channel HS (R116 to R119, R224, R226) -/

/-- A measurement that has not reached V2 is incomplete (R226). -/
def Hs.capBreak (h : Hs) : Hs := if h.cap.armed then { h with cap := {}, cOut := 5 } else h

/-- The breaker trips at `stamp`: the gate goes to HSSRC, and HS_BREAKER is raised (R117, R118). -/
def State.hsTrip (s : State) (stamp : Nat) : State :=
  { s with hs := { s.hs with tripped := true, gateOn := false } }.report 1034 stamp

/-- What a transition of channel HS does to the hot-swap controller. -/
def State.hsMoved (s : State) (old new : RailState) (stamp : Nat) : State :=
  let h := s.hs
  let h := { h with
    tripped := h.tripped && !(new == .off || new == .waiting)
    goodLossAt := if new = .good then h.goodLossAt else none
    gateOn := h.gateOn && new.enOn }
  let h := if (old == .ramping || old == .qualifying) && !(new == .ramping || new == .qualifying) || old.enOn && !new.enOn then
    h.capBreak else h
  let s := { s with hs := h }
  if asserts old new && s.hsGate then
    let s := { s with hs := s.hs.capBegin s.holdup }
    if s.hs.brkOut then s.hsTrip stamp else s
  else s

/-! ## The transition as a whole -/

/-- The sequencer's part of a transition: the log entry, RAIL_FAIL and DTO (R145, R164). -/
def Seq.logMove (q : Seq) (e : TEntry) : Seq :=
  let q := q.tlogAdd e
  if e.new = .failed then { q with irq := Irq.set q.irq 3 }
  else if e.new = .dischargeTimeout then { q with irq := Irq.set q.irq 4 }
  else q

/-- Rail `r` takes the transition into `new` with `stamp`. -/
def State.moveRail (s : State) (r : Nat) (new : RailState) (cause stamp : Nat) : State :=
  let c := s.chan r
  let old := c.rail.state
  let pub := s.pubCode r
  let s1 := { s with
    chans := tset {} s.chans r (c.move (decide (r = HS)) new stamp s.safeNow (s.below r))
    seq := s.seq.logMove { rail := r, old := old, new := new, cause := cause, stamp := stamp } }
  let s2 := s1.counts r (moveEvents new)
  let s3 := if r = HS then s2.hsMoved old new stamp else s2.armMoved r new
  if s3.pubCode r = pub then s3 else s3.publish r

/-- The rail record of `r` changed. -/
def State.modRail (s : State) (r : Nat) (f : Rail → Rail) : State :=
  s.modChan r fun c => { c with rail := f c.rail }

/-! ## Rollback and confirmation (R178, R180) -/

/-- A SPRING rail is rolled back for `why` (3 RB_PRED, 4 RB_TSPEC, 5 RB_SHUT) with CAUSE `cause`. -/
def State.rollback (s : State) (r why cause stamp : Nat) : State :=
  let s := s.moveRail r (if why = 5 then .discharging else .waiting) cause stamp
  let s := s.modRail r fun x => { x with outcome := why }
  let s := { s with seq := { s.seq with
    nRoll := incTo 255 s.seq.nRoll
    springIrq := Irq.set s.seq.springIrq 0
    springLast := wpack [(0, 8, r), (8, 3, why), (31, 1, 1)]
    springLastTs := stamp } }
  s.count r 0x0003

/-- The good result of a rail, channel HS included. -/
def State.goodNow (s : State) (r : Nat) : Bool := (s.chan r).sense.good

/-- A SPRING rail is confirmed at the ready tick (R178). -/
def State.confirm (s : State) (r stamp : Nat) : State :=
  let s := s.moveRail r (if s.goodNow r then .qualifying else .ramping) 0 stamp
  let s := s.modRail r fun x => { x with outcome := 2 }
  { s with seq := { s.seq with nConf := incTo 255 s.seq.nConf, springIrq := Irq.set s.seq.springIrq 1 } }

/-! ## Blocking (R142, R161) -/

/-- CAUSE of a WAITING rail's blocking: that of a remote reference where one of its references is FAILED, else graph (lines 5 and 6 of
R550, of which the first that applies is taken). -/
def State.blockCause (s : State) (r : Nat) : Nat := if (s.preds r).any fun p => isRemote p && s.refBad p then 6 else 0

/-- A WAITING rail is blocked by `ref`; a rail blocked earlier in the stamp keeps the lower reference. The rails blocked afresh. -/
def State.block (s : State) (r ref stamp : Nat) : State × List Nat :=
  if s.rst r == .blocked && decide ((s.chan r).rail.since = stamp) then
    (s.modRail r fun x => { x with blockBy := min x.blockBy ref }, [])
  else if s.rst r == .waiting then
    ((s.moveRail r .blocked (s.blockCause r) stamp).modRail r fun x => { x with blockBy := ref }, [r])
  else (s, [])

/-- Blocking spreads from the rails of a queue: each successor in SPRING is rolled back, then blocked, and its own successors
follow (R142, R179). -/
def State.spread (stamp : Nat) : Nat → List Nat → State → State
  | 0, _, s => s
  | _ + 1, [], s => s
  | fuel + 1, q :: rest, s =>
    let r := (s.succs q).foldl (fun (a : State × List Nat) x =>
      let s1 := if a.1.rst x == .spring then a.1.rollback x 3 3 stamp else a.1
      let b := s1.block x q stamp
      (b.1, a.2 ++ b.2)) (s, [])
    State.spread stamp fuel (rest ++ r.2) r.1

/-- Blocking spreads from one rail. -/
def State.spreadFrom (s : State) (r stamp : Nat) : State := State.spread stamp (s.rails.length + 1) [r] s

/-! ## The frontier (R124, R132, R161) -/

/-- The due tick of a ready WAITING rail, and whether it is the end of its delay: t_g + delay, never before `stamp`
(notes/assumptions/16, 100). Channel HS with no predecessor is ready from its entry to WAITING. -/
def Rail.dueOf (x : Rail) (alone : Bool) (tg d stamp : Nat) : Rail :=
  match x.due with
  | some o => if alone ∨ tg + d ≤ o then x else { x with due := some (tg + d), timed := true }
  | none =>
    if alone then { x with due := some (stamp + d), timed := true }
    else { x with due := some (max (tg + d) stamp), timed := decide (stamp ≤ tg + d) }

/-- A WAITING rail is judged: blocked behind a FAILED or BLOCKED predecessor, due where it is ready, held otherwise. Where both a local
predecessor and a remote reference hold it, BLOCK_BY holds the lower reference (DESIGN CHOICE, notes/assumptions/101). -/
def State.evalRail (s : State) (r stamp : Nat) : State :=
  if s.rst r != .waiting then s
  else
    let ps := s.preds r
    match (ps.filter s.refBad).min? with
    | some ref => ((s.block r ref stamp).1).spreadFrom r stamp
    | none =>
      let d := tDelay (s.chan r).rcfg
      s.modRail r fun x => if s.railReady r then x.dueOf ps.isEmpty (s.readyTick r) d stamp else { x with due := none }

/-- Every WAITING rail is judged, predecessors first. -/
def State.graphPass (s : State) (stamp : Nat) : State := s.topo.foldl (fun s r => s.evalRail r stamp) s

/-- A rail became GOOD: SPRING successors whose predecessors are now all GOOD are confirmed, unless their limit expires in the
same stamp (R184); WAITING ones are judged (R127). -/
def State.advance (s : State) (p stamp : Nat) : State :=
  (s.succs p).foldl (fun s r =>
    if s.rst r == .spring then
      (if s.railReady r && (match (s.chan r).rail.specEnd with | some e => decide (stamp < e) | none => true) then
        s.confirm r stamp else s)
    else s.evalRail r stamp) s

/-! ## The good result (R100, R104, R130, R138, R139, R176) -/

/-- Whether a timer that ends at `d` has not expired at `stamp`. -/
def runsPast (d : Option Nat) (stamp : Nat) : Bool := match d with | some e => decide (stamp < e) | none => true

/-- The good result of rail `r` becomes `g`: GOOD_CHG, and what it does by rail state. A timer whose expiry carries the same
stamp keeps its expiry (R137). -/
def State.setGood (s : State) (r : Nat) (g : Bool) (stamp : Nat) : State :=
  if s.goodNow r = g then s
  else
    let s := s.modChan r fun c => { c with sense := { c.sense with
      good := g, irq := if r = HS then c.sense.irq else Irq.set c.sense.irq 3 } }
    let s := s.count r 0x32
    let x := (s.chan r).rail
    match x.state with
    | .ramping => if g && runsPast x.startEnd stamp then s.moveRail r .qualifying 0 stamp else s
    | .qualifying => if g then s else (s.moveRail r .ramping 0 stamp).count r 0x0001
    | .good =>
      if r = HS then { s with hs := { s.hs with goodLossAt := if g then s.hs.goodLossAt.filter (fun e => decide (e ≤ stamp))
                                                             else some (stamp + 10 * tUs) } }
      else if g then
        (if x.dglEnd.isSome && runsPast x.dglEnd stamp then
          (s.modRail r fun x => { x with dglEnd := none }).count r 0x0002 else s)
      else s.modRail r fun y => { y with dglEnd := some (stamp + tDgl (s.chan r).sense.act) }
    | _ => s

/-- The good result of channel HS as its inputs give it: held at 1 on an isolated GOOD channel HS (R260), else the latest HOLDUP sample,
judged when it was taken, and the gate (R119). -/
def State.hsGoodValue (s : State) : Bool :=
  if s.hld.isolated && s.rst HS == .good then true
  else s.hs.gateOn && s.hs.holdOk

/-- The good result of channel HS brought up to date. -/
def State.hsGood (s : State) (stamp : Nat) : State := s.setGood HS s.hsGoodValue stamp

/-! ## Shut-down (R146 to R148, R151, R153, R292) -/

/-- STOPPING rails whose successors are all OFF or DISCHARGE_TIMEOUT go to DISCHARGING, channel HS on to OFF (R134, R148). -/
def State.stopPass (s : State) (stamp : Nat) : State :=
  s.topo.reverse.foldl (fun s r =>
    if s.rst r == .stopping && (s.succs r).all (fun x => (s.rst x).down) then
      let c := s.causeOf r
      let s := s.moveRail r .discharging c stamp
      if r = HS then s.moveRail r .off c stamp else s
    else s) s

/-- The state a rail of a shut-down rests in: RETRY_WAIT for a rail being retried, else OFF. A rail being retried that is WAITING,
BLOCKED or FAILED below V_dis enters RETRY_WAIT in its one transition, where R158 speaks of its reaching OFF (DESIGN CHOICE,
notes/assumptions/102). -/
def State.restOf (s : State) (r : Nat) : RailState := if (s.chan r).rail.retried then .retryWait else .off

/-- The entry transition of R147 of one rail. -/
def State.shutRail (s : State) (r src stamp : Nat) : State :=
  let mark (s : State) := s.modRail r fun x => { x with shut := some src }
  match s.rst r with
  | .waiting | .blocked | .retryWait => (mark s).moveRail r (s.restOf r) (shutCause src) stamp
  | .ramping | .qualifying | .good => (mark s).moveRail r .stopping (shutCause src) stamp
  | .spring => (mark s).rollback r 5 (shutCause src) stamp
  | .failed => (mark s).moveRail r (if s.below r then s.restOf r else .discharging) (shutCause src) stamp
  | _ => s

/-- A rail of `set` before its entry transition: a retry of its own ends unless this is one (`roots`), and the masking of R292
begins with `origin` where the REQ_SRC calls for it. A rail that is OFF or in DISCHARGE_TIMEOUT already is not retried
(DESIGN CHOICE, notes/assumptions/103). -/
def Rail.shutMark (x : Rail) (root masks : Bool) (origin stamp : Nat) : Rail :=
  { x with
    retried := root && !x.state.down
    mask := if masks && x.mask.isNone then some origin else x.mask
    maskAt := if masks && x.mask.isNone then stamp else x.maskAt }

/-- A shut-down of a set is still being carried out: a rail of it is falling or waits for its retry. -/
def State.actsStill (s : State) (rails : List Nat) : Bool :=
  rails.any fun r => s.rst r == .stopping || s.rst r == .discharging || s.rst r == .retryWait

/-- An off request of set `rails` (none: full) is acted on with `stamp`. While SEQ is OFF it has no effect (R156). -/
def State.shutDown (s : State) (rails : Option (List Nat)) (src origin stamp : Nat) (roots : List Nat) : State :=
  let s := { s with seq := { s.seq with onLatch := if rails.isNone then none else s.seq.onLatch } }
  if s.seqCode = 0 then { s with seq := { s.seq with code := 1 } }
  else
    let set := match rails with
      | none => s.topo
      | some l => let d := s.withDependents l; s.topo.filter d.contains
    let masks := src == 3 || src == 4 || src == 5
    let s := { s with seq := { s.seq with
      code := 0, reqSrc := src, offSinceOn := true, sets := s.seq.sets.filter s.actsStill ++ [set] } }
    let s := set.foldl (fun s r => s.modRail r fun x => x.shutMark (roots.contains r) masks origin stamp) s
    let s := (set.filter fun r => s.rst r == .spring).foldl (fun s r => s.shutRail r src stamp) s
    let s := set.foldl (fun s r => s.shutRail r src stamp) s
    s.stopPass stamp

/-! ## What the sequencer does of itself (R30, R34, R137, R184) -/

/-- The orphan delay makes an off request at its end (R418). -/
def State.orphanOff (s : State) : Bool := s.running && s.cas.st == .down && decide (fld s.cas.cfg 4 2 = 1)

/-- The watchdog counts: it runs, is not suspended by an entry to Winter or Midwinter (R311), and the main clock runs. -/
def State.wdgLive (s : State) : Bool := s.wdg.run && s.sys.mainClock && !s.sys.vauxDown && !s.pwr.prepared

/-- The tick on which the watchdog expires. -/
def State.wdgDue (s : State) : Option Nat := if s.wdgLive then some (s.wdg.start + s.wdg.len) else none

/-- The earliest stamp of reactions that are to come: grace expiries and the SYSTEM_RESET of a watchdog expiry. -/
def State.graceMin (s : State) : Option Nat := (s.flt.expReset.toList ++ s.flt.srcs.filterMap fun e => e.2.grace).min?

/-- What the sequencer does of itself, in the order in which it is taken where stamps are equal: expiries and ends of holds that
raise events, so that a first fault and a reaction of the stamp find them raised (R552), reactions and off requests, which win over
a limit, a retry wait, a qualification and a delay (R137, R184), then these, then on requests (R154). Of expiries that raise events
against a reaction the manual states no order (DESIGN CHOICE, notes/assumptions/99). -/
inductive SeqItem where
  | start | dgl | dis | hsLoss | arm | hold | blank | wdg | key | react | domOff | orphan | spec | retry | qual | delay | latch | domOn
  deriving DecidableEq, Repr

/-- The place of an item in that order. -/
def SeqItem.rank : SeqItem → Nat
  | .start => 0
  | .dgl => 1
  | .dis => 2
  | .hsLoss => 3
  | .arm => 4
  | .hold => 5
  | .blank => 6
  | .wdg => 7
  | .key => 8
  | .react => 9
  | .domOff => 10
  | .orphan => 11
  | .spec => 12
  | .retry => 13
  | .qual => 14
  | .delay => 15
  | .latch => 16
  | .domOn => 17

/-- The first end of a comparator's hold (R108). -/
def Sense.holdMin (x : Sense) : Option Nat := ([x.ov.holdEnd, x.uv.holdEnd, x.oc.holdEnd].filterMap id).min?

/-- The first tick on which no rail was falling any more: the latest stamp of a rail at rest. -/
def State.restAt (s : State) : Nat := (s.rails.map fun r => (s.chan r).rail.since).foldl max 0

/-- The stamp an item of rail `r` acts with, where it runs. A limit yields to a predecessor's start timeout of its stamp, a
qualification to the rail's own (R137, R184); a held rail waits for its sample (R182). -/
def State.itemAt (s : State) (k : SeqItem) (r : Nat) : Option Nat :=
  let x := (s.chan r).rail
  let runs (b : Bool) (d : Option Nat) : Option Nat := if s.running && s.isRail r && b then d else none
  match k with
  | .start => runs (x.state == .spring || x.state == .ramping || x.state == .qualifying) x.startEnd
  | .dgl => runs (x.state == .good && decide (r ≠ HS)) x.dglEnd
  | .dis => runs (x.state == .discharging) x.disEnd
  | .hsLoss => runs (x.state == .good && decide (r = HS)) s.hs.goodLossAt
  | .arm => runs (decide (r ≠ HS)) (s.chan r).sense.armAt
  | .hold => if s.chanRuns r then (s.chan r).sense.holdMin else none
  | .blank => if s.chanRuns r then (s.chan r).sense.ocBlankEnd else none
  | .wdg => s.wdgDue
  | .key => if s.wdgLive then s.wdg.keyAt.map (· + 10 * tUs) else none
  | .react => if s.active then s.graceMin else none
  | .domOff => if s.active then ((s.cas.domActs.filter fun a => !a.1).map (·.2)).min? else none
  | .orphan => if s.orphanOff then s.cas.orphanEnd else none
  | .spec => runs (x.state == .spring) x.specEnd
  | .retry => runs (x.state == .retryWait) x.retryEnd
  | .qual => (runs (x.state == .qualifying) x.qualEnd).filter (runsPast x.startEnd)
  | .delay => runs (x.state == .waiting && !x.hold && s.railReady r) x.due
  | .latch => if s.seq.onLatch.isSome && s.running && !s.falling then some s.restAt else none
  | .domOn => if s.active then ((s.cas.domActs.filter fun a => a.1).map (·.2)).min? else none

/-- The items of a rail; channel HS stands for those of the device. -/
def railItems (r : Nat) : List SeqItem :=
  [.start, .dgl, .dis, .arm, .hold, .blank, .spec, .retry, .qual, .delay]
    ++ if r = HS then [.hsLoss, .wdg, .key, .react, .domOff, .orphan, .latch, .domOn] else []

/-- An item at its stamp comes before stamp `t`, or on it before rank `k`. -/
def itemBefore (d rank t k : Nat) : Bool := decide (d < t) || (decide (d = t) && decide (rank < k))

/-- The first item that comes before stamp `t` and rank `k`, with its rail and stamp. -/
def State.firstItem (s : State) (t k : Nat) : Option (SeqItem × Nat × Nat) :=
  (s.rails.flatMap fun r => (railItems r).filterMap fun i => (s.itemAt i r).map fun d => (i, r, d)).foldl (fun a x =>
    if itemBefore x.2.2 x.1.rank t k && a.all fun y => itemBefore x.2.2 x.1.rank y.2.2 y.1.rank then some x else a) none

/-- Something that raises an event, a reaction or an off request falls due with a stamp up to `t`: it is still to be acted on, and
comes before what the sequencer does of itself on that stamp (R137, R154, R184, R552). -/
def State.eventDue (s : State) (t : Nat) : Bool := (s.firstItem t SeqItem.spec.rank).isSome

/-! ## On requests (R150 to R158, R183, R419, R391) -/

/-- A condition that clears a latched on request holds: the safe state, recovery mode, a boundary scan in effect (R155). -/
def State.onBarred (s : State) : Bool := s.safeNow || s.sys.phase == .recovery || s.scanHolds

/-- An on request of REQ_SRC `src` is refused with HELD. -/
def State.onHeld (s : State) (src : Nat) : Bool :=
  s.onBarred || s.reloading || (decide (src ≤ 1) && wbit s.cas.cfg 0 && !s.sys.strap)

/-- The rail takes its transition on an on request: WAITING below V_dis, else FAILED with NOT_DISCH (R130, R150). -/
def State.onRail (s : State) (r src stamp : Nat) : State :=
  if s.below r then
    (s.modRail r fun x => { x with failWhy := 0, blockBy := 0xFFFF }).moveRail r .waiting (onCause src) stamp
  else
    ((s.modRail r fun x => { x with failWhy := 2 }).moveRail r .failed (onCause src) stamp).spreadFrom r stamp

/-- States an on request moves (R150). -/
def RailState.startable : RailState → Bool
  | .off | .failed | .blocked | .dischargeTimeout => true
  | _ => false

/-- An on request is acted on, with at least one rail to move (R150, R158, R183). -/
def State.onAct (s : State) (src stamp : Nat) (latched : Bool) : State :=
  let order := s.topo.filter fun r => (s.rst r).startable
  let s := s.entryYields
  let s : State := { s with
    seq := { s.seq with
      code := 0, reqSrc := src, onLatch := none, everOn := true, offSinceOn := false
      nEnter := 0, nConf := 0, nRoll := 0
      irq := if latched then Irq.set s.seq.irq 6 else s.seq.irq }
    chans := tmap {} (fun _ c => { c with rail := { c.rail with
      attempt := 0, outcome := if c.rail.state = .spring then c.rail.outcome else 0 } }) s.chans }
  ((order.foldl (fun s r => s.onRail r src stamp) s).graphPass stamp).wdgMode

/-- The word that a command writes to the register at address `a`, whichever port it comes by. -/
def wordTo (i : Instr) (a : Nat) : Option Word :=
  match i with
  | .hmpWrite b n p _ => if b.toNat ≤ a ∧ a < b.toNat + n.toNat then p[(a - b.toNat) / 4]? else none
  | .dbgReg b w d => if w ∧ b.toNat = a then some d else none
  | _ => none

/-- A write of SEQ_CTRL that asks for power-down. -/
def offWord (w : Word) : Bool := wbit w 1 && !wbit w 0

/-- The record being written is the commit record of an input loss without ride-through: its marker makes the off request (R260,
R263). -/
def JRec.lossOff (r : JRec) : Bool :=
  decide (r.typ = 3) && decide (r.payload[8]? = some 1) && decide (r.payload[10]? = some 0)

/-- The command makes a full off request: one of the host that its rights admit, or the marker of an input loss's commit record. -/
def State.hostOff (s : State) (i : Instr) : Bool :=
  let host := (s.writer 0x2000 .user).any fun l => l.ge .operator
  match i with
  | .seqOffRequest => host
  | .hmpWrite .. => host && (wordTo i 0x2000).any offWord
  | .journalRecordAppend => s.env.writing.any fun w => w.rec_.lossOff
  | .dbgReg .. => (wordTo i 0x2000).any offWord && (s.sec.dbg == .control || s.sec.dbg == .factory)
  | _ => false

/-- A command of the queue that begins an orderly reset. -/
def resets : Instr → Bool
  | .resetNFilterExpiry | .casReset .. | .dbgReset => true
  | _ => false

/-- A full off request of a stamp up to `stamp` is still to be acted on that no timer makes: one in the queue, or that of an orderly
reset whose drain has still to end. -/
def State.fullOffDue (s : State) (stamp : Nat) : Bool :=
  decide (s.now ≤ stamp) && (s.sys.pend.isSome || s.thisTick.any fun i => s.hostOff i || resets i)

/-- An off request or a reaction of a stamp up to `stamp` may still be acted on: it comes before an on request of that stamp
(R154). -/
def State.offDue (s : State) (stamp : Nat) : Bool := s.fullOffDue stamp || s.eventDue stamp

/-- An on request that nothing of its stamp precedes any more: latched while a rail falls or another one is latched, acted on where
there is a rail to move (R150, R152, R153). -/
def State.onTake (s : State) (src stamp : Nat) (latched : Bool) : State :=
  if s.falling || (!latched && s.seq.onLatch.isSome) then
    { s with seq := { s.seq with code := 2, onLatch := some (s.seq.onLatch.getD src) } }
  else if s.rails.any fun r => (s.rst r).startable then s.onAct src stamp latched
  else { s with seq := { s.seq with code := 1, onLatch := none } }

/-- An on request is refused (R155), or taken. -/
def State.onJudge (s : State) (src stamp : Nat) (latched : Bool := false) : State :=
  if s.onHeld src then
    { s with seq := { s.seq with
        code := 3, onLatch := if s.onBarred then none else s.seq.onLatch, irq := Irq.set s.seq.irq 5 } }
  else s.onTake src stamp latched

/-- An on request of REQ_SRC `src` with `stamp`: refused, kept until the off requests of its stamp have been acted on (R154), or
taken. -/
def State.onReq (s : State) (src stamp : Nat) (latched : Bool := false) : State :=
  if s.onHeld src then s.onJudge src stamp latched
  else if s.offDue stamp then { s with seq := { s.seq with onWait := s.seq.onWait ++ [(src, stamp)] } }
  else s.onJudge src stamp latched

/-- On requests kept behind off requests of their stamp are looked at again. -/
def State.onResume (s : State) : State :=
  s.seq.onWait.foldl (fun s e => s.onReq e.1 e.2) { s with seq := { s.seq with onWait := [] } }

/-- At the end of a tick nothing of its stamp is to come any more that such a request would wait for. -/
def State.onLast (s : State) : State :=
  s.seq.onWait.foldl (fun s e => s.onJudge e.1 e.2) { s with seq := { s.seq with onWait := [] } }

/-! ## What settles after a command -/

/-- The black box's LOSS_RUNG entry: SEQ became OFF after an input-loss shut-down with the comparator still held (R491). -/
def State.lossRung (s : State) : State :=
  if s.pwr.vinLoss && decide (s.seq.reqSrc = 4) && s.rungOk && s.pwr.entry.isNone then
    match fld s.pwr.policy 0 2 with
    | 2 => s.rungEnter .winter false
    | 3 => s.rungEnter .midwinter false
    | _ => s
  else s

/-- More of the stamp `stamp` is still to come: an item of the sequencer falls due with it, or an on request waits.
SEQ is derived once per tick (R144), so a value that only stands between these is not one it became
(notes/assumptions/41). -/
def State.stampOpen (s : State) (stamp : Nat) : Bool :=
  !s.seq.onWait.isEmpty || (s.firstItem (stamp + 1) 0).isSome

/-- On the DZ-32 a sequence that fails never completes as DEGRADED while the safe state it enters has yet to make its off request
(R143). -/
def State.turnsSafe (s : State) : Bool := s.hw.variant == .dz32 && s.flt.safe.any fun x => decide (x.step < 4)

/-- A change of SEQ_STAT.SEQ: interrupts (R145), COUNT records (R346), the STATE frame toward the leader (R406), LOSS_RUNG. -/
def State.seqChange (s : State) (stamp : Nat) : State :=
  let c := s.seqCode
  if c = s.seq.last || s.stampOpen stamp || (decide (c = 3) && s.turnsSafe) then s
  else
    let irq := match c with
      | 0 => Irq.set s.seq.irq 2
      | 2 => Irq.set s.seq.irq 0
      | 3 => Irq.set s.seq.irq 1
      | _ => s.seq.irq
    let s := { s with seq := { s.seq with last := c, irq := irq } }
    let s := if c = 0 ∨ c = 2 ∨ c = 3 then s.countRecords stamp else s
    let s := s.casUp (.state c)
    if c = 0 then (if s.sys.strap then s.domLeave 0 false else s).lossRung else s

/-- Isolation ends where no drain, ride-through or LOSS holds it and channel HS has left every state with EN asserted
(notes/assumptions/17). -/
def State.isolationEnd (s : State) : State :=
  { s with hld := { s.hld with
    isolated := s.hld.isolated && !(s.hld.drain.isNone && !s.hld.rideWait && !s.hld.cause.loss && !(s.rst HS).enOn) } }

/-- The shut-down of an orderly reset: full, once the drain has ended and its commit record is appended (R77). -/
def State.resetDrive (s : State) (stamp : Nat) : State :=
  let commit (r : JRec) : Bool := decide (r.typ = 3)
  let waits := s.hld.drain.isSome || s.env.queue.any commit || (s.env.writing.any fun w => commit w.rec_)
  let up := s.rsts.any fun x => !(x.down || x == .stopping || x == .discharging)
  if s.sys.pend.isSome && !waits && up then s.shutDown none 6 0 stamp [] else s

/-- The gate is driven while the breaker's output is already 1: the comparator trips as it becomes armed (R117). -/
def State.brkArmed (s : State) (stamp : Nat) : State := if s.hsGate && s.hs.brkOut then s.hsTrip stamp else s

/-- What follows every command within its stamp: the breaker, reactions that have been carried out (R289), the shut-down of an
orderly reset, on requests kept behind off requests, the good result of channel HS, the sequence state, admission and isolation, the
watchdog's mode, permits that fall. -/
def State.settle (s : State) (stamp : Nat) : State :=
  let s := s.brkArmed stamp
  let s := { s with flt := { s.flt with acting := s.flt.acting.filter fun a => s.actsStill a.2 } }
  let s := (((s.resetDrive stamp).onResume).hsGood stamp).seqChange stamp
  let s := ((s.admission stamp []).isolationEnd).hsGood stamp
  s.wdgMode.permits

end Sys2Proof.Machine
end

