-- ==== Sys2Proof/Machine/React.lean ====
section
/-! DEFINITION. The first fault (R279 to R283, R552), the watchdog's expiry (R308 to R313, R327 to R329) and the reactions (R286 to
R289, R157 to R159). -/

namespace Sys2Proof.Machine

/-! ## Register words of the first fault -/

/-- FLT_FF of a latched first fault. -/
def FirstFault.word (f : FirstFault) : Word :=
  wpack [(0, 11, f.src), (12, 2, f.level), (14, 1, b2n (decide (f.coN ≠ 0))), (15, 1, b2n f.wire), (16, 3, f.react), (31, 1, 1)]

/-- FLT_FF_CO of a latched first fault. -/
def FirstFault.coWord (f : FirstFault) : Word := wpack [(0, 11, f.coSrc), (16, 8, f.coN)]

/-- FLT_FF. -/
def Flt.ffWord (f : Flt) : Word := match f.ff with | some x => x.word | none => 0
/-- FLT_FF_CO. -/
def Flt.coWord (f : Flt) : Word := match f.ff with | some x => x.coWord | none => 0
/-- Stamp of the first fault. -/
def Flt.ffStamp (f : Flt) : Nat := match f.ff with | some x => x.stamp | none => 0
/-- FLT_PRIV_WHY. -/
def Flt.privWhy (f : Flt) : Word := wpack [(0, 4, f.selfWhy), (8, 8, f.corr)]

/-! ## The first fault (R279 to R283, R552) -/

/-- The order of R279 among eligible events of one stamp. -/
def Elig.before (a b : Elig) : Bool := decide (b.level < a.level) || (decide (a.level = b.level) && decide (a.src ≤ b.src))

/-- Eligible events of one stamp in the order of R279. -/
def eligIns (e : Elig) : List Elig → List Elig
  | [] => [e]
  | x :: r => if e.before x then e :: x :: r else x :: eligIns e r

/-- The first fault of the earliest stamp among eligible events. -/
def firstOf (l : List Elig) (t : Nat) : Option FirstFault :=
  match (l.filter fun e => decide (e.stamp = t)).foldl (fun a e => eligIns e a) [] with
  | [] => none
  | e :: r => some { src := e.src, level := e.level, wire := e.wire, stamp := t
                     coSrc := (r.head?.map (·.src)).getD 0, coN := min 255 r.length }

/-- A reaction with code `code` was carried out for the first-fault source `src` at `t`: FLT_FF.REACT, and its record (R282). -/
def State.ffReact (s : State) (src code t : Nat) : State :=
  ({ s with flt := { s.flt with ff := s.flt.ff.map fun (x : FirstFault) => { x with react := code } } }).record 1 0x05 0 t
    [(16, leBytes 1 code), (17, leBytes 2 src)]

/-- The reactions already carried out for a first fault of stamp `t` that has just been latched are noted. -/
def State.ffEarly (s : State) (src t : Nat) : State :=
  let early := s.flt.early.filter fun e => decide (e.1 = src) && decide (t ≤ e.2.2)
  early.foldl (fun s e => s.ffReact e.1 e.2.1 e.2.2) { s with flt := { s.flt with early := [] } }

/-- The earliest eligible event is latched once the settled tick has reached its stamp: FF_LATCH, the record, the FAULT frame toward the
leader (R423), the trigger; a reaction already carried out for it is noted behind it. -/
def State.latchFirst (s : State) : State :=
  if s.flt.ff.isSome then s
  else
    match (s.flt.elig.map (·.stamp)).min? with
    | none => s
    | some t =>
      if !s.settledBy t then s
      else
        match firstOf s.flt.elig t with
        | none => s
        | some f =>
          let s := { s with flt := { s.flt with ff := some f, elig := [], irq := Irq.set s.flt.irq 1 } }
          let s := s.record 1 0x04 0 t [(16, leBytes 4 f.word.toNat), (20, leBytes 4 f.coWord.toNat)]
          ((s.casUp (.fault s.cas.addr f.src f.level false t)).bbxTrigger 1 f.src t).ffEarly f.src t

/-! ## Periods and expiry of the watchdog (R308, R311, R313, R318, R327 to R329) -/

/-- One step of the question generator. -/
def qStep (q : Nat) : Nat :=
  let b (i : Nat) := b2n (q.testBit i)
  (2 * q + (b 15 + b 13 + b 12 + b 10) % 2) % 0x10000

/-- The question of the next period: 16 steps on. -/
def qNext (q : Nat) : Nat := (List.range 16).foldl (fun q _ => qStep q) q

/-- A new period starts at `t`: the question advances, check-ins, flags and a half-written pair go, a pending configuration and
then a pending length take effect (notes/assumptions/30). -/
def Wdg.period (w : Wdg) (t : Nat) : Wdg :=
  let cfg := match w.nextCfg with | some c => c.1 | none => w.cfg
  let cfg := if w.pending then (cfg &&& ~~~ 0x1FFF#32) ||| w32 w.nextMs else cfg
  { w with
    cfg := cfg, tasks := (match w.nextCfg with | some c => c.2 | none => w.tasks), nextCfg := none, pending := false
    wdoMs := fld cfg 16 8, start := t, len := fld cfg 0 13 * tMs, opened := false
    q := qNext w.q, checked := 0, flag := 0, dup := 0, keyAt := none, failAt := none }

/-- A WDO pulse begins or begins again (R329); its length is taken as nominal (notes/assumptions/31). -/
def Wdg.pulse (w : Wdg) (now : Nat) : Wdg := { w with wdoEnd := some (now + w.wdoMs * tMs) }

/-- A new period starts at `t`; the values of an image that S5 is still loading, at start-up or in a reload, stay for a period that
begins after READY (R308). -/
def State.wdgPeriod (s : State) (t : Nat) : Wdg :=
  if s.sys.phase == .s5 then { ({ s.wdg with nextCfg := none }).period t with nextCfg := s.wdg.nextCfg }
  else s.wdg.period t

/-- The watchdog expires with stamp `t` (R327): the pulse, WDG_EXP, a new period. With EXP_RESET a SYSTEM_RESET reaction falls due
with the stamp, to be carried out with the others of it (R289, R328, R332). -/
def State.wdgExpire (s : State) (t : Nat) : State :=
  let w := s.wdg
  let reset := wbit w.cfg 24 && s.running
  let s := { s with wdg := { w.pulse t with
    nexp := incTo 255 w.nexp, irq := Irq.set w.irq 3, expAt := some t, expiredSince := true, expEnd := t + w.wdoMs * tMs } }
  let s := s.privEvent 1 t
  let s := { s with wdg := s.wdgPeriod t }
  ({ s with flt := { s.flt with expReset := if reset then some t else s.flt.expReset } }).settle t

/-- A refused write: CODE and REFUSED. -/
def State.wdgRefuse (s : State) (c : Nat) : State :=
  { s with wdg := { s.wdg with code := c, irq := Irq.set s.wdg.irq 2 } }

/-- The 10 µs after a first key write have passed: the pair fails with that stamp (R326). -/
def State.keyEnds (s : State) : State :=
  match s.wdg.keyAt with
  | some t =>
    if t + 10 * tUs ≤ s.now ∧ s.wdgLive then
      let e := t + 10 * tUs
      ((({ s with wdg := { s.wdg with keyAt := none, failAt := some e } }).wdgRefuse 6).report 1056 e).settle e
    else s
  | none => s

/-! ## Reactions (R286 to R289, R157 to R159) -/

/-- A reaction that falls due: its source, its code, its argument. -/
structure Due where
  src : Nat
  code : Nat
  arg : Nat
  deriving DecidableEq, Repr

/-- The channels of a group (R288). -/
def State.group (s : State) (g : Nat) : List Nat :=
  s.rails.filter fun n => decide (n < 128) && wbit (tget 0 s.flt.groups (4 * g + n / 32)) (n % 32)

/-- The set a reaction covers. -/
def State.dueSet (s : State) (d : Due) : List Nat :=
  match d.code with
  | 1 => if isChSrc d.src && s.isRail (d.src / 8) then s.withDependents [d.src / 8] else []
  | 2 => s.withDependents (s.group d.arg)
  | _ => s.rails

/-- A reaction that falls due at `t` is covered by one of equal or greater strength, or by the safe state entered by then (R289, R297,
R306). -/
def State.covered (s : State) (code : Nat) (set : List Nat) (t : Nat) : Bool :=
  s.flt.safe.any (fun x => decide (x.stamp ≤ t)) || s.flt.acting.any fun a => decide (code ≤ a.1) && set.all a.2.contains

/-- A reaction is absorbed (R289): covered, or a retry of a rail that waits for one or belongs to a shut-down set still being carried
out. -/
def State.absorbed (s : State) (d : Due) (t : Nat) : Bool :=
  let set := s.dueSet d
  let n := d.src / 8
  set.isEmpty || s.covered d.code set t
    || (decide (d.code = 1) && (s.rst n == .retryWait || s.seq.sets.any fun l => l.contains n && s.actsStill l))

/-- The log entry of a reaction, carried out or absorbed. -/
def Flt.logReact (f : Flt) (d : Due) (kind t : Nat) : Flt :=
  f.logAdd { src := d.src, kind := kind, level := (f.src d.src).lastLev, origin := d.code, inj := false, stamp := t }

/-- A reaction is noted: REACTED, FLT_REACT_LAST, the log, FLT_FF.REACT and the FF_REACT record (R282, R286, R287). -/
def State.noteReact (s : State) (d : Due) (exh : Bool) (t : Nat) : State :=
  let f := s.flt.logReact d 3 t
  let s := { s with flt := { f with
    irq := Irq.set f.irq 3
    reactLast := wpack [(0, 11, d.src), (11, 1, b2n exh), (12, 3, d.code), (31, 1, 1)], reactTs := t
    early := if f.ff.isNone then f.early ++ [(d.src, d.code, t)] else f.early } }
  if f.ff.any fun x => decide (x.src = d.src) then s.ffReact d.src d.code t else s

/-- The attempts of a retry are used up (R287). -/
def State.exhausted (s : State) (d : Due) : Bool := decide (d.code = 1) && decide (d.arg ≤ (s.chan (d.src / 8)).rail.attempt)

/-- The rails that a set of retries brings back: those not exhausted and not dependent on another of them
(notes/assumptions/29). -/
def State.retryRoots (s : State) (ds : List Due) : List Nat :=
  let l := (ds.filter fun d => decide (d.code = 1) && !s.exhausted d).map fun d => d.src / 8
  l.filter fun r => !l.any fun q => decide (q ≠ r) && (s.withDependents [q]).contains r

/-- The reactions of one stamp that are carried out, all of one code. -/
def State.carryOut (s : State) (ds : List Due) (t : Nat) : State :=
  match ds with
  | [] => s
  | d :: _ =>
    let roots := s.retryRoots ds
    let set := (ds.map s.dueSet).flatten
    let s := ds.foldl (fun s d => s.noteReact d (s.exhausted d) t) s
    let s : State := { s with flt := { s.flt with
      acting := if d.code = 4 then s.flt.acting else s.flt.acting ++ ds.map fun (d : Due) => (d.code, s.dueSet d) } }
    match d.code with
    | 4 => s.safeEnter d.src t
    | 3 => (s.shutDown none 3 d.src t []).onReq 3 t (s.rails.any fun r => (s.rst r).enOn)
    | _ => s.shutDown (some set) 3 d.src t roots

/-- Reactions fall due with stamp `t`: only the strongest is carried out, several of GROUP_OFF or RETRY_RAIL together; the others
are absorbed (R289). -/
def State.react (s : State) (ds : List Due) (t : Nat) : State :=
  let s : State := { s with flt := { s.flt with acting := s.flt.acting.filter fun a => s.actsStill a.2 } }
  let best : Nat := (ds.map Due.code).foldl max 0
  let top := ds.filter fun d => decide (d.code = best) && !s.absorbed d t
  let done := if best = 1 ∨ best = 2 then top else top.take 1
  let s := (ds.filter fun d => !done.contains d).foldl (fun s d => { s with flt := s.flt.logReact d 4 t }) s
  s.carryOut done t

/-- The reactions that fall due with stamp `t`, by source; that of a watchdog expiry has none and stands as 2,047 (R328). -/
def State.dueOf (s : State) (t : Nat) : List Due :=
  (s.flt.srcs.filterMap fun e =>
    if e.2.grace = some t ∧ fld (s.flt.cfgOf e.1) 4 3 ≠ 0 then
      some { src := e.1, code := fld (s.flt.cfgOf e.1) 4 3, arg := fld (s.flt.cfgOf e.1) 12 4 }
    else none) ++ if s.flt.expReset = some t then [{ src := 2047, code := 3, arg := 0 }] else []

/-- The grace timers that expire at `t` end, and their reactions are carried out. -/
def State.graceAt (s : State) (t : Nat) : State :=
  let s := s.latchFirst
  let ds := s.dueOf t
  let s := { s with flt := { s.flt with
    expReset := if s.flt.expReset = some t then none else s.flt.expReset
    srcs := tmap {} (fun _ x => if x.grace = some t then { x with grace := none } else x) s.flt.srcs } }
  (s.react ds t).settle t

end Sys2Proof.Machine
end

