-- ==== Sys2Proof/Machine/Sequence.lean ====
section
/-! DEFINITION. Requests and timers of the sequencer (04, 05). A timer acts at the end of its own tick, with its expiry as its stamp, so
that everything stamped with it has taken effect (R31, R34, R137): by its row as the last command of the tick, or of itself
(notes/assumptions/4). A row before that does nothing. What the sequencer has still to do of earlier stamps is done first (R30). -/

namespace Sys2Proof.Machine

/-! ## What each timer does (R130, R132, R135, R138, R141, R158, R179) -/

/-- The due tick `t` of rail `r`: EN asserted, RAMPING (R132). CAUSE is that of a timer at the end of a delay other than 0, else graph
(R550). -/
def State.railDue (s : State) (r t : Nat) : State :=
  let c := s.chan r
  (s.moveRail r .ramping (if c.rail.timed && !decide (tDelay c.rcfg = 0) then 7 else 0) t).settle t

/-- t_qual ends at `t` with the good result held: GOOD (R138). -/
def State.qualEnds (s : State) (r t : Nat) : State := ((s.moveRail r .good 7 t).advance r t).settle t

/-- A start timeout expires at `t`: FAILED, blocking spreads, START_TIMEOUT is raised (R141, R142). -/
def State.startEnds (s : State) (r t : Nat) : State :=
  let s := (s.modRail r fun x => { x with failWhy := 1 }).moveRail r .failed 7 t
  let s := s.spreadFrom r t
  (if r = HS then s.report 1035 t else s.chanEvent (8 * r + 4) t).settle t

/-- The deglitch timer of a GOOD rail expires at `t`: PG_LOST (R139). -/
def State.dglEnds (s : State) (n t : Nat) : State :=
  ((s.modRail n fun x => { x with dglEnd := none }).chanEvent (8 * n + 3) t).settle t

/-- A retried rail that reached DISCHARGE_TIMEOUT is FAILED, and its OFF dependents are BLOCKED in the same stamp (R158). BLOCK_BY
of such a dependent none of whose own predecessors is FAILED or BLOCKED (one between them stands in DISCHARGE_TIMEOUT) names the
retried rail (DESIGN CHOICE, notes/assumptions/135). -/
def State.retryFails (s : State) (r t : Nat) : State :=
  let s := (s.modRail r fun x => { x with failWhy := 2, retried := false }).moveRail r .failed 2 t
  let deps := s.withDependents [r]
  let s := s.topo.foldl (fun s d =>
    if d ≠ r && deps.contains d && s.rst d == .off then
      let ref := (((s.preds d).filter fun p => deps.contains p && s.refBad p).min?).getD r
      (s.moveRail d .blocked 2 t).modRail d fun x => { x with blockBy := ref }
    else s) s
  s.spreadFrom r t

/-- A discharge timeout expires at `t`: DISCHARGE_TIMEOUT, its source, the shut-down proceeds (R130, R148). -/
def State.disEnds (s : State) (n t : Nat) : State :=
  let retried := (s.chan n).rail.retried
  let s := (s.moveRail n .dischargeTimeout 7 t).chanEvent (8 * n + 5) t
  let s := if retried then s.retryFails n t else s
  (s.stopPass t).settle t

/-- The retry wait ends at `t`: the rail and its OFF dependents enter WAITING (R158). -/
def State.retryEnds (s : State) (n t : Nat) : State :=
  let s := (s.modRail n fun x => { x with retried := false }).moveRail n .waiting 7 t
  let deps := s.withDependents [n]
  let s := s.topo.foldl (fun s d => if d ≠ n && deps.contains d && s.rst d == .off then s.moveRail d .waiting 7 t else s) s
  (s.graphPass t).settle t

/-- The speculation limit expires at `t`: rolled back with RB_TSPEC (R179). -/
def State.specEnds (s : State) (n t : Nat) : State := ((s.rollback n 4 3 t).evalRail n t).settle t

/-- Channel HS has been without its good result for 10 µs at `t`: HS_PG_LOST (R118, R140, R272). -/
def State.hsLossEnds (s : State) (t : Nat) : State :=
  ({ s with hs := { s.hs with goodLossAt := none } }.report 1036 t).settle t

/-- The orphan delay ends at `t`: with ORPHAN = OFF a full off request (R418). -/
def State.orphanEnds (s : State) (t : Nat) : State :=
  let s := { s with cas := { s.cas with orphanEnd := none } }
  if s.orphanOff then (s.shutDown none 2 0 t []).settle t else s

/-- The act tick `t` of a domain phase: its off request (R421). -/
def State.domOffAt (s : State) (t : Nat) : State :=
  ({ s with cas := { s.cas with domActs := s.cas.domActs.filter fun a => a.1 || decide (a.2 ≠ t) } }.shutDown none 2 0 t []).settle t

/-- The act tick `t` of a domain on request (R419). -/
def State.domOnAt (s : State) (t : Nat) : State :=
  ({ s with cas := { s.cas with domActs := s.cas.domActs.filter fun a => !a.1 || decide (a.2 ≠ t) } }.onReq 2 t).settle t

/-- The latched on request is acted on with stamp `t` (R152). -/
def State.latchedOn (s : State) (t : Nat) : State :=
  match s.seq.onLatch with
  | none => s
  | some src => ({ s with seq := { s.seq with onLatch := none } }.onReq src t true).settle t

/-- The hold of comparator `k` ends where it is due: the output takes its live value, and an armed comparator whose held output
was 0 raises its event (R108). -/
def State.holdEnds (s : State) (n : Nat) (k : Cmp) : State :=
  let c := s.chan n
  let x := c.sense.cmp k
  match dueAt x.holdEnd s.now with
  | none => s
  | some t =>
    let s := s.modChan n fun c => { c with sense := c.sense.setCmp k { x with out := x.live, holdEnd := none } }
    if x.live && !x.out && c.armed s.now k then (s.cmpEvent n k t).settle t else s

/-- The holds of a channel end where they are due. -/
def State.holdsEnd (s : State) (n : Nat) : State := ((s.holdEnds n .ov).holdEnds n .uv).holdEnds n .oc

/-- OC blanking ends at `t`: OC is armed, and raises its event where its output is 1 (R88, R89). -/
def State.blankEnds (s : State) (n t : Nat) : State :=
  ((s.modChan n fun c => { c with sense := { c.sense with ocBlankEnd := none } }).armRaise n .oc t).settle t

/-! ## In the order of their stamps (R30, R34, R137, R184) -/

/-- An item acts with stamp `t`. -/
def State.doItem (s : State) (k : SeqItem) (r t : Nat) : State :=
  match k with
  | .start => s.startEnds r t
  | .dgl => s.dglEnds r t
  | .dis => s.disEnds r t
  | .hsLoss => s.hsLossEnds t
  | .arm => (s.armDue r).settle t
  | .hold => s.holdsEnd r
  | .blank => s.blankEnds r t
  | .wdg => s.wdgExpire t
  | .key => s.keyEnds
  | .react => s.graceAt t
  | .domOff => s.domOffAt t
  | .orphan => s.orphanEnds t
  | .spec => s.specEnds r t
  | .retry => s.retryEnds r t
  | .qual => s.qualEnds r t
  | .delay => s.railDue r t
  | .latch => s.latchedOn t
  | .domOn => s.domOnAt t

/-- The settled tick has reached `t` when a decision of that stamp is taken, its events being raised (R34, R552). -/
def State.settleTo (s : State) (t : Nat) : State := { s with sys := { s.sys with settled := max s.sys.settled t } }

/-- An item acts with stamp `t`; one that decides over the events of its stamp finds the tick settled. -/
def State.runItem (s : State) (k : SeqItem) (r t : Nat) : State :=
  (if SeqItem.react.rank ≤ k.rank then s.settleTo t else s).doItem k r t

/-- Items are done in order until none is left before stamp `t` and rank `k`. -/
def State.catchUp (t k : Nat) : Nat → State → State
  | 0, s => s
  | fuel + 1, s =>
    match s.firstItem t k with
    | none => s
    | some (i, r, d) => State.catchUp t k fuel (s.runItem i r d)

/-- Everything that the sequencer has to do before stamp `t` and rank `k` is done; each rail has a few timers to run out. -/
def State.upTo (s : State) (t k : Nat) : State := State.catchUp t k (12 * (s.rails.length + 1)) s

/-- Everything of earlier ticks is done before something happens on the present one. -/
def State.prior (s : State) : State := s.upTo s.now 0

/-- Stamp `t` has nothing more to come but what the sequencer does of itself: its tick is over, or the last command of it runs. -/
def State.lastOf (s : State) (t : Nat) : Bool := decide (t < s.now) || (decide (t = s.now) && s.thisTick.isEmpty)

/-- The end of a timer: it acts with its stamp once that has nothing else to come, after what comes before it. -/
def State.rowEnds (s : State) (k : SeqItem) (r : Nat) : State :=
  match s.itemAt k r with
  | none => s
  | some t =>
    if s.lastOf t then
      let u := s.upTo t k.rank
      if u.itemAt k r = some t then u.runItem k r t else u
    else s

/-- A timer whose expiry wins over what now happens on its tick (R137): it acts at once where it is due. -/
def State.itemNow (s : State) (k : SeqItem) (r : Nat) : State :=
  match dueAt (s.itemAt k r) s.now with
  | none => s
  | some t =>
    let u := s.upTo t 0
    if u.itemAt k r = some t then u.doItem k r t else u

/-- The qualification timer of rail `r` ends. -/
def execQualificationExpiry (r : Nat) (s : State) : Host.Outcome State Fault Refusal := .next (s.rowEnds .qual r)

/-- The start timeout of rail `r` expires. -/
def execStartTimeoutExpiry (r : Nat) (s : State) : Host.Outcome State Fault Refusal := .next (s.rowEnds .start r)

/-- The deglitch timer of channel `ch` expires. -/
def execDeglitchExpiry (ch : Nat) (s : State) : Host.Outcome State Fault Refusal := .next (s.rowEnds .dgl ch)

/-- The discharge timeout of channel `ch` expires. -/
def execDischargeTimeoutExpiry (ch : Nat) (s : State) : Host.Outcome State Fault Refusal := .next (s.rowEnds .dis ch)

/-- The retry wait of channel `ch` ends. -/
def execRetryWaitExpiry (ch : Nat) (s : State) : Host.Outcome State Fault Refusal := .next (s.rowEnds .retry ch)

/-- The speculation limit of channel `ch` expires. -/
def execSpringLimitExpiry (ch : Nat) (s : State) : Host.Outcome State Fault Refusal := .next (s.rowEnds .spec ch)

/-- Channel HS has lost its good result for 10 µs. -/
def execHsGoodLossTimeout (s : State) : Host.Outcome State Fault Refusal := .next (s.rowEnds .hsLoss HS)

/-- A grace timer expires: its reactions are carried out over the events of their stamp (R34, R286). -/
def execGraceExpiry (s : State) : Host.Outcome State Fault Refusal := .next (s.rowEnds .react HS)

/-- The settling hold of channel `ch` ends. -/
def execThresholdHoldEnd (ch : Nat) (s : State) : Host.Outcome State Fault Refusal := .next (s.rowEnds .hold ch)

/-- OC blanking of channel `ch` ends. -/
def execOcBlankEnd (ch : Nat) (s : State) : Host.Outcome State Fault Refusal := .next (s.rowEnds .blank ch)

/-- The due tick of rail `r` (R132): an off request of it wins, whatever makes it (R137). -/
def execRailEnable (r : Nat) (s : State) : Host.Outcome State Fault Refusal := .next (s.rowEnds .delay r)

/-- No rail is falling any more: the latched on request is acted on (R152). -/
def execLatchedOnAct (s : State) : Host.Outcome State Fault Refusal := .next (s.rowEnds .latch HS)

/-- An off request or a reaction of a stamp up to `t` is still to be acted on that takes rail `r` down. -/
def State.railOffDue (s : State) (r t : Nat) : Bool :=
  s.fullOffDue t
    || (s.cas.domActs.any fun a => !a.1 && decide (a.2 ≤ t))
    || (s.orphanOff && s.cas.orphanEnd.any fun e => decide (e ≤ t))
    || (wbit s.wdg.cfg 24 && s.wdgDue.any fun e => decide (e ≤ t))
    || (s.flt.expReset.toList ++ s.flt.srcs.filterMap fun e => e.2.grace).any fun g =>
        decide (g ≤ t) && (s.dueOf g).any fun d => (s.dueSet d).contains r

/-! ## SEQ_CTRL (R149 to R156) -/

/-- A write of SEQ_CTRL by a session of level `l`. -/
def State.seqCtl (s : State) (l : Level) (on off : Bool) : State :=
  if !l.ge .operator then { s with seq := { s.seq with code := 4, irq := Irq.set s.seq.irq 5 } }
  else if on && off then { s with seq := { s.seq with code := 5, irq := Irq.set s.seq.irq 5 } }
  else if on then (s.prior.onReq 0 s.now).settle s.now
  else if off then (({ s.prior with seq := { s.prior.seq with hostOffAt := some s.now } }).shutDown none 0 0 s.now []).settle s.now
  else s

/-- SEQ_CTRL.ON (R150, R152, R155, R156). -/
def execSeqOnRequest (s : State) : Host.Outcome State Fault Refusal :=
  .next (s.byHost 0x2000 .user fun l => s.seqCtl l true false)

/-- SEQ_CTRL.OFF (R151, R153, R156). -/
def execSeqOffRequest (s : State) : Host.Outcome State Fault Refusal :=
  .next (s.byHost 0x2000 .user fun l => s.seqCtl l false true)

/-! ## The transition log and SEQ_SPRING_CTL (R165, R174) -/

/-- A read of SEQ_TLOG_ENT removes the oldest entry and captures its stamp. -/
def State.tlogRead (s : State) : State :=
  match s.seq.tlog with
  | [] => s
  | e :: r => { s with seq := { s.seq with tlog := r, tlogTs := e.stamp } }

/-- SEQ_TLOG_ENT is read. -/
def execSeqTlogRead (s : State) : Host.Outcome State Fault Refusal := .next (s.byReader 0x2060 s.tlogRead)

/-- SEQ_TLOG_STAT.CLR. -/
def State.tlogClr (s : State) : State := { s with seq := { s.seq with tlog := [], tlogOvf := false } }

/-- SEQ_TLOG_STAT.CLR is written. -/
def execSeqTlogClr (s : State) : Host.Outcome State Fault Refusal := .next (s.byHost 0x2068 .operator fun _ => s.tlogClr)

/-- SEQ_SPRING_CTL is written by a session of level `l`. -/
def State.springCtl (s : State) (l : Level) (dis : Bool) : State :=
  { s with seq := { s.seq with springDis := if l.ge .operator then dis else s.seq.springDis } }

/-- SEQ_SPRING_CTL is written. -/
def execSeqSpringCtlWrite (dis : Bool) (s : State) : Host.Outcome State Fault Refusal :=
  .next (s.byHost 0x20B0 .user fun l => s.springCtl l dis)

end Sys2Proof.Machine
end

