-- ==== Sys2Proof/Machine/HotSwap.lean ====
section
/-! DEFINITION. Channel HS, the HVS inputs, the energy account, the hold-up capacitance and input loss (03, 06, 07). -/

namespace Sys2Proof.Machine

/-! ## HVS inputs (R111 to R114, R272) -/

/-- The sources of an HVS input for LO and HI, by its role; an unused input has none (R112, R272). -/
def hvsSrc (role k : Nat) : Option (Nat × Nat) :=
  match role with
  | 0 => some (1024, 1025)
  | 1 => some (1026, 1027)
  | 2 => if k = 0 then none else some (1026 + 2 * k, 1027 + 2 * k)
  | _ => none

/-- Input `k` takes a sample: latest code, HVS_STAT, what lies beyond its thresholds. -/
def Hs.hvsTake (h : Hs) (k code : Nat) : Hs :=
  let x := tget {} h.hvs k
  let lo := decide (code < fld x.thr 0 12)
  let hi := decide (fld x.thr 16 12 < code)
  { h with
    hvs := tset {} h.hvs k { x with code := code, beyondLo := lo, beyondHi := hi, fresh := false }
    hvsStat := h.hvsStat.join ((if lo then w32 (2 ^ k) else 0) ||| (if hi then w32 (2 ^ (4 + k)) else 0)) }

/-- The sources that the sample of input `k` raises, by its crossings (R114). -/
def Hs.hvsEvents (old new : Hs) (k : Nat) : List Nat :=
  let a := tget {} old.hvs k
  let b := tget {} new.hvs k
  match hvsSrc b.role k with
  | none => []
  | some (lo, hi) =>
    (if b.beyondLo && (a.fresh || !a.beyondLo) then [lo] else []) ++ (if b.beyondHi && (a.fresh || !a.beyondHi) then [hi] else [])

/-! ## The energy account (R244, R245, R262) -/

/-- E_avail of a HOLDUP code in µJ. -/
def State.energyOf (s : State) (h : Nat) : Nat :=
  let f := fld s.hld.volt 0 12
  if h ≤ f then 0 else s.hs.cEst * (h * h - f * f) * fld s.hld.cfg 0 10 * 5 / 16000000

/-- E_avail and E_reserve recomputed on a HOLDUP sample. -/
def State.energy (s : State) (h : Nat) : State :=
  let e := s.energyOf h
  { s with hld := { s.hld with eAvail := e, eRsv := fld s.hld.rsv 0 20 + ceilDiv (e * fld s.hld.cfg 16 7) 100 } }

/-- A HOLDUP sample below V_FLOOR ends a drain that has entries left at the end of its tick (R262, R269). -/
def State.floorCheck (s : State) (h : Nat) : State :=
  if h < fld s.hld.volt 0 12 then { s with hld := s.hld.modDrain fun d => { d with floor := true } } else s

/-! ## The hold-up capacitance (R224 to R226) -/

/-- C_est of a window: its sum of sense codes, its samples and ΔV; a negative numerator gives 0. -/
def Hs.capOf (h : Hs) (sum n dv : Nat) : Nat :=
  let rs := fld h.capCfg 0 16
  (sum * 25000 - fld h.capCfg 16 16 * n * rs) / (rs * dv * 25)

/-- The payload of a CAP record. -/
def State.capParts (s : State) : List (Nat × List Byte) :=
  [(16, leBytes 2 s.hs.cEst), (18, leBytes 1 s.hs.cOut), (20, leBytes 2 (fit 16 s.hs.cN)), (22, leBytes 2 s.hs.cDv),
   (24, leBytes 4 s.env.hours)]

/-- The window closes with outcome `out` and result `c`. -/
def State.capClose (s : State) (out c stamp : Nat) : State :=
  let h := { s.hs with cap := {}, cOut := out }
  if out = 0 ∨ out = 1 then
    let s := { s with hs := { h with cEst := c, cSrc := 1 } }
    let s := s.record 2 0x0A 0 stamp s.capParts
    if out = 1 then s.report 1037 stamp else s
  else if out = 2 then { s with hs := h }.report 1037 stamp
  else { s with hs := h }

/-- The sense sample of the present tick where one is queued behind, else the latest one taken: the one taken with a HOLDUP sample
(notes/assumptions/24). -/
def State.senseNow (s : State) : Nat :=
  (s.thisTick.findSome? fun i => match i with | .hsSenseSample c => some (min 4095 c) | _ => none).getD s.hs.meas

/-- A HOLDUP sample in an armed measurement, with the sense sample taken with it (R224). One at or above V2 that opens the window closes
it too, with no sample in it. A window of fewer than 500 samples is SHORT whatever its result, and raises nothing: R226 gives no order
of its outcomes (DESIGN CHOICE, notes/assumptions/143). -/
def State.capSample (s : State) (h stamp : Nat) : State :=
  let c := s.hs.cap
  if !c.armed then s
  else
    match c.openCode with
    | none =>
      if fld s.hs.capWin 16 12 ≤ h ∧ fld s.hs.capWin 0 12 ≤ h then ({ s with hs := { s.hs with cN := 0, cDv := 0 } }).capClose 4 0 stamp
      else if fld s.hs.capWin 0 12 ≤ h then
        { s with hs := { s.hs with cap := { c with openCode := some h, sum := s.senseNow, n := 1 }, cN := 1 } }
      else s
    | some o =>
      if h < fld s.hs.capWin 16 12 then
        { s with hs := { s.hs with cap := { c with sum := c.sum + s.senseNow, n := c.n + 1 }, cN := c.n + 1 } }
      else
        let s := { s with hs := { s.hs with cDv := h - o } }
        if c.n < 500 then s.capClose 4 0 stamp
        else
          let r := s.hs.capOf c.sum c.n (h - o)
          s.capClose (if r < fld s.hs.capLim 0 16 then 1 else if fld s.hs.capLim 16 16 < r then 2 else 0) r stamp

/-! ## The commands -/

/-- The control island samples: it runs, in a rung whose blocks answer. -/
def State.samples (s : State) : Bool := s.ctrlUp && s.rungOk

/-- A sample of HVS input `k`; without a configuration it is only stored (R111). The run of HVS0 samples at or above VIN_OK is counted
to 100 (R264), and a HOLDUP sample is judged against HS_GOOD.THR (R119). -/
def State.hvsSample (s : State) (k code : Nat) : State :=
  if !s.samples || decide (nHvs s.hw.variant ≤ k) then s
  else if !s.running then
    { s with hs := { s.hs with hvs := tmod {} s.hs.hvs k fun x => { x with code := min 4095 code } } }
  else
    let code := min 4095 code
    let s := s.prior
    let old := s.hs
    let s := { s with hs := old.hvsTake k code }
    let s := if k = 0 then
        { s with hld := { s.hld with vinOk := if fld s.hld.volt 16 12 ≤ code then incTo 100 s.hld.vinOk else 0 } } else s
    let s := s.reports (old.hvsEvents s.hs k) s.now
    let s := if k = s.holdupIdx then
        let s := { s with hs := { s.hs with holdOk := decide (fld s.hs.goodThr 0 12 ≤ code) } }
        ((s.capSample code s.now).energy code).floorCheck code
      else s
    s.settle s.now

/-- A sample of HVS input `k` completes. -/
def execHvsSample (k code : Nat) (s : State) : Host.Outcome State Fault Refusal := .next (s.hvsSample k code)

/-- A sample of the sense voltage (R117). The breaker comparator's output falls once the sense voltage lies below its threshold
(notes/assumptions/25). -/
def State.senseSample (s : State) (code : Nat) : State :=
  if s.samples then
    let code := min 4095 code
    { s with hs := { s.hs with meas := code, brkOut := s.hs.brkOut && decide (4 * fld s.hs.brk 0 10 ≤ code) } }
  else s

/-- A sample of the sense voltage completes. -/
def execHsSenseSample (code : Nat) (s : State) : Host.Outcome State Fault Refusal := .next (s.senseSample code)

/-- The breaker comparator's output rises; armed while the gate is driven, it trips (R117). -/
def State.brkRise (s : State) (held : Nat) : State :=
  if s.running && !s.hs.brkOut && decide (fld s.hs.brk 16 4 + 1 ≤ held) then
    let s := s.prior
    let s := { s with hs := { s.hs with brkOut := true } }
    if s.hsGate then (s.hsTrip s.now).settle s.now else s
  else s

/-- The breaker comparator has been beyond its threshold for `held` ticks. -/
def execHsBreakerTrip (held : Nat) (s : State) : Host.Outcome State Fault Refusal := .next (s.brkRise held)

/-- HSGATE is at least 7 V above HSSRC: the good result may rise (R119); in a ride-through, isolation, the hold and cause LOSS
end (R264). -/
def State.gateUp (s : State) : State :=
  if s.running && s.hsGate then
    let s := s.prior
    let s := { s with hs := { s.hs with gateOn := true } }
    let s := if s.hld.rideWait then
        { s with hld := { s.hld with rideWait := false, isolated := false, cause := { s.hld.cause with loss := false } } } else s
    s.settle s.now
  else s

/-- The gate of channel HS is on. -/
def execHsGateOn (s : State) : Host.Outcome State Fault Refusal := .next s.gateUp

/-- The gate is on again in a ride-through. -/
def execRideThroughGateOn (s : State) : Host.Outcome State Fault Refusal := .next (if s.hld.rideWait then s.gateUp else s)

/-- The threshold of the input-loss comparator: HVS0's LO (R115). No level lies below a threshold of 0. -/
def State.vinThr (s : State) : Nat := fld (tget {} s.hs.hvs 0).thr 0 12

/-- The input-loss comparator trips at the present tick: HVS0 has fallen below its threshold (R115, R259, R260, R269, R359, R361). -/
def State.vinLost (s : State) : State :=
  if !s.configured || s.pwr.vinLoss || decide (s.vinThr = 0) then s
  else
    let s := s.prior
    let s := { s with pwr := { s.pwr with vinLoss := true, lossAt := s.now, lossEnd := 0 }, bbx := s.bbx.lossCut s.hw.variant s.now }
    if s.railsOff then s.settle s.now
    else
      let s := { s with
        hld := { s.hld with cause := { s.hld.cause with loss := true }, isolated := true, rideWait := false }
        hs := { s.hs with gateOn := false } }
      let s := (s.bbxTrigger 5 0xFFFF s.now).admission s.now []
      (s.drainStart 1 s.now).settle s.now

/-- The input-loss comparator trips. -/
def execInputLoss (s : State) : Host.Outcome State Fault Refusal := .next s.vinLost

/-- The input-loss comparator is released: a wake source (R493). -/
def State.vinBack (s : State) : State :=
  if s.pwr.vinLoss then (({ s with pwr := { s.pwr with vinLoss := false, lossEnd := s.now } }).wakeEvent 4).settle s.now else s

/-- The input-loss comparator is released. -/
def execInputLossComparatorRelease (s : State) : Host.Outcome State Fault Refusal := .next s.vinBack

end Sys2Proof.Machine
end

