-- ==== Sys2Proof/Machine/Margin.lean ====
section
/-! DEFINITION. Margining, the margin campaign and the rail health probe (06). -/

namespace Sys2Proof.Machine

/-! ## Targets (R186, R187, R202, R203) -/

/-- A signed percentage of nominal in 0.1 % steps as an ADC code, truncated. -/
def Chan.pctCode (c : Chan) (pct : Int) : Int := Int.tdiv ((fld c.sense.act.nom 0 12 : Int) * (1000 + pct)) 1000

/-- A code brought to the clamp band, and whether it was moved. -/
def Chan.clampCode (c : Chan) (x : Int) : Int × Bool :=
  if c.clampBand.2 < x then (c.clampBand.2, true) else if x < c.clampBand.1 then (c.clampBand.1, true) else (x, false)

/-- The lower edge of the clamp band lies above its upper edge. -/
def Chan.bandEmpty (c : Chan) : Bool := decide (c.clampBand.2 < c.clampBand.1)

/-- MV of a voltage code (R98). -/
def Chan.mv (c : Chan) (code : Nat) : Nat := if wbit c.ch.cfg 1 then code * 3 / 2 else code * 3 / 8

/-- The LINEAR16 mantissa of a code: mV × 2^−VEXP / 1,000, rounded to the nearest; beyond 16 bits the manual states none
(notes/assumptions/20). -/
def Chan.mantissa (c : Chan) (code : Nat) : Nat :=
  let e := sgn 5 (fld c.ch.pmb 24 5)
  let num := c.mv code * 2 ^ (-e).toNat
  let den := 1000 * 2 ^ e.toNat
  let r := (2 * num + den) / (2 * den)
  if r < 0x10000 then r else Config.beyondRange r % 0x10000

/-- Margin mode of a channel (R185). -/
def Chan.mode (c : Chan) : Nat := fld c.ch.mgnCfg 0 2

/-- CODE_MAX. -/
def Chan.codeMax (c : Chan) : Int := fld c.ch.mgnTgt 16 9

/-- The command is accepted in the mode: 0 NOMINAL, 1 HIGH, 2 LOW, 3 TARGET, 4 OLCODE (R185). -/
def modeTakes (mode cmd : Nat) : Bool :=
  match mode with
  | 0 => false
  | 1 => cmd == 0 || cmd == 4
  | 2 => decide (cmd ≤ 3)
  | _ => decide (cmd ≤ 2)

/-! ## Returning (R196, R199, R201) -/

/-- The channel enters RETURNING with `code`; one whose TRIM code is already 0 is NOMINAL at once, and the walk of one that returns
already goes on. -/
def Chan.toReturn (c : Chan) (code stamp : Nat) : Chan :=
  if c.mode ≠ 3 ∧ c.sense.trim = 0 then
    { c with
      mgn := { c.mgn with st := .nominal, code := code, goal := 0, inband := 0
                          campHold := c.mgn.campHold && decide (c.mgn.campCmd ≠ 0) }
      sense := { c.sense with trimOn := false } }
  else
    { c with mgn := { c.mgn with
        st := .returning, code := code, goal := 0, inband := 0
        nextAt := if c.mgn.st = .returning then c.mgn.nextAt else stamp + c.walk } }

/-- Channel `n` enters RETURNING with `code`; in PMBUS mode OPERATION = 0x80 is written (R203). -/
def State.mgnReturn (s : State) (n code stamp : Nat) : State :=
  let c := s.chan n
  let s := s.modChan n fun c => c.toReturn code stamp
  if c.mode = 3 then { s with pmb := s.pmb.margin n [c.pmbOp n 3 0x80] stamp } else s

/-- MARGIN_LIMIT of channel `n`: raised also while the channel returns, whose walk it leaves alone (R199, notes/assumptions/22). -/
def State.marginLimit (s : State) (n stamp : Nat) : State :=
  let s := s.modChan n fun c => { c with mgn := { c.mgn with irq := Irq.set c.mgn.irq 1, campLimit := true } }
  let s := if (s.chan n).mgn.st == .returning then s.modChan n fun c => { c with mgn := { c.mgn with code := 6 } }
    else s.mgnReturn n 6 stamp
  s.chanEvent (8 * n + 6) stamp

/-- Leaving Summer: every margined channel returns, every probe in progress is aborted (R201, R216). -/
def State.leaveSummer (s : State) (stamp : Nat) : State :=
  (s.chans.map (·.1)).foldl (fun s n =>
    let s := if (s.chan n).mgn.st == .nominal then s else s.mgnReturn n 8 stamp
    s.modChan n fun c => c.probeAbort 5 stamp) s

/-! ## Requests (R191) -/

/-- A probe of channel `n` that was queued starts on the present tick, or has just started on it: a margin request of that tick is
acted on and the probe is refused (R223). -/
def State.prbStarting (s : State) (n : Nat) : Bool :=
  let p := (s.chan n).prb
  (p.phase == .queued && s.thisTick.any (· == .probeStart) && !(s.chans.any fun e => e.2.prb.running || e.2.prb.phase == .fit)
      && decide (s.rails.find? (fun m => s.inUse m && (s.chan m).prb.phase == .queued) = some n))
    || (p.phase == .baseline && !p.aborting && decide (p.phaseEnd = s.now + 256 * tUs))

/-- A campaign corner of the present tick is still to come for member `n`, or has been taken: it wins over a host request (R223). -/
def State.cornerNow (s : State) (n : Nat) : Bool :=
  wbit (s.chan n).ch.mgnCfg 2 && s.running
    && (s.camp.pendAt.any (fun p => decide (p.1 ≤ s.now)) || s.camp.reportAt.contains (s.now + 200000))

/-- The refusal code of a margin request, 0 where it is accepted; a campaign waives conditions 1 and 5 (R206). A shut-down of the
present tick that is still to come makes it one in the wrong state (R223). -/
def State.mgnRefusal (s : State) (n cmd : Nat) (l : Level) (camp : Bool) : Nat :=
  let c := s.chan n
  if !camp && !l.ge .operator then 5
  else if !modeTakes c.mode cmd then 1
  else if cmd ≠ 0 ∧ (c.rail.state ≠ .good ∨ s.railOffDue n s.now) then 2
  else if cmd ≠ 0 ∧ s.pwr.rung ≠ .summer then 3
  else if !camp && ((c.prb.phase != .idle && !s.prbStarting n) || c.mgn.campHold || s.cornerNow n) then 4
  else if c.bandEmpty then 9
  else 0

/-- The channel moves to a target code (HIGH, LOW, TARGET). The count of updates in band starts again at 0 with each request that is
accepted: R192 does not say so (DESIGN CHOICE, notes/assumptions/139). -/
def Chan.moveTo (c : Chan) (pct : Int) (stamp : Nat) : Chan :=
  let t := c.clampCode (c.pctCode pct)
  { c with
    mgn := { c.mgn with st := .moving, code := 0, clamped := t.2, target := t.1.toNat, pct := pct, inband := 0, nextAt := stamp }
    sense := { c.sense with trimOn := c.sense.trimOn || decide (c.mode ≠ 3) } }

/-- The channel walks to a TRIM code (OLCODE, R195). -/
def Chan.walkTo (c : Chan) (code : Int) (stamp : Nat) : Chan :=
  let g := if c.codeMax < code then c.codeMax else if code < -c.codeMax then -c.codeMax else code
  let here := decide (c.sense.trim = g)
  { c with
    mgn := { c.mgn with
      st := if here then .held else .moving, code := 0, clamped := decide (g ≠ code), goal := g, inband := 0
      nextAt := stamp + c.walk, irq := if here then Irq.set c.mgn.irq 0 else c.mgn.irq }
    sense := { c.sense with trimOn := true } }

/-- A sample of channel `n` outside its limit band comes on the present tick or has come on it: MARGIN_LIMIT wins over a NOMINAL request
(R223). -/
def State.limitNow (s : State) (n : Nat) : Bool :=
  let c := s.chan n
  wbit c.mgn.irq.fresh 1 || (c.engaged && s.thisTick.any fun i => match i with
    | .channelSample m v _ => decide (m = n) && !inBand c.limitBand (min 4095 v)
    | _ => false)

/-- An accepted margin request; `pct` for HIGH, LOW and TARGET, `code` for OLCODE. -/
def State.mgnAct (s : State) (n cmd : Nat) (pct code : Int) (stamp : Nat) : State :=
  match cmd with
  | 0 =>
    if s.limitNow n then s
    else if (s.chan n).mgn.st == .nominal then s.modChan n fun c => { c with mgn := { c.mgn with code := 0 } }
    else s.mgnReturn n 0 stamp
  | 4 => (s.modChan n fun c => c.walkTo code stamp).count n 0x30
  | _ =>
    let s := s.modChan n fun c => c.moveTo pct stamp
    let c := s.chan n
    let s := if c.mode = 3 then
        let t := c.pmbTxn (if cmd = 1 then pmbHigh else pmbLow) (some (c.mantissa c.mgn.target)) (.margin n 1)
        { s with pmb := s.pmb.margin n [t, c.pmbOp n 2 (if cmd = 1 then 0xA8 else 0x98)] stamp }
      else s
    s.count n 0x30

/-- The percentage of a corner: PCT_HI or PCT_LO. -/
def Chan.corner (c : Chan) (cmd : Nat) : Int := if cmd = 2 then sgn 8 (fld c.ch.mgnTgt 8 8) else sgn 8 (fld c.ch.mgnTgt 0 8)

/-- A margin request of channel `n` from a session of level `l`. -/
def State.mgnReq (s : State) (n cmd : Nat) (pct code : Int) (l : Level) : State :=
  if !s.inUse n then s
  else
    match s.mgnRefusal n cmd l false with
    | 0 =>
      let starting := (s.chan n).prb.phase == .baseline
      (s.mgnAct n cmd pct code s.now).modChan n fun c => { c with
        mgn := { c.mgn with reqAt := if cmd = 0 then c.mgn.reqAt else some s.now }
        prb := if starting && !(c.mgn.st == .nominal) then { c.prb with phase := .idle, outcome := 8 } else c.prb }
    | r => s.modChan n fun c => { c with mgn := { c.mgn with code := r, irq := Irq.set c.mgn.irq 2 } }

/-- A write of CH_MGN_CTRL by the open session. -/
def State.mgnWrite (s : State) (n cmd : Nat) (pct code : Int) : State :=
  s.chHost n 0x88 .user fun s l => s.mgnReq n cmd pct code l

/-- NOMINAL is requested. -/
def execMgnNominal (ch : Nat) (s : State) : Host.Outcome State Fault Refusal := .next (s.mgnWrite ch 0 0 0)
/-- HIGH is requested. -/
def execMgnHigh (ch : Nat) (s : State) : Host.Outcome State Fault Refusal :=
  .next (s.mgnWrite ch 1 ((s.chan ch).corner 1) 0)
/-- LOW is requested. -/
def execMgnLow (ch : Nat) (s : State) : Host.Outcome State Fault Refusal :=
  .next (s.mgnWrite ch 2 ((s.chan ch).corner 2) 0)
/-- TARGET is requested. -/
def execMgnTarget (ch : Nat) (pct : BitVec 8) (s : State) : Host.Outcome State Fault Refusal :=
  .next (s.mgnWrite ch 3 (sgn 8 pct.toNat) 0)
/-- OLCODE is requested. -/
def execMgnOlcode (ch : Nat) (code : BitVec 10) (s : State) : Host.Outcome State Fault Refusal :=
  .next (s.mgnWrite ch 4 0 (sgn 10 code.toNat))

/-! ## The servo and the walk (R192, R195, R196) -/

/-- Mean of up to `n` latest samples, truncated (R99). -/
def meanOf (n : Nat) (l : List Nat) : Nat :=
  let x := l.take n
  x.foldl (· + ·) 0 / max 1 x.length

/-- The step of the servo for an error `e`: truncated toward zero, at least one code, at most eight, by TRIM_DIR. -/
def Chan.servoStep (c : Chan) (e : Int) : Int :=
  let x := Int.tdiv (e * (fld c.ch.mgnCfg 12 4 : Int)) 16
  let x := if x = 0 then (if e < 0 then -1 else if e = 0 then 0 else 1) else x
  let x := if x < -8 then -8 else if 8 < x then 8 else x
  if wbit c.ch.cfg 10 then -x else x

/-- One update of the servo at tick `t`. -/
def State.servo (s : State) (n t : Nat) : State :=
  let c := s.chan n
  let e : Int := (c.mgn.target : Int) - (meanOf 8 c.sense.vh : Int)
  let next := t + 8 * tUs
  if 400 * e.natAbs ≤ c.mgn.target then
    s.modChan n fun c =>
      let held := decide (c.mgn.st = .moving ∧ c.mgn.inband + 1 = 4)
      { c with mgn := { c.mgn with
          inband := incTo 4 c.mgn.inband, nextAt := next
          st := if held then .held else c.mgn.st, irq := if held then Irq.set c.mgn.irq 0 else c.mgn.irq } }
  else
    let s := s.modChan n fun c => { c with mgn := { c.mgn with inband := 0, nextAt := next } }
    let x := c.sense.trim + c.servoStep e
    if c.codeMax < (x.natAbs : Int) then s.marginLimit n t
    else s.modChan n fun c => { c with sense := { c.sense with trim := x } }

/-- The servo update of channel `n` falls due. -/
def State.servoDue (s : State) (n : Nat) : State :=
  let c := s.chan n
  if s.chanRuns n && c.mode == 2 && (c.mgn.st == .moving || c.mgn.st == .held) && decide (c.mgn.nextAt ≤ s.now) then
    (s.servo n c.mgn.nextAt).settle c.mgn.nextAt
  else s

/-- The present tick is the apply tick of a run-time replacement: its verification has passed, or is still to end on it (R395). -/
def State.rtNow (s : State) : Bool :=
  s.cfg.rtImg.isSome || (s.cfg.busy && decide (s.cfg.op = 2) && s.thisTick.any fun i => match i with
    | .rtApplyVerified _ => true
    | _ => false)

/-- A threshold set of channel `n` is to be applied on the present tick, by APPLY or by a run-time replacement: the servo update of the
tick waits for it (R202, R223). -/
def State.applyQueued (s : State) (n : Nat) : Bool :=
  s.rtNow || s.thisTick.any fun i => match i with
    | .chApply m => decide (m = n)
    | _ => (wordTo i (chReg n 0x20)).any fun w => wbit w 0

/-- The servo update of channel `ch`. -/
def execMarginServoUpdate (ch : Nat) (s : State) : Host.Outcome State Fault Refusal :=
  .next (if s.applyQueued ch then s else s.servoDue ch)

/-- One code toward a goal. -/
def stepTo (x g : Int) : Int := if x < g then x + 1 else if g < x then x - 1 else x

/-- One step of a walk back to 0: TRIM is released on the tick the code reaches 0; the margin is then NOMINAL and a probe goes on
to its fit, or to IDLE where it was aborted (R196, R212, R216). -/
def Chan.walkBack (c : Chan) (t : Nat) : Chan :=
  let x := stepTo c.sense.trim 0
  let done := decide (x = 0)
  let ret := c.prb.phase == .ret
  { c with
    sense := { c.sense with trim := x, trimOn := c.sense.trimOn && !done }
    mgn := { c.mgn with
      st := if done && c.mgn.st == .returning && c.mode != 3 then .nominal else c.mgn.st
      campHold := c.mgn.campHold && !(done && decide (c.mgn.campCmd = 0))
      nextAt := t + c.walk }
    prb := { c.prb with
      phase := if done && ret then (if c.prb.aborting then .idle else .fit) else c.prb.phase
      aborting := c.prb.aborting && !(done && ret) } }

/-- One step of the walk of OLCODE: HELD on the tick the requested code is reached. -/
def Chan.walkOn (c : Chan) (t : Nat) : Chan :=
  let x := stepTo c.sense.trim c.mgn.goal
  let here := decide (x = c.mgn.goal)
  { c with
    sense := { c.sense with trim := x }
    mgn := { c.mgn with st := if here then .held else .moving, irq := if here then Irq.set c.mgn.irq 0 else c.mgn.irq
                        nextAt := t + c.walk } }

/-- The walk step of channel `n` falls due. -/
def State.walkDue (s : State) (n : Nat) : State :=
  let c := s.chan n
  let t := c.mgn.nextAt
  if s.chanRuns n && decide (t ≤ s.now) then
    if (c.mgn.st == .returning && c.mode != 3) || c.prb.phase == .ret then s.modChan n fun c => c.walkBack t
    else if c.mgn.st == .moving && c.mode == 1 then s.modChan n fun c => c.walkOn t
    else s
  else s

/-- The walk step of channel `ch`. -/
def execMarginWalkStep (ch : Nat) (s : State) : Host.Outcome State Fault Refusal := .next (s.walkDue ch)

/-! ## The campaign (R205 to R209) -/

/-- Channels that are campaign members. -/
def State.members (s : State) : List Nat := s.rails.filter fun n => s.inUse n && wbit (s.chan n).ch.mgnCfg 2

/-- Issues a corner: the MGN frame to every device, and this device's own corner tick. -/
def State.campIssue (s : State) (corner tick : Nat) (abort : Bool) : State :=
  let s := s.casDown (.mgn corner tick abort)
  { s with camp := { s.camp with pendAt := s.camp.pendAt ++ [(tick, corner)] } }

/-- MGN_CAMP_STAT.BUSY: a corner is pending, one that ends a campaign included, or reports are outstanding. -/
def Camp.isBusy (c : Camp) : Bool := c.busy || !c.pendAt.isEmpty

/-- MGN_CAMP_CTRL.GO. A CORNER the register does not define is refused like any other, else has no effect (notes/assumptions/21). -/
def State.campGo (s : State) (corner : Nat) (abort : Bool) : State :=
  let refuse (c : Nat) := { s with camp := { s.camp with code := c } }
  if !s.sys.strap then refuse 4
  else if s.camp.isBusy then refuse 1
  else if s.camp.at_ < s.now + 500 then refuse 2
  else if s.now + 0x1000000 < s.camp.at_ then refuse 3
  else if corner = 3 then s
  else
    ({ s with camp := { s.camp with
      code := 0, busy := true, done := false, corner := corner, aborted := false, abort := abort
      nPass := 0, nFail := 0, counted := [], first := 0 } }).campIssue corner s.camp.at_ abort

/-- MGN_CAMP_CTRL.GO is written. -/
def execMgnCampGo (corner : BitVec 2) (abort : Bool) (s : State) : Host.Outcome State Fault Refusal :=
  .next (s.byHost 0x18200 .operator fun _ => s.campGo corner.toNat abort)

/-- A member acts on the corner. -/
def State.cornerOn (s : State) (corner t n : Nat) : State :=
  let r := s.mgnRefusal n corner .user true
  let s := s.modChan n fun c => { c with mgn := { c.mgn with
    campCmd := corner, campLimit := false, campRefused := decide (r ≠ 0)
    campHold := decide (corner ≠ 0) || (c.mgn.campHold && !(c.mgn.st == .nominal)) } }
  if r = 0 then s.mgnAct n corner ((s.chan n).corner corner) 0 t
  else s.modChan n fun c => { c with mgn := { c.mgn with code := r, irq := Irq.set c.mgn.irq 2 } }

/-- The corner whose tick has come, the earliest first. -/
def Camp.cornerDue (c : Camp) (now : Nat) : Option (Nat × Nat) :=
  (c.pendAt.filter fun p => decide (p.1 ≤ now)).foldl (fun a p => match a with
    | none => some p
    | some q => some (if p.1 < q.1 then p else q)) none

/-- The corner tick: the members act on it, and the device's report comes 2 ms later (R206, R207). -/
def State.cornerTick (s : State) : State :=
  match s.camp.cornerDue s.now with
  | some (t, corner) =>
    if s.running then
      let s := { s with camp := { s.camp with
        pendAt := s.camp.pendAt.erase (t, corner), reportAt := s.camp.reportAt ++ [t + 200000] } }
      (s.members.foldl (fun s n => s.cornerOn corner t n) s).settle t
    else s
  | none => s

/-- The corner tick is reached. -/
def execCampaignCorner (s : State) : Host.Outcome State Fault Refusal := .next s.cornerTick

/-- WHY of a member in the report, 0 where it passes (R206, R207). -/
def Margin.why (m : Margin) : Nat :=
  if m.campRefused then 3
  else if m.st == .held || (decide (m.campCmd = 0) && m.st == .nominal) then 0
  else if m.campLimit then 2
  else if m.code = 8 then 4
  else 1

/-- The leader counts a device's report, once each (R208); a first failure under ABORT issues a NOMINAL corner (R209). -/
def State.campCount (s : State) (org : Nat) (fail : Bool) (rail why stamp : Nat) : State :=
  let c := s.camp
  if !c.busy || tget false c.counted org then s
  else
    let counted := tset false c.counted org true
    let all := s.cas.members.all fun a => tget false counted a
    let lower := !wbit c.first 31 || decide (org < fld c.first 0 12)
    let back := fail && c.abort && !c.aborted
    let s := { s with camp := { c with
      counted := counted
      nPass := if fail then c.nPass else c.nPass + 1
      nFail := if fail then c.nFail + 1 else c.nFail
      first := if fail && lower then wpack [(0, 12, org), (12, 8, rail), (20, 4, why), (31, 1, 1)] else c.first
      busy := !all, done := all, aborted := c.aborted || back } }
    if back then s.campIssue 0 (stamp + 500) false else s

/-- A report of the device whose tick has come, as its state is at the end of that tick (R31, R207, R223): shown locally, counted on the
leader, sent to it by a follower. -/
def State.campReport (s : State) : State :=
  match s.camp.reportAt.find? fun t => decide (t ≤ s.now) with
  | none => s
  | some t =>
    if !s.running then s
    else
      let ms := s.members
      let bad := ms.filter fun n => decide ((s.chan n).mgn.why ≠ 0)
      let rail := bad.headD 0
      let why := if bad.isEmpty then 0 else (s.chan rail).mgn.why
      let s := { s with camp := { s.camp with
        reportAt := s.camp.reportAt.erase t, nMember := ms.length, nmPass := ms.length - bad.length, nmFail := bad.length } }
      if s.sys.strap then s.campCount 0 (!bad.isEmpty) rail why t
      else s.casUp (.mgnRep s.cas.addr ms.length (ms.length - bad.length) bad.length rail why)

/-- Nothing of the present tick is left that could change what a report shows: its last command runs, the sequencer has nothing more to
do on it, no drain ends and no rung entry takes its steps on it. -/
def State.tickDone (s : State) : Bool :=
  s.thisTick.isEmpty && (s.firstItem (s.now + 1) 0).isNone && decide (s.drainCode = 0) && !s.entryReady

/-- The report falls due: it is taken at the end of its tick, by this row where nothing else of the tick is left
(notes/assumptions/4). -/
def execCampaignReport (s : State) : Host.Outcome State Fault Refusal := .next (if s.tickDone then s.campReport else s)

/-! ## The probe (R210 to R221) -/

/-- The refusal of a probe by the state of the device and the channel (6 REF_STATE, 7 REF_RUNG, 8 REF_BUSY), 0 for none. -/
def State.prbRefusal (s : State) (n : Nat) : Nat :=
  if s.rst n ≠ .good then 6
  else if s.pwr.rung ≠ .summer then 7
  else if (s.chan n).mgn.st ≠ .nominal then 8
  else 0

/-- The probe record of channel `n` changed. -/
def State.modPrb (s : State) (n : Nat) (f : Probe → Probe) : State := s.modChan n fun c => { c with prb := f c.prb }

/-- CH_PRB_CTRL.GO from a session of level `l`. -/
def State.prbReq (s : State) (n : Nat) (l : Level) : State :=
  if !s.inUse n then s
  else if !l.ge .operator then s.modPrb n fun p => { p with outcome := 9 }
  else if (s.chan n).prb.phase != .idle then s
  else
    match s.prbRefusal n with
    | 0 => s.modPrb n fun p => { p with phase := .queued, outcome := 0 }
    | r => s.modPrb n fun p => { p with outcome := r }

/-- GO of CH_PRB_CTRL is written. -/
def execPrbGo (ch : Nat) (s : State) : Host.Outcome State Fault Refusal :=
  .next (s.chHost ch 0x98 .user fun s l => s.prbReq ch l)

/-- BASE_RESET from a session of level `l` (R210, R219). R210 gives SESSION to a session below OWNER and does not name VENDOR for the
reset: the model refuses it too (DESIGN CHOICE, notes/assumptions/140). -/
def State.prbReset (s : State) (n : Nat) (l : Level) : State :=
  if !s.inUse n then s
  else if !(l == .owner) then s.modPrb n fun p => { p with outcome := 9 }
  else (s.modPrb n fun p => { p with base := [] }).record 2 0x0B n s.now [(16, leBytes 4 s.env.hours)]

/-- BASE_RESET of CH_PRB_CTRL is written. -/
def execPrbBaseReset (ch : Nat) (s : State) : Host.Outcome State Fault Refusal :=
  .next (s.chHost ch 0x98 .user fun s l => s.prbReset ch l)

/-- A scheduled probe is due and R210 admits it (R217). -/
def State.prbDue (s : State) (n : Nat) : State :=
  let c := s.chan n
  let per := fld c.ch.prbCfg 16 16
  if s.running && s.inUse n && decide (per ≠ 0) && decide (c.prb.lastHours + per ≤ s.env.hours) && c.prb.phase == .idle
      && decide (s.prbRefusal n = 0) then
    s.modPrb n fun p => { p with phase := .queued, outcome := 0 }
  else s

/-- The probe of channel `ch` falls due. -/
def execProbeDue (ch : Nat) (s : State) : Host.Outcome State Fault Refusal := .next (s.prbDue ch)

/-- A probe runs: in a phase past QUEUED. -/
def State.prbBusy (s : State) : Bool := s.chans.any fun e => e.2.prb.running || e.2.prb.phase == .fit

/-- The lowest queued probe is checked again and begins its baseline, or is refused (R211, R212). -/
def State.prbStart (s : State) : State :=
  if !s.running || s.prbBusy then s
  else
    match s.rails.find? fun n => s.inUse n && (s.chan n).prb.phase == .queued with
    | none => s
    | some n =>
      match s.prbRefusal n with
      | 0 => s.modPrb n fun p => { p with phase := .baseline, phaseEnd := s.now + 256 * tUs, baseV := [], baseI := []
                                          recV := [], recI := [], aborting := false }
      | r => s.modPrb n fun p => { p with phase := .idle, outcome := r }

/-- A queued probe starts. -/
def execProbeStart (s : State) : Host.Outcome State Fault Refusal := .next s.prbStart

/-- The channel whose probe is in a phase. -/
def State.prbIn (s : State) (p : PrbPhase) : Option Nat :=
  s.rails.find? fun n => s.inUse n && (s.chan n).prb.phase == p && !(s.chan n).prb.aborting

/-- The TRIM code of a probe's step: up for DIR = 0, adjusted for TRIM_DIR (R85, R212). -/
def Chan.prbCode (c : Chan) : Int :=
  let x : Int := fld c.ch.prbCfg 0 9
  if wbit c.ch.prbCfg 9 == wbit c.ch.cfg 10 then x else -x

/-- The baseline ends: the step is set (R212). R190 keeps CHn_TRIM at high impedance in PMBUS mode for every margin state; the model
drives the step of a probe there too (DESIGN CHOICE, notes/assumptions/141). -/
def State.prbStep (s : State) : State :=
  match s.prbIn .baseline with
  | none => s
  | some n =>
    let t := (s.chan n).prb.phaseEnd
    if t ≤ s.now ∧ s.running then
      s.modChan n fun c => { c with
        sense := { c.sense with trim := c.prbCode, trimOn := true }
        prb := { c.prb with phase := .step, phaseEnd := t + 2000 * tUs } }
    else s

/-- The baseline of the probe ends. -/
def execProbeBaselineEnd (s : State) : Host.Outcome State Fault Refusal := .next s.prbStep

/-- Recording ends: ΔV, and the walk back begins (R212). -/
def State.prbReturn (s : State) : State :=
  match s.prbIn .step with
  | none => s
  | some n =>
    let t := (s.chan n).prb.phaseEnd
    if t ≤ s.now ∧ s.running then
      s.modChan n fun c => { c with
        prb := { c.prb with phase := .ret, deltaV := (meanOf 256 c.prb.recV : Int) - (meanOf 256 c.prb.baseV : Int) }
        mgn := { c.mgn with nextAt := t + c.walk } }
    else s

/-- The step of the probe ends. -/
def execProbeStepEnd (s : State) : Host.Outcome State Fault Refusal := .next s.prbReturn

/-- sin of 0 to 90 degrees, in 10⁻⁹. -/
def sinTable : List Nat :=
  [0, 17452406, 34899497, 52335956, 69756474, 87155743, 104528463, 121869343, 139173101, 156434465, 173648178, 190808995, 207911691] ++
  [224951054, 241921896, 258819045, 275637356, 292371705, 309016994, 325568154, 342020143, 358367950, 374606593, 390731128, 406736643, 422618262] ++
  [438371147, 453990500, 469471563, 484809620, 500000000, 515038075, 529919264, 544639035, 559192903, 573576436, 587785252, 601815023, 615661475] ++
  [629320391, 642787610, 656059029, 669130606, 681998360, 694658370, 707106781, 719339800, 731353702, 743144825, 754709580, 766044443, 777145961] ++
  [788010754, 798635510, 809016994, 819152044, 829037573, 838670568, 848048096, 857167301, 866025404, 874619707, 882947593, 891006524, 898794046] ++
  [906307787, 913545458, 920504853, 927183855, 933580426, 939692621, 945518576, 951056516, 956304756, 961261696, 965925826, 970295726, 974370065] ++
  [978147601, 981627183, 984807753, 987688341, 990268069, 992546152, 994521895, 996194698, 997564050, 998629535, 999390827, 999847695, 1000000000]

/-- sin of `d` degrees in 10⁻⁹, for `d` up to 90. -/
def sinDeg (d : Nat) : Nat := sinTable.getD d 0

/-- A quotient as a published integer: whether it is cut or raised the manual does not state (a free choice, notes/assumptions/110). -/
def fitQuot (k a b : Nat) : Nat := a / b + if a % b = 0 then 0 else Config.fitRound k (a / b) % 2

/-- The bits below `b` of a square root of `n`, of which `a` is known. -/
def rootBits (n : Nat) : Nat → Nat → Nat
  | 0, a => a
  | b + 1, a => rootBits n b (if (a + 2 ^ b) * (a + 2 ^ b) ≤ n then a + 2 ^ b else a)

/-- The integer part of a square root. -/
def intRoot (n : Nat) : Nat := rootBits n (n.log2 / 2 + 1) 0

/-- √(√(1 + 4ζ⁴) − 2ζ²) in 10⁻⁶, ζ in thousandths (R213). -/
def loopRoot (zeta : Nat) : Nat := intRoot (intRoot ((10 ^ 12 + 4 * zeta ^ 4) * 10 ^ 12) - 2 * zeta ^ 2 * 10 ^ 6)

/-- The loop crossover ωn × √(√(1 + 4ζ⁴) − 2ζ²) / 2π in 10 Hz, ωn in rad/s. -/
def loopCross (wn zeta : Nat) : Nat := fitQuot 0 (wn * loopRoot zeta * 100) (2 * 3141592654)

/-- The phase margin atan(2ζ / √(√(1 + 4ζ⁴) − 2ζ²)) in degrees: 2ζ = 2000 ζ in the unit of the root, and tan d = sin d / sin (90 − d).
-/
def loopMargin (zeta : Nat) : Nat :=
  let y := 2000 * zeta
  let x := loopRoot zeta
  let d := ((List.range 91).filter fun d => decide (x * sinDeg d ≤ y * sinDeg (90 - d))).foldl max 0
  if x * sinDeg d = y * sinDeg (90 - d) then d else min 90 (d + Config.fitRound 1 d % 2)

/-- ΔV of the probe in µV (R98). -/
def Chan.deltaUv (c : Chan) : Nat := c.prb.deltaV.natAbs * if wbit c.ch.cfg 1 then 1500 else 375

/-- The output impedance 1 / (2π × f_c × Q_eff / ΔV) in µΩ, `fc` in 10 Hz, `qeff` in nC. Outside 10 µΩ to 10 Ω, or without a charge, the
manual states no result: a free value of the range (notes/assumptions/110). -/
def Chan.loopZ (c : Chan) (fc qeff : Nat) : Nat :=
  let z := fitQuot 2 (c.deltaUv * 10 ^ 17) (2 * 3141592654 * fc * qeff)
  if decide (10 ≤ z) && decide (z ≤ 10 ^ 7) && decide (qeff ≠ 0) then z else 10 + Config.fitRound 3 z % (10 ^ 7 - 9)

/-- OUTCOME of a completed probe: 3 STEP_RANGE, 2 LOWQ, 1 OK (R215). -/
def Chan.prbOutcome (c : Chan) (fitQ : Nat) : Nat :=
  let dv := c.prb.deltaV.natAbs
  let nom := fld c.sense.act.nom 0 12
  if 200 * dv < nom ∨ nom < 50 * dv then 3 else if fitQ < fld c.ch.prbLim 24 8 then 2 else 1

/-- Mean of one quantity over the baseline. -/
def baseMean (l : List Nat) : Nat := l.foldl (· + ·) 0 / max 1 l.length

/-- A qualified probe fails a limit (R220). -/
def Chan.prbFails (c : Chan) (zout fc pm : Nat) : Bool :=
  let z := fld c.ch.prbLim 0 8
  let f := fld c.ch.prbLim 8 8
  let m := fld c.ch.prbLim 16 8
  let bz := baseMean (c.prb.base.map (·.1))
  let bf := baseMean (c.prb.base.map (·.2.1))
  (decide (z ≠ 0) && decide (bz * (100 + z) < zout * 100))
    || (decide (f ≠ 0) && (decide ((fc : Int) * 100 < (bf : Int) * (100 - f)) || decide (bf * (100 + f) < fc * 100)))
    || (decide (m ≠ 0) && decide (pm < m))

/-- The payload of a TREND record (R342). -/
def State.trendParts (s : State) (p : Probe) : List (Nat × List Byte) :=
  [(16, leBytes 2 p.dv), (20, leBytes 4 p.zout), (24, leBytes 2 p.fc), (26, leBytes 1 p.pm), (27, leBytes 1 p.fitQ),
   (28, leBytes 4 s.env.hours), (32, leBytes 2 p.nqual), (34, leBytes 1 p.base.length), (35, leBytes 1 p.anom)]

/-- The fit completes: results, outcome, trend record, anomaly limits (R213, R215, R218 to R221). The model fitted to the responses
is ωn, ζ, the charge and the goodness of the fit. A crossover outside 1 to 100 kHz is published at the nearer limit with FIT_Q at
most 63, and the impedance is computed from what is published (DESIGN CHOICE, notes/assumptions/142). Where ANOM_N is 0 the count
stops at 7, the most its field holds (DESIGN CHOICE, notes/assumptions/105); a count restored or left above ANOM_N has reached it,
and the next failing probe raises (DESIGN CHOICE, notes/assumptions/106). -/
def State.prbFit (s : State) (wn zeta qeff fitQ : Nat) : State :=
  match s.prbIn .fit with
  | none => s
  | some n =>
    let c := s.chan n
    let fc := loopCross wn zeta
    let pm := loopMargin zeta
    let fc' := if fc < 100 then 100 else if 10000 < fc then 10000 else fc
    let zout := c.loopZ fc' qeff
    let fq := if fc' = fc then min 255 fitQ else min 63 fitQ
    let out := c.prbOutcome fq
    let tested := decide (c.prb.base.length = 4)
    let fails := tested && c.prbFails zout fc' pm
    let cnt := if out ≠ 1 ∨ !tested then c.prb.anom else if fails then incTo 7 c.prb.anom else 0
    let anomN := fld c.ch.prbCfg 10 3
    let raised := decide (out = 1) && fails && decide (anomN ≠ 0) && decide (anomN ≤ cnt)
    let p := { c.prb with
      phase := .idle, outcome := out, fc := fc', pm := pm, zout := zout, fitQ := fq, dv := c.prb.deltaV.natAbs
      anom := if raised then 0 else cnt
      nqual := if out = 1 then incTo 0xFFFF c.prb.nqual else c.prb.nqual
      base := if out = 1 ∧ !tested then c.prb.base ++ [(zout, fc', pm)] else c.prb.base
      lastHours := if out = 1 then s.env.hours else c.prb.lastHours
      baseV := [], baseI := [], recV := [], recI := [] }
    let irq := Irq.set (if raised then Irq.set c.mgn.irq 5 else c.mgn.irq) 3
    let s := s.modChan n fun c => { c with prb := p, mgn := { c.mgn with irq := irq } }
    let s := if out = 1 then (s.count n 0x31).record 2 0x09 n s.now (s.trendParts p) else s
    if raised then (s.chanEvent (8 * n + 7) s.now).settle s.now else s

/-- The fit of the probe completes with a natural frequency in rad/s, a damping in thousandths, a charge in nC and a confidence. -/
def execProbeFitDone (wn zeta qeff fitQ : Nat) (s : State) : Host.Outcome State Fault Refusal :=
  .next (if s.running then s.prior.prbFit wn zeta qeff fitQ else s)

/-! ## Devices that are lost (R417, R426, R208, R421) -/

/-- A device is declared LOST on the leader (R417, R426, R208, R421). A report on the same stamp has been counted already. -/
def State.leaderLost (s : State) (a : Nat) : State :=
  let d := tget {} s.cas.devs a
  if !d.joined || d.lost then s
  else
    let waits := match s.cas.domPhase with | some p => p.waiting.contains a | none => false
    let devs := tset {} s.cas.devs a { d with lost := true, skipAt := if waits then some s.now else none }
    let c := { s.cas with devs := devs, nDev := s.cas.nDev - 1, nLost := s.cas.nLost + 1, irq := Irq.set s.cas.irq 6 }
    let s := { s with cas := c.eqxCount a false 4, seq := s.seq.lose (fun r => decide (r.addr = a)) s.now }
    (s.campCount a true 0 5 s.now).domLeave a true

/-- Addresses in chunks of 24, the most a LOST frame holds. -/
def chunks24 : Nat → List Nat → List (List Nat)
  | 0, _ => []
  | _ + 1, [] => []
  | fuel + 1, l => l.take 24 :: chunks24 fuel (l.drop 24)

/-- Path `x` of depth `dx` lies at or below path `y` of depth `dy`. -/
def below (x dx y dy : Nat) : Bool := decide (dy ≤ dx) && decide (x % 4 ^ dy = y % 4 ^ dy)

/-- What has still to be enumerated at or below a path that is gone is dropped. -/
def Cas.forget (c : Cas) (path d : Nat) : Cas :=
  { c with todo := c.todo.filter fun x => !below x.1 x.2 path d
           offer := c.offer.filter fun o => !below o.path o.depth path d }

/-- The leader broadcasts the addresses that are named to it and declares the devices LOST (R417). -/
def State.leaderLostAll (s : State) (l : List Nat) : State :=
  let s := (chunks24 l.length l).foldl (fun s c => s.casDown (.lost c)) s
  let s : State := { s with cas := l.foldl (fun (c : Cas) a =>
    let d : CasDev := tget {} c.devs a
    if d.joined then c.forget d.path d.depth else c) s.cas }
  l.foldl State.leaderLost { s with seq := s.seq.lose (fun r => l.contains r.addr) s.now }

/-- The subtree below down port `p` is lost: the leader declares it LOST; another device names it to the leader, whose LOST frame comes
back to make the references LOST (R417). -/
def State.subtreeLost (s : State) (p : Nat) : State :=
  let l := s.cas.devs.filterMap fun e =>
    if e.2.joined && !e.2.lost && decide (hopAt e.2.path s.cas.depth = p - 1) then some e.1 else none
  if s.sys.strap then ({ s with cas := s.cas.forget (p - 1) 1 }).leaderLostAll l
  else
    let s := { s with cas := { s.cas with devs := l.foldl (fun t a => tdel t a) s.cas.devs } }
    (chunks24 l.length l).foldl (fun s c => s.casUp (.lost c)) s

/-- What lies beyond the down ports for which `p` holds, which the device disables itself, is lost (R417). -/
def State.portsLost (s : State) (p : Nat → Bool) : State :=
  ((List.range (nCasPort s.hw.variant - 1)).filter p).foldl (fun s k => s.subtreeLost (k + 1)) s

end Sys2Proof.Machine
end

