-- ==== Sys2Proof/Machine/Channels.lean ====
section
/-! DEFINITION. Channel sensing (03, 05): comparators, samples with what they decide, the power-good pin, threshold sets and the
lock. A level at a comparator is given in ADC codes of the sensed signal. -/

namespace Sys2Proof.Machine

/-! ## Comparators (R88, R89, R94, R95, R108) -/

/-- The sensed level lies beyond the threshold of comparator `k` (R90: four codes to a DAC step). A level exactly at the threshold has not
crossed it (DESIGN CHOICE, notes/assumptions/136). -/
def Thr.beyond (t : Thr) (k : Cmp) (level : Nat) : Bool :=
  let thr := 4 * fld (t.cmp k) 0 10
  match k with
  | .uv => decide (level < thr)
  | _ => decide (thr < level)

/-- The sensed level has come back past the hysteresis of comparator `k` (R95). -/
def Thr.back (t : Thr) (k : Cmp) (level : Nat) : Bool :=
  let thr := 4 * fld (t.cmp k) 0 10
  let h := 4 * hystOf (t.cmp k)
  match k with
  | .uv => decide (thr + h < level)
  | _ => decide (level + h < thr)

/-- The threshold set that was in force on tick `t`: one replaced on that tick still judges its crossings (R397). -/
def Sense.thrOn (c : Sense) (t : Nat) : Thr := match c.was with | some (u, x) => if u = t then x else c.act | none => c.act

/-- The output of comparator `k` rises: the crossing has lasted FILT + 1 ticks (R94). A held output keeps its value (R108); a crossing
of the tick on which the set became active stands, and the hold follows it (R397). A comparator works from READY on: a trip or a release
before it is dropped, where R54 speaks of sampling alone (DESIGN CHOICE, notes/assumptions/137). -/
def State.cmpTrip (s : State) (n : Nat) (k : Cmp) (level held : Nat) : State :=
  let s := if s.chanRuns n then s.prior.armDue n else s
  let c := s.chan n
  let x := c.sense.cmp k
  let thr := c.sense.thrOn s.now
  if s.chanRuns n && !x.live && thr.beyond k level && decide (fld (thr.cmp k) 16 4 + 1 ≤ held) then
    let free := x.holdEnd.isNone || c.sense.was.any fun w => decide (w.1 = s.now)
    let s := s.modChan n fun c => { c with sense := c.sense.setCmp k { x with live := true, out := free || x.out } }
    if free && c.armed s.now k then (s.cmpEvent n k s.now).settle s.now else s
  else s

/-- Comparator `k` of channel `ch` trips. -/
def execComparatorTrip (ch : Nat) (k : Cmp) (level held : Nat) (s : State) : Host.Outcome State Fault Refusal :=
  .next (s.cmpTrip ch k level held)

/-- The output of comparator `k` falls. -/
def State.cmpRelease (s : State) (n : Nat) (k : Cmp) (level : Nat) : State :=
  let c := s.chan n
  let x := c.sense.cmp k
  if s.chanRuns n && x.live && c.sense.act.back k level then
    s.modChan n fun c => { c with sense := c.sense.setCmp k { x with live := false, out := x.out && x.holdEnd.isSome } }
  else s

/-- Comparator `k` of channel `ch` is released. -/
def execComparatorRelease (ch : Nat) (k : Cmp) (level : Nat) (s : State) : Host.Outcome State Fault Refusal :=
  .next (s.cmpRelease ch k level)

/-! ## Samples (R87, R92, R96 to R102) -/

/-- A sample enters the channel: latest values, histories, the samples since EN was asserted. `strobe` is the frame time it is
taken at. -/
def Sense.sample (c : Sense) (now strobe v i : Nat) : Sense :=
  let v := min 4095 v
  let i := min 4095 i
  { c with
    v := v, i := i, vh := (v :: c.vh).take 128, ih := (i :: c.ih).take 128, vt := (strobe :: c.vt).take 128
    nEn := if c.enNow now then incTo 17 c.nEn else c.nEn }

/-- Ticks between two sampling frames (R96, R489). -/
def State.framePer (s : State) : Nat := if s.pwr.rung == .autumn then 100 * max 1 (fld s.pwr.policy 4 4) else 100

/-- Of a cycle of numbers, how often one is not followed by a higher one. -/
def descents : List Nat → Nat → Nat
  | [], _ => 0
  | [a], first => b2n (decide (first ≤ a))
  | a :: b :: r, first => b2n (decide (b ≤ a)) + descents (b :: r) first

/-- The places in their frame at which the channels of an island are converted follow one another in the order of their slots (R96): the
frame may begin anywhere in the cycle. -/
def slotsInOrder (l : List Nat) : Bool := decide (descents l (l.headD 0) ≤ 1)

/-- The slot of the channel falls on the present tick: its samples lie whole frames apart, as the tick strobe paces them, and the slots of
its island are converted in their order within the frame (R96). Where its frames begin, and where in the frame a slot lies, is open, and
its first sample sets it (notes/assumptions/97). -/
def State.slotDue (s : State) (n : Nat) : Bool :=
  match (s.chan n).sense.vt with
  | t :: _ => decide (t < s.sys.strobe) && decide ((s.sys.strobe - t) % s.framePer = 0)
  | [] =>
    slotsInOrder ((List.range 8).filterMap fun j =>
      let m := 8 * islOf n + j
      if m = n then some (s.sys.strobe % 100) else (s.chan m).sense.vt.head?.map (· % 100))

/-- A sample joins the chunk in progress of a running recorder: voltage as signal j, IMON as signal 8 + j. Slot offsets count from the
slot-0 sample of the frame, taken on strobe `ref` (R357, R365); on an island whose slot 0 is idle the lowest slot in use stands for it
(`lead`; DESIGN CHOICE, notes/assumptions/138). -/
def Recorder.sample (r : Recorder) (lead : Bool) (j v i now strobe per : Nat) : Recorder :=
  let ref := if lead then some strobe else r.ref
  if r.on && !r.wait then
    { r with
      ref := ref
      slot0 := if lead then some (r.slot0.getD now) else r.slot0
      slotOfs := match ref with | some t => tset 0 r.slotOfs j ((strobe - t) % per) | none => r.slotOfs
      cur := tmod [] (tmod [] r.cur j fun l => v :: l) (8 + j) fun l => i :: l }
  else { r with ref := ref }

/-- The channel has the lowest slot in use of its island. -/
def State.leadSlot (s : State) (n : Nat) : Bool := (List.range (n % 8)).all fun j => !s.inUse (8 * islOf n + j)

/-- The probe takes the sample: means of the baseline, records of the step (R212). -/
def Probe.sample (p : Probe) (v i : Nat) : Probe :=
  if p.aborting then p
  else
    match p.phase with
    | .baseline => { p with baseV := (v :: p.baseV).take 256, baseI := (i :: p.baseI).take 256 }
    | .step => { p with recV := (v :: p.recV).take 2000, recI := (i :: p.recI).take 2000 }
    | _ => p

/-- A sample of channel `n` is stored, recorded, and judged against the measured window; DIS follows (R87, R101). -/
def State.takeSample (s : State) (n v i : Nat) : State :=
  let v := min 4095 v
  let i := min 4095 i
  { s with
    chans := tmod {} s.chans n fun c =>
      let c := { c with sense := c.sense.sample s.now s.sys.strobe v i, prb := c.prb.sample v i }
      { c with sense := { c.sense with meas := c.measGood v }.disUpd s.now (c.disWant s.safeNow) }
    bbx :=
      let b := s.bbx.roll (islOf n) s.now (s.pwr.rung == .autumn)
      { b with recs := tmod {} b.recs (islOf n) fun r =>
        r.sample (s.leadSlot n) (n % 8) v i s.now s.sys.strobe s.framePer } }

/-- The command changes a part of the good result of channel `n`: its pin or its measured window. -/
def goodPart (n : Nat) : Instr → Bool
  | .channelSample m _ _ => decide (m = n)
  | .pgPinChange m _ => decide (m = n)
  | _ => false

/-- The good result of channel `n` from its two parts, brought up to date; where the queue holds another change of a part for the same
tick, it is formed with that one, from both new values (R100, R102, notes/assumptions/98). -/
def State.goodUpd (s : State) (n stamp : Nat) : State :=
  let c := s.chan n
  if s.thisTick.any (goodPart n) then s else s.setGood n (goodOf (fld c.ch.cfg 2 2) c.pg c.sense.meas) stamp

/-- A sample of an engaged channel outside its limit band (R199, R216): a recorded one aborts the probe with BAND, MARGIN_LIMIT is
raised and the margin returns. -/
def State.bandCheck (s : State) (n v stamp : Nat) : State :=
  let c := s.chan n
  if c.engaged && !inBand c.limitBand v then
    (s.modChan n fun c => if c.prb.phase == .step then c.probeAbort 4 stamp else c).marginLimit n stamp
  else s

/-- What a sample, or a V_dis that moves past the latest one, does to a rail that was rolled back (R182): at or above V_dis it holds EN;
the first one below V_dis ends the hold, and a due tick that has passed gives way to the next tick. -/
def Rail.sampled (x : Rail) (below : Bool) (stamp : Nat) : Rail :=
  if !below then { x with hold := x.rolled }
  else if x.hold then
    { x with hold := false, due := x.due.map fun d => if d ≤ stamp then stamp + 1 else d
             timed := x.timed && x.due.all fun d => decide (stamp < d) }
  else x

/-- A sample below V_dis ends a discharge or lets a rail leave DISCHARGE_TIMEOUT (R130, R148). -/
def State.belowDis (s : State) (n stamp : Nat) : State :=
  let low := s.below n
  match s.rst n with
  | .discharging => if low then s.moveRail n (s.restOf n) (s.causeOf n) stamp else s
  | .dischargeTimeout => if low then s.moveRail n .off (s.causeOf n) stamp else s
  | _ => s.modRail n fun x => x.sampled low stamp

/-! ## Spring entry (R170 to R172, R184) -/

/-- The code of the sample taken at strobe `t`. -/
def Sense.sampleAt (c : Sense) (t : Nat) : Option Nat := ((c.vt.zip c.vh).find? fun e => decide (e.1 = t)).map (·.2)

/-- The code of the sample 16 µs before the latest one, where there is one. -/
def Sense.old16 (c : Sense) : Option Nat :=
  c.vt.head?.bind fun t => if 16 * tUs ≤ t then c.sampleAt (t - 16 * tUs) else none

/-- The predecessor test of R171 with the T_LEAD of the rail tested. -/
def Chan.springPred (c : Chan) (lead : Nat) : Bool :=
  let v := c.sense.v
  let good := fld c.sense.act.good 0 12
  let nom := fld c.sense.act.nom 0 12
  (c.rail.state == .ramping || c.rail.state == .qualifying) && decide (17 ≤ c.sense.nEn)
    && (decide (good ≤ v)
      || (decide (4 * nom ≤ 5 * v)
        && c.sense.old16.any fun old => decide (old + 4 ≤ v) && decide (8 * (good - v) ≤ 5 * (v - old) * lead)))

/-- A predecessor is GOOD as of stamp `t`: it is, or its qualification ends by then. -/
def State.goodBy (s : State) (p t : Nat) : Bool :=
  s.refGood p || (!isRemote p && (s.itemAt .qual (refNum p)).any fun e => decide (e ≤ t))

/-- The entry test of R170 of rail `r` as of stamp `t`: no shut-down or off request of that stamp is to come, no predecessor's start
timeout expires with it (R184), and EN is not held off (R182). -/
def State.springTest (s : State) (r t : Nat) : Bool :=
  let c := s.chan r
  !s.seq.springDis && s.pwr.rung == .summer && springOk c.rcfg && c.rail.state == .waiting && decide (c.rail.outcome = 0)
    && !c.rail.hold && !s.seq.offSinceOn && !s.eventDue t && !((s.preds r).all fun p => s.goodBy p t)
    && (s.preds r).all fun p => s.goodBy p t
      || (!isRemote p && (s.chan (refNum p)).springPred (fld c.rcfg.spring 16 10) && runsPast (s.chan (refNum p)).rail.startEnd t)

/-- Rail `r` enters SPRING at `stamp` where its entry test passes; OUTCOME reads ACTIVE (R172, R177). -/
def State.springTry (s : State) (r stamp : Nat) : State :=
  if s.springTest r stamp then
    let s := (s.moveRail r .spring 0 stamp).modRail r fun x => { x with outcome := 1 }
    { s with seq := { s.seq with nEnter := incTo 255 s.seq.nEnter } }
  else s

/-- A sample of channel `n` has been taken on the present tick. -/
def State.sampledNow (s : State) (n : Nat) : Bool := decide ((s.chan n).sense.vt.head? = some s.sys.strobe)

/-- At the end of a tick the entry tests of the rails are judged whose predecessors were sampled on it: over everything that carries the
stamp (R172, R184). -/
def State.springPass (s : State) : State :=
  if s.running && s.chans.any fun e => s.sampledNow e.1 then
    ((s.rails.filter fun r => (s.preds r).any fun p => !isRemote p && s.sampledNow (refNum p)).foldl
      (fun s r => s.springTry r s.now) s.prior).settle s.now
  else s

/-- A sample of channel `n` at the present tick. In S5, and in a reload from recovery mode, it is only stored (R54); the slot of a
channel not in use stays idle (R97). The entry tests it may complete are judged at the end of its tick (`springPass`). -/
def State.chanSample (s : State) (n v i : Nat) : State :=
  if !s.slotDue n then s
  else if (s.sys.phase == .s5 || s.reloading) && !s.running && s.ctrlUp && s.inUse n && !s.islLost (islOf n) then
    s.modChan n fun c => { c with sense := c.sense.sample s.now s.sys.strobe v i }
  else if s.chanRuns n then
    let t := s.now
    let v' := min 4095 v
    let s := ((s.prior.takeSample n v i).goodUpd n t).bandCheck n v' t
    ((s.belowDis n t).stopPass t).settle t
  else s

/-- A sample of channel `ch` completes. -/
def execChannelSample (ch v i : Nat) (s : State) : Host.Outcome State Fault Refusal := .next (s.chanSample ch v i)

/-- The synchronised CHn_PG changes to a level (R82, R100): the pin is followed in every phase, the good result while the channel
works. -/
def State.pgChange (s : State) (n : Nat) (level : Bool) : State :=
  if n < nCh s.hw.variant then
    let s := s.modChan n fun c => { c with sense := { c.sense with pgPin := level } }
    if s.chanRuns n then (s.prior.goodUpd n s.now).settle s.now else s
  else s

/-- The power-good pin of channel `ch` changes. -/
def execPgPinChange (ch : Nat) (level : Bool) (s : State) : Host.Outcome State Fault Refusal := .next (s.pgChange ch level)

/-! ## Threshold sets (R105 to R107, R202) -/

/-- Field bits of a threshold register, by its place in the set. -/
def thrMask (reg : Nat) : Word :=
  match reg with
  | 3 => 0x0FFF0FFF#32
  | 4 => 0x00000FFF#32
  | 5 => 0x03FF0FFF#32
  | _ => 0x000F73FF#32

/-- The threshold set with one register written: 0 OV, 1 UV, 2 OC, 3 GOOD, 4 NOM, 5 VDIS. -/
def Thr.put (t : Thr) (reg : Nat) (w : Word) : Thr :=
  let w := w &&& thrMask reg
  match reg with
  | 0 => { t with ov := w }
  | 1 => { t with uv := w }
  | 2 => { t with oc := w }
  | 3 => { t with good := w }
  | 4 => { t with nom := w }
  | _ => { t with vdis := w }

/-- A threshold register of channel `n` is written: the staging copy, unless the channel is locked (R105, R109). -/
def State.stageThr (s : State) (n reg : Nat) (w : Word) : State :=
  s.modChan n fun c => { c with sense := { c.sense with stg := if c.sense.locked then c.sense.stg else c.sense.stg.put reg w } }

/-- A threshold register of channel `ch` is written. -/
def execThresholdStageWrite (ch reg : Nat) (value : BitVec 32) (s : State) : Host.Outcome State Fault Refusal :=
  .next (if reg < 6 then s.chHost ch (4 + 4 * reg) .operator fun s _ => s.stageThr ch reg value else s)

/-- The range check of R106. -/
def Thr.rangeBad (t : Thr) : Bool :=
  decide (4 < fld t.ov 12 3) || decide (4 < fld t.uv 12 3) || decide (4 < fld t.oc 12 3)
    || decide (fld t.vdis 16 10 = 0) || decide (1000 < fld t.vdis 16 10) || decide (fld t.nom 0 12 = 0)

/-- The order check of R106. -/
def Thr.orderBad (t : Thr) : Bool :=
  let lo := fld t.good 0 12
  let hi := fld t.good 16 12
  let nom := fld t.nom 0 12
  !(decide (4 * fld t.uv 0 10 < lo) && decide (lo ≤ nom) && decide (nom ≤ hi) && decide (hi < 4 * fld t.ov 0 10))
    || decide (lo ≤ fld t.vdis 0 12)

/-- Rail states that refuse an apply (R106). -/
def RailState.noApply : RailState → Bool
  | .spring | .ramping | .qualifying | .retryWait | .stopping | .discharging => true
  | _ => false

/-- CODE of an apply: 0, or the first failing check (R106). -/
def Chan.applyCheck (c : Chan) : Nat :=
  let t := c.sense.stg
  if t.rangeBad then 1 else if t.orderBad then 2 else if c.rail.state.noApply then 3 else if c.sense.locked then 4 else 0

/-- A comparator under a new threshold set: its output is held for 100 ticks where its threshold changed (R108). -/
def CmpSt.applied (x : CmpSt) (old new : Word) (now : Nat) : CmpSt :=
  if fld old 0 10 = fld new 0 10 then x else { x with holdEnd := some (now + 100) }

/-- The target of an engaged channel under its new set: a clamped one is computed afresh, any other moved to the edge of the
clamp band it now lies outside of (R202). Where the band is empty the manual states no target (notes/assumptions/23). -/
def Chan.retarget (c : Chan) : Chan :=
  if c.mgn.st == .nominal || c.mode ≤ 1 then c
  else
    let x : Int := if c.mgn.clamped then c.pctCode c.mgn.pct else (c.mgn.target : Int)
    let t := c.clampCode x
    let tgt := if c.bandEmpty then Config.beyondRange x % 4096 else t.1.toNat
    { c with mgn := { c.mgn with target := tgt, clamped := t.2 || c.bandEmpty } }

/-- The channel with threshold set `t` made active at `now`. -/
def Chan.applyThr (c : Chan) (t : Thr) (now : Nat) (safe : Bool) : Chan :=
  let old := c.sense.act
  let x := { c.sense with
    act := t, stg := t, was := some (now, old)
    ov := c.sense.ov.applied old.ov t.ov now, uv := c.sense.uv.applied old.uv t.uv now, oc := c.sense.oc.applied old.oc t.oc now }
  let c := { c with sense := x, rail := c.rail.sampled (decide (c.sense.v < vDis t)) now }
  { c with sense := c.sense.disUpd now (c.disWant safe) }.retarget

/-- CH_APPLY.APPLY (R106, R107). -/
def State.chApply (s : State) (n : Nat) : State :=
  s.modChan n fun c =>
    if c.sense.stg = c.sense.act then c
    else
      match c.applyCheck with
      | 0 =>
        let c := c.applyThr c.sense.stg s.now s.safeNow
        { c with sense := { c.sense with applyCode := 0, irq := Irq.set c.sense.irq 4 } }
      | k => { c with sense := { c.sense with applyCode := k, irq := Irq.set c.sense.irq 5 } }

/-- APPLY, and the servo update of its tick, which uses the new bands (R223); that of an apply tick of a run-time replacement comes with
the replacement. -/
def State.chApplyServo (s : State) (n : Nat) : State := if s.rtNow then s.chApply n else (s.chApply n).servoDue n

/-- APPLY of channel `ch` is written. -/
def execChApply (ch : Nat) (s : State) : Host.Outcome State Fault Refusal :=
  .next (s.chHost ch 0x20 .operator fun s _ => s.chApplyServo ch)

/-- CH_APPLY.DISCARD (R107). -/
def State.chDiscard (s : State) (n : Nat) : State :=
  s.modChan n fun c => { c with sense := { c.sense with stg := c.sense.act } }

/-- DISCARD of channel `ch` is written. -/
def execChDiscard (ch : Nat) (s : State) : Host.Outcome State Fault Refusal :=
  .next (s.chHost ch 0x20 .operator fun s _ => s.chDiscard ch)

/-! ## The lock (R109) -/

/-- CH_LOCK.KEY is written: 0x3A61 begins the sequence, 0x613A before 10 µs have passed completes it, anything else
breaks it (R109, R137). -/
def Sense.lockKey (c : Sense) (key now : Nat) : Sense :=
  match c.lockAt with
  | some t =>
    if key = 0x613A ∧ now < t + 10 * tUs then { c with locked := true, lockAt := none }
    else { c with lockAt := if key = 0x3A61 then some now else none }
  | none => { c with lockAt := if key = 0x3A61 then some now else none }

/-- CH_LOCK of channel `n` is written. -/
def State.chLock (s : State) (n key : Nat) : State :=
  s.modChan n fun c => { c with sense := c.sense.lockKey key s.now }

/-- CH_LOCK of channel `ch` is written. -/
def execChLockKey (ch : Nat) (key : BitVec 16) (s : State) : Host.Outcome State Fault Refusal :=
  .next (s.byHost (chReg ch 0x24) .operator fun _ => if s.inUse ch then s.chLock ch key.toNat else s)

/-- 10 µs have passed since the first key. -/
def execChLockPairTimeout (ch : Nat) (s : State) : Host.Outcome State Fault Refusal :=
  .next (s.modChan ch fun c => { c with sense := { c.sense with lockAt := c.sense.lockAt.filter fun t => decide (s.now < t + 10 * tUs) } })

end Sys2Proof.Machine
end

