-- ==== Sys2Proof/Machine/Store.lean ====
section
/-! DEFINITION. The ENV store (10): lines and their markers, the checks of a line that is read, regions, and host access to
lines. What a check finds on a line is an operand of the command that reads it. -/

namespace Sys2Proof.Machine

/-! ## Lines (R333) -/

/-- Bytes stored from address `a` on. -/
def putBytes : Tab Byte → Nat → List Byte → Tab Byte
  | c, _, [] => c
  | c, a, b :: r => putBytes (tset 0 c a b) (a + 1) r

/-- The byte at address `a` as a read of its line gives it: a blank line reads 0. -/
def Env.byteAt (e : Env) (a : Nat) : Byte := if tget false e.marked (a / 64 * 64) then tget 0 e.cells a else 0

/-- `n` bytes from address `a`. -/
def Env.bytes (e : Env) (a n : Nat) : List Byte := (List.range n).map fun i => e.byteAt (a + i)

/-- The 64 bytes of the line at `a`. -/
def Env.lineAt (e : Env) (a : Nat) : List Byte := e.bytes a 64

/-- The line at `a` is written: its bytes, then its marker. -/
def Env.putLine (e : Env) (a : Nat) (bs : List Byte) : Env :=
  { e with cells := putBytes e.cells a ((bs ++ List.replicate 64 0).take 64), marked := tset false e.marked a true }

/-- The markers of the lines from `lo` up to `hi` are cleared. -/
def Env.clearLines (e : Env) (lo hi : Nat) : Env :=
  { e with marked := e.marked.filter fun x => !(decide (lo ≤ x.1) && decide (x.1 < hi)) }

/-- Addresses of the written lines from `lo` up to `hi`. -/
def Env.linesIn (e : Env) (lo hi : Nat) : List Nat := (e.marked.map (·.1)).filter fun a => decide (lo ≤ a) && decide (a < hi)

/-! ## Regions (R336) -/

/-- The regions. -/
inductive Region where
  | slotA | slotB | journal | bbx | security | user | reserved
  deriving DecidableEq, Repr

/-- The address a region ends before. -/
def regionEnd (v : Variant) : Region → Nat
  | .slotA => match v with | .dz128 => 0x200000 | .dz32 => 0x80000
  | .slotB => match v with | .dz128 => 0x400000 | .dz32 => 0x100000
  | .journal => match v with | .dz128 => 0xA00000 | .dz32 => 0x280000
  | .bbx => match v with | .dz128 => 0xE00000 | .dz32 => 0x380000
  | .security => match v with | .dz128 => 0xE40000 | .dz32 => 0x3C0000
  | .user => match v with | .dz128 => 0xF40000 | .dz32 => 0x400000
  | .reserved => match v with | .dz128 => 0x1000000 | .dz32 => 0x400000

/-- The address a region begins at. -/
def regionBase (v : Variant) : Region → Nat
  | .slotA => 0
  | .slotB => regionEnd v .slotA
  | .journal => regionEnd v .slotB
  | .bbx => regionEnd v .journal
  | .security => regionEnd v .bbx
  | .user => regionEnd v .security
  | .reserved => regionEnd v .user

/-- The region of an address of the store. -/
def regionOf (v : Variant) (a : Nat) : Region :=
  if a < regionEnd v .slotA then .slotA
  else if a < regionEnd v .slotB then .slotB
  else if a < regionEnd v .journal then .journal
  else if a < regionEnd v .bbx then .bbx
  else if a < regionEnd v .security then .security
  else if a < regionEnd v .user then .user
  else .reserved

/-! ## Checked reads (R334) -/

/-- The check that fails on the line at `a`: SEC-DED before the tag. -/
def flawAt (f : LineFlaws) (a : Nat) : Option Flaw :=
  let on (k : Flaw) := f.any fun x => x.1 == a && x.2 == k
  if on .ecc then some .ecc else if on .tag then some .tag else none

/-- How many words of the line at `a` are corrected. -/
def corrAt (f : LineFlaws) (a : Nat) : Nat := (f.filter fun x => x.1 == a && x.2 == .corrected).length

/-- What a read of the line at `a` finds; a blank line is not checked. -/
def Env.check (e : Env) (f : LineFlaws) (a : Nat) : Option Flaw := if tget false e.marked a then flawAt f a else none

/-- The counts of ENV_ERR after a read of the line at `a`; a failure sets CHK. -/
def Env.note (e : Env) (f : LineFlaws) (a : Nat) : Env :=
  if tget false e.marked a then
    { e with
      corr := addTo 0xFF e.corr (corrAt f a)
      ecc := if flawAt f a = some .ecc then incTo 0xFF e.ecc else e.ecc
      tag := if flawAt f a = some .tag then incTo 0xFF e.tag else e.tag
      irq := if (flawAt f a).isSome then Irq.set e.irq 3 else e.irq }
  else e

/-- The source of a failed check. -/
def flawSrc : Flaw → Nat
  | .tag => 1049
  | _ => 1050

/-- A line is read at the present tick: its counts, and the source of a failed check raised (R334). -/
def State.readLine (s : State) (f : LineFlaws) (a : Nat) : State :=
  let t := { s with env := s.env.note f a }
  match s.env.check f a with
  | some k => t.report (flawSrc k) s.now
  | none => t

/-- A source kept until READY or recovery mode is reached, once each (R349, R376). -/
def Sys.deferSrc (y : Sys) (i : Nat) : Sys := { y with deferred := if y.deferred.contains i then y.deferred else y.deferred ++ [i] }

/-- A line is read during start-up: the source of a failed check is kept (R349, R376). -/
def State.readEarly (s : State) (f : LineFlaws) (a : Nat) : State :=
  { s with env := s.env.note f a
           sys := match s.env.check f a with | some k => s.sys.deferSrc (flawSrc k) | none => s.sys }

/-! ## Host access (R337 to R339) -/

/-- ENV_ACC_CMD commands. -/
inductive AccCmd where
  | read | full | part
  deriving DecidableEq, Repr

/-- The least level for a command in a region; none where the region refuses it to all (R337). -/
def accLevel : Region → AccCmd → Option Level
  | .slotA, .read | .slotB, .read | .journal, .read | .bbx, .read => some .operator
  | .slotA, _ | .slotB, _ => some .owner
  | .user, .read => some .user
  | .user, _ => some .operator
  | _, _ => none

/-- The slot named by SYS_BOOT_STAT.SLOT holds address `a`. -/
def State.activeSlot (s : State) (a : Nat) : Bool :=
  match regionOf s.hw.variant a with
  | .slotA => decide (s.sys.slot = 1)
  | .slotB => decide (s.sys.slot = 2)
  | _ => false

/-- The refusal code of a line command, 0 for none, in the order BUSY, RANGE, PERM, SESSION, ACTIVE (notes/assumptions/33). -/
def State.accRefusal (s : State) (c : AccCmd) (l : Level) : Nat :=
  let a := s.env.accAddr
  if s.env.acc.isSome then 8
  else if a % 64 ≠ 0 ∨ envSize s.hw.variant ≤ a then 7
  else
    match accLevel (regionOf s.hw.variant a) c with
    | none => 4
    | some m => if !l.ge m then 6 else if c ≠ .read && s.activeSlot a then 5 else 0

/-- The buffer as bytes. -/
def Env.bufBytes (e : Env) : List Byte := (List.range 64).map (tget 0 e.buf)

/-- The bytes of the line with those the mask names taken from the buffer. -/
def Env.merged (e : Env) (old : List Byte) : List Byte :=
  (List.range 64).map fun i => if e.accMask.testBit i then tget 0 e.buf i else old.getD i 0

/-- READ: the buffer takes the checked line. -/
def State.accRead (s : State) (f : LineFlaws) : State :=
  let a := s.env.accAddr
  let k := s.env.check f a
  let code := if !tget false s.env.marked a then 1 else match k with | some .tag => 2 | some _ => 3 | none => 0
  let line := if k = some .ecc then List.replicate 64 0 else s.env.lineAt a
  let s := s.readLine f a
  { s with env := { s.env with buf := putBytes [] 0 line, accCode := code, irq := Irq.set s.env.irq 4 } }

/-- A write of the line begins, once its bank is granted (R335). -/
def State.accBegin (s : State) (bs : List Byte) : State :=
  { s with env := { s.env with accCode := 0, acc := some { line := s.env.accAddr, bytes := bs } }.grant s.hw.variant s.now }

/-- WRITE_FULL or WRITE_PART: the old line is read first. A failing line refuses WRITE_PART, and WRITE_FULL below OWNER. -/
def State.accWrite (s : State) (full : Bool) (l : Level) (f : LineFlaws) : State :=
  let a := s.env.accAddr
  let bs := if full then s.env.bufBytes else s.env.merged (s.env.lineAt a)
  let k := s.env.check f a
  let s := s.readLine f a
  match k with
  | some k => if full && l.ge .owner then s.accBegin bs else { s with env := { s.env with accCode := if k = .tag then 2 else 3 } }
  | none => s.accBegin bs

/-- A write of ENV_ACC_CMD from a session of level `l`. -/
def State.accCmd (s : State) (c : AccCmd) (l : Level) (f : LineFlaws) : State :=
  match s.accRefusal c l with
  | 0 =>
    (match c with
     | .read => s.accRead f
     | .full => s.accWrite true l f
     | .part => s.accWrite false l f).settle s.now
  | k => { s with env := { s.env with accCode := k } }

/-- A write of ENV_ACC_CMD by the open session: its STATUS is CODE where the recorded code is not 0, which DETAIL then carries (R339,
R440). -/
def State.accHost (s : State) (c : AccCmd) (l : Level) (f : LineFlaws) : State :=
  let t := s.accCmd c l f
  t.answerOk s.now (if t.env.accCode = 0 then 0 else 9) t.env.accCode []

/-- ENV_ACC_CMD READ. -/
def execEnvRead (flaws : LineFlaws) (s : State) : Host.Outcome State Fault Refusal :=
  .next (s.byHost 0x70034 .user fun l => s.accHost .read l flaws)

/-- ENV_ACC_CMD WRITE_FULL. -/
def execEnvWriteFull (flaws : LineFlaws) (s : State) : Host.Outcome State Fault Refusal :=
  .next (s.byHost 0x70034 .user fun l => s.accHost .full l flaws)

/-- ENV_ACC_CMD WRITE_PART. -/
def execEnvWritePart (flaws : LineFlaws) (s : State) : Host.Outcome State Fault Refusal :=
  .next (s.byHost 0x70034 .user fun l => s.accHost .part l flaws)

/-- The marker of a host line write is written, 20 µs after its bank was granted: BUSY clears, ACC_DONE is set, a record that waits
for the bank goes on (R333, R335, R338). -/
def State.accDone (s : State) : State :=
  match s.env.acc with
  | some o =>
    match o.granted.filter fun g => s.ctrlUp && decide (g + lineTime ≤ s.now) with
    | some g =>
      { s with env := ({ s.env.putLine o.line o.bytes with acc := none, irq := Irq.set s.env.irq 4 }).grant s.hw.variant (g + lineTime) }
    | none => s
  | none => s

/-- A host line write ends. -/
def execEnvLineWriteDone (s : State) : Host.Outcome State Fault Refusal := .next s.accDone

end Sys2Proof.Machine
end

