-- ==== Sys2Proof/Machine/Journal.lean ====
section
/-! DEFINITION. The journal and the black box's commands (10): records as lines, replay, appending, harvest, the reader,
captures. -/

namespace Sys2Proof.Machine

/-! ## Lines of the journal region (R340, R341) -/

/-- First address of checkpoint segment `k`. -/
def ckBase (v : Variant) (k : Nat) : Nat := jrnlBase v + k * ckLines v * 64

/-- A record as a line. -/
def recLine (run seq : Nat) (r : JRec) : List Byte :=
  lineOf [(0, leBytes 1 r.typ), (1, leBytes 1 r.arg), (2, leBytes 2 run), (4, leBytes 4 seq), (8, leBytes 8 r.stamp),
    (16, r.payload)]

/-- TYPE of a line. -/
def lTyp (l : List Byte) : Nat := leAt l 0 1
/-- ARG of a line. -/
def lArg (l : List Byte) : Nat := leAt l 1 1
/-- RUN of a line. -/
def lRun (l : List Byte) : Nat := leAt l 2 2
/-- SEQ of a line. -/
def lSeq (l : List Byte) : Nat := leAt l 4 4
/-- STAMP of a line. -/
def lStamp (l : List Byte) : Nat := leAt l 8 8

/-- A line put in its place by SEQ. -/
def seqIns (x : List Byte) : List (List Byte) → List (List Byte)
  | [] => [x]
  | y :: r => if lSeq x < lSeq y then x :: y :: r else y :: seqIns x r

/-- Lines by rising SEQ. -/
def bySeq (l : List (List Byte)) : List (List Byte) := l.foldl (fun a x => seqIns x a) []

/-- Addresses of the written log lines. -/
def Env.logLinesIn (e : Env) (v : Variant) : List Nat := e.linesIn (ckBase v 2) (regionEnd v .journal)

/-! ## Checkpoints (R342, R347) -/

/-- NLINES that the head of segment `k` gives, kept within the segment. -/
def Env.ckCount (e : Env) (v : Variant) (k : Nat) : Nat := min (ckLines v) (leAt (e.lineAt (ckBase v k)) 24 2)

/-- Addresses of the lines of segment `k` that its validity is judged on. -/
def Env.ckAddrs (e : Env) (v : Variant) (k : Nat) : List Nat :=
  if lTyp (e.lineAt (ckBase v k)) = 0x7E then (List.range (max 1 (e.ckCount v k))).map fun i => ckBase v k + 64 * i
  else [ckBase v k]

/-- Checkpoint segment `k` is valid. -/
def Env.ckValid (e : Env) (v : Variant) (f : LineFlaws) (k : Nat) : Bool :=
  let n := e.ckCount v k
  let head := e.lineAt (ckBase v k)
  let last := e.lineAt (ckBase v k + 64 * (n - 1))
  decide (lTyp head = 0x7E) && decide (2 ≤ n) && decide (lTyp last = 0x7F) && decide (leAt last 16 4 = leAt head 16 4)
    && (e.ckAddrs v k).all fun a => tget false e.marked a && (e.check f a).isNone

/-- GEN of segment `k`. -/
def Env.ckGen (e : Env) (v : Variant) (k : Nat) : Nat := leAt (e.lineAt (ckBase v k)) 16 4

/-- The records of segment `k` by SEQ. -/
def Env.ckRecs (e : Env) (v : Variant) (k : Nat) : List (List Byte) :=
  bySeq ((List.range (e.ckCount v k - 2)).map fun i => e.lineAt (ckBase v k + 64 * (i + 1)))

/-- The lines of a checkpoint. -/
def ckImage (gen base : Nat) (recs : List (List Byte)) : List (List Byte) :=
  let n := recs.length + 2
  [lineOf [(0, [0x7E#8]), (16, leBytes 4 gen), (20, leBytes 4 base), (24, leBytes 2 n)]] ++ recs
    ++ [lineOf [(0, [0x7F#8]), (16, leBytes 4 gen), (20, leBytes 2 n)]]

/-- Lines written one after another from address `a`. -/
def Env.putLines (e : Env) (a : Nat) : List (List Byte) → Env
  | [] => e
  | l :: r => (e.putLine a l).putLines (a + 64) r

/-- Segment `k` is cleared and written. -/
def Env.ckWrite (e : Env) (v : Variant) (k gen base : Nat) (recs : List (List Byte)) : Env :=
  (e.clearLines (ckBase v k) (ckBase v (k + 1))).putLines (ckBase v k) (ckImage gen base recs)

/-! ## What replay restores (R348, R530) -/

/-- The newest record of given types. -/
def newest (recs : List (List Byte)) (types : List Nat) : Option (List Byte) :=
  (recs.filter fun l => types.contains (lTyp l)).getLast?

/-- A commit record's content. -/
def commitOf (l : List Byte) : Commit :=
  { epoch := leAt l 16 4, drained := leAt l 20 2, aborted := leAt l 22 2, trig := leAt l 24 1, end_ := leAt l 25 1
    ride := decide (leAt l 26 1 = 1), stamp := lStamp l }

/-- A COUNT record gives its channel's leaves back; all ones restores a leaf as invalid. -/
def Cnt.restore (c : Cnt) (l : List Byte) : Cnt :=
  (List.range 8).foldl (fun c j =>
    let v := leAt l (16 + 6 * j) 6
    let k := 8 * lArg l + j
    { c with leaf := tset 0 c.leaf k (if v = leafMax then 0 else v), inv := tset false c.inv k (decide (v = leafMax)) }) c

/-- Totals as the sums of the valid leaves beneath them. -/
def Cnt.totals (c : Cnt) : Cnt :=
  c.leaf.foldl (fun c e =>
    let ik := 8 * (e.1 / 64) + e.1 % 8
    { c with isl := tset 0 c.isl ik (tget 0 c.isl ik + e.2), dev := tset 0 c.dev (e.1 % 8) (tget 0 c.dev (e.1 % 8) + e.2) })
    { c with isl := [], dev := [], islInv := [], devInv := [] }

/-- A TREND or BASE_RESET record applied to the probe of its channel. -/
def Probe.restore (p : Probe) (l : List Byte) : Probe :=
  if lTyp l = 0x0B then { p with base := [] }
  else
    let n := leAt l 34 1
    { p with
      dv := leAt l 16 2, zout := leAt l 20 4, fc := leAt l 24 2, pm := leAt l 26 1, fitQ := leAt l 27 1
      lastHours := leAt l 28 4, nqual := leAt l 32 2, anom := leAt l 35 1
      base := if 1 ≤ n ∧ n ≤ 4 ∧ p.base.length < 4 then p.base ++ [(leAt l 20 4, leAt l 24 2, leAt l 26 1)] else p.base }

/-- A BBX or BBX_REL record applied. -/
def Bbx.restore (b : Bbx) (l : List Byte) : Bbx :=
  let num := leAt l 16 4
  if lTyp l = 0x0E then (if b.protNum = num then { b with protNum := 0, protAddr := 0, protLines := 0 } else b)
  else
    let prot := decide (leAt l 29 1 % 2 = 1)
    { b with
      lastNum := num, lastAddr := leAt l 20 4, lastLines := leAt l 24 4
      lastInfo := wpack [(0, 3, leAt l 28 1), (3, 2, leAt l 29 1), (16, 16, leAt l 30 2)]
      protNum := if prot then num else b.protNum
      protAddr := if prot then leAt l 20 4 else b.protAddr
      protLines := if prot then leAt l 24 4 else b.protLines }

/-- One record applied. -/
def State.applyRec (s : State) (l : List Byte) : State :=
  match lTyp l with
  | 0x02 => { s with hld := { s.hld with persist := leAt l 16 4 } }
  | 0x03 => { s with hld := { s.hld with persist := leAt l 16 4, last := some (commitOf l) } }
  | 0x01 => { s with env := { s.env with run := leAt l 28 4, hours := leAt l 24 4 } }
  | 0x0C => { s with env := { s.env with hours := leAt l 16 4 } }
  | 0x08 => { s with cnt := s.cnt.restore l }
  | 0x09 | 0x0B => s.modChan (lArg l) fun c => { c with prb := c.prb.restore l }
  | 0x0A => { s with hs := { s.hs with capSaved := if leAt l 18 1 ≤ 1 then some (leAt l 16 2) else s.hs.capSaved } }
  | 0x0D | 0x0E => { s with bbx := s.bbx.restore l }
  | _ => s

/-- FLT_PREV and its companions from the records of the previous run (R283, R348). -/
def State.prevFault (s : State) (recs : List (List Byte)) : State :=
  let rst := s.sys.rstCause
  let fromRst := b2n (rst.testBit 2) * 2 + b2n (rst.testBit 1) * 8
  match newest recs [0x01] with
  | none => { s with flt := { s.flt with prev := wpack [(20, 5, fromRst)], prevCo := 0, prevTs := 0 } }
  | some st =>
    let mine := recs.filter fun l => lRun l = lRun st
    let rec_ := match newest mine [0x04] with | some l => some (l, lStamp l) | none => (newest mine [0x06]).map fun l => (l, leAt l 24 8)
    let ff := match rec_ with | some l => w32 (leAt l.1 16 4) | none => 0
    let react := match rec_, newest mine [0x05] with
      | some _, some l => leAt l 16 1
      | _, _ => fld ff 16 3
    let priv := (mine.filter fun l => lTyp l = 0x07).foldl (fun p l => Nat.lor p (2 ^ (leAt l 16 1 - 1))) fromRst
    { s with flt := { s.flt with
      prev := wpack [(0, 16, fld ff 0 16), (16, 3, react), (19, 1, b2n (newest mine [0x06]).isSome), (20, 5, priv),
        (31, 1, b2n rec_.isSome)]
      prevCo := match rec_ with | some l => w32 (leAt l.1 20 4) | none => 0
      prevTs := match rec_ with | some l => l.2 | none => 0 } }

/-- A gap stands in the log records above BASE: a line that fails, or a SEQ that is not the next (R347). -/
def gapIn (next : Nat) : List (List Byte × Bool) → Bool
  | [] => false
  | (l, bad) :: r => if bad then true else if lSeq l ≠ next then true else gapIn (lSeq l + 1) r

/-- A log line with whether it fails its check, put in its place by SEQ. -/
def pairIns (x : List Byte × Bool) : List (List Byte × Bool) → List (List Byte × Bool)
  | [] => [x]
  | y :: r => if lSeq x.1 < lSeq y.1 then x :: y :: r else y :: pairIns x r

/-- The log line after the last good record, where the next one goes (notes/assumptions/35). -/
def Env.nextLine (e : Env) (v : Variant) (f : LineFlaws) : Nat :=
  let good := (e.logLinesIn v).filter fun a => (e.check f a).isNone
  match (good.foldl (fun (b : Option (Nat × Nat)) a =>
      let q := lSeq (e.lineAt a)
      match b with | some x => if x.1 < q then some (q, a) else b | none => some (q, a)) none) with
  | some x => ((x.2 - logAddr v 0) / 64 + 1) % logLines v
  | none => 0

/-- An empty journal with its genesis checkpoint, in CK0. -/
def State.genesis (s : State) (code : Nat) : State :=
  let v := s.hw.variant
  let e := (s.env.clearLines (regionBase v .journal) (regionEnd v .journal)).ckWrite v 0 1 0 []
  { s with env := { e with gen := 1, base := 0, ckpt := 0, jseq := 0, jline := 0 }
           sys := { s.sys with jrnl := code }
           hld := { s.hld with persist := noEpoch } }

/-- Replay (R347). -/
def State.replay (s : State) (f : LineFlaws) : State :=
  let v := s.hw.variant
  if (s.env.linesIn (regionBase v .journal) (regionEnd v .journal)).isEmpty then (s.genesis 1).prevFault []
  else
    let s := (s.env.ckAddrs v 0 ++ s.env.ckAddrs v 1).foldl (fun s a => s.readEarly f a) s
    let ok := [0, 1].filter (s.env.ckValid v f)
    match (if ok.length = 2 ∧ s.env.ckGen v 0 < s.env.ckGen v 1 then some 1 else ok.head?) with
    | none => (s.genesis 2).prevFault []
    | some k =>
      let base := leAt (s.env.lineAt (ckBase v k)) 20 4
      let addrs := s.env.logLinesIn v
      let s := addrs.foldl (fun s a => s.readEarly f a) s
      let log := (addrs.map fun a => (s.env.lineAt a, (s.env.check f a).isSome)).filter fun x => decide (base < lSeq x.1)
      let log := log.foldl (fun a x => pairIns x a) []
      let recs := s.env.ckRecs v k ++ ((log.filter fun x => !x.2).map (·.1))
      let gap := gapIn (base + 1) log
      let top := recs.foldl (fun m l => max m (lSeq l)) base
      let s := { s with env := { s.env with gen := s.env.ckGen v k, base := base, ckpt := k, jseq := top, jline := s.env.nextLine v f } }
      let s := (recs.foldl State.applyRec s).prevFault recs
      { s with
        sys := { s.sys with jrnl := if gap then 2 else 0 }
        hld := { s.hld with persist := if gap then noEpoch else s.hld.persist } }

/-! ## Harvest (R350 to R353) -/

/-- A harvest begins: the segment not in use is cleared. -/
def State.harvestBegin (s : State) : State :=
  let v := s.hw.variant
  let k := 1 - s.env.ckpt
  { s with env := { s.env.clearLines (ckBase v k) (ckBase v (k + 1)) with harvest := some s.env.jseq, harvRetry := false } }

/-- A harvest begins where SEG_USED, which was `before`, has reached 69 (R350), or increases after a failed one (R353). -/
def State.harvestAuto (s : State) (before : Nat) : State :=
  let u := s.segUsed
  let due := if s.env.harvRetry then decide (before < u) else decide (before < 69) && decide (69 ≤ u)
  if s.env.harvest.isNone && due then s.harvestBegin else s

/-- Replay ends S3: the START record is queued (R67), the totals are formed (R530), S4 begins. -/
def State.replayDone (s : State) (f : LineFlaws) : State :=
  if s.sys.phase == .s3 && s.sys.mainClock && !s.sys.vauxDown then
    let s := s.replay f
    let s := { s with
      sys := { s.sys with phase := .s4 }
      env := { s.env with run := s.env.run + 1, countDirty := [] }
      cnt := s.cnt.totals }
    let s := s.record 1 0x01 0 s.now
      [(16, leBytes 4 s.sys.rstCause), (20, leBytes 1 s.sys.jrnl), (24, leBytes 4 s.env.hours), (28, leBytes 4 s.env.run)]
    s.harvestAuto 0
  else s

/-- S3 completes. -/
def execJournalReplayDone (flaws : LineFlaws) (s : State) : Host.Outcome State Fault Refusal := .next (s.replayDone flaws)

/-- A record with its address put in its place by SEQ. -/
def heldIns (x : Nat × List Byte) : List (Nat × List Byte) → List (Nat × List Byte)
  | [] => [x]
  | y :: r => if lSeq x.2 < lSeq y.2 then x :: y :: r else y :: heldIns x r

/-- The records the log and the current checkpoint hold, with their addresses, by SEQ; one that both hold is taken from the log
(R354). -/
def Env.held (e : Env) (v : Variant) : List (Nat × List Byte) :=
  let log := ((e.logLinesIn v).map fun a => (a, e.lineAt a)).filter fun x => decide (lSeq x.2 ≠ 0)
  let ck := (List.range (e.ckCount v e.ckpt - 2)).map fun i =>
    let a := ckBase v e.ckpt + 64 * (i + 1)
    (a, e.lineAt a)
  (log ++ ck.filter fun x => !log.any fun y => decide (lSeq x.2 = lSeq y.2)).foldl (fun a x => heldIns x a) []

/-- The held records that pass their checks: the others can't be read (notes/assumptions/114). -/
def Env.readable (e : Env) (v : Variant) (f : LineFlaws) : List (Nat × List Byte) := (e.held v).filter fun x => (e.check f x.1).isNone

/-- A capture's record of `later` records releases capture `num`. -/
def released (later : List (List Byte)) (num : Nat) : Bool := later.any fun l => decide (lTyp l = 0x0E) && decide (leAt l 16 4 = num)

/-- Among `earlier` records, latest first, stands that of a capture which is protected still: none of the records after it releases
it. -/
def keptBefore (isProt : List Byte → Bool) : List (List Byte) → List (List Byte) → Bool
  | [], _ => false
  | x :: r, later => (isProt x && !released later (leAt x 16 4)) || keptBefore isProt r (x :: later)

/-- A record that a checkpoint keeps, by the records before it (latest first) and after it; `run` is the newest run (R351). -/
def keeps (run : Nat) (earlier : List (List Byte)) (l : List Byte) (later : List (List Byte)) : Bool :=
  let t := lTyp l
  let last := !later.any fun x => decide (lTyp x = t)
  let lastCh := !later.any fun x => decide (lTyp x = t) && decide (lArg x = lArg l)
  let isProt (x : List Byte) := decide (lTyp x = 0x0D) && decide (leAt x 29 1 % 2 = 1)
  match t with
  | 0x01 | 0x02 | 0x03 | 0x0A | 0x0C => last
  | 0x04 | 0x05 | 0x06 => decide (lRun l = run)
  | 0x07 => decide (lRun l = run)
      && !later.any fun x => decide (lTyp x = t) && decide (lRun x = run) && decide (leAt x 16 1 = leAt l 16 1)
  | 0x08 | 0x0B => lastCh
  | 0x09 =>
    let since := earlier.takeWhile fun x => !(decide (lTyp x = 0x0B) && decide (lArg x = lArg l))
    let n := (since.filter fun x => decide (lTyp x = 0x09) && decide (lArg x = lArg l) && decide (1 ≤ leAt x 34 1)).length
    lastCh || (decide (1 ≤ leAt l 34 1) && decide (n < 4)
      && !later.any fun x => decide (lTyp x = 0x0B) && decide (lArg x = lArg l))
  | 0x0D => last || (isProt l && !released later (leAt l 16 4))
  | 0x0E => (!later.any fun x => decide (lTyp x = 0x0D)) || keptBefore isProt earlier (l :: later)
  | _ => false

/-- The records of R351. -/
def harvestPick (run : Nat) : List (List Byte) → List (List Byte) → List (List Byte)
  | _, [] => []
  | earlier, l :: r => if keeps run earlier l r then l :: harvestPick run (l :: earlier) r else harvestPick run (l :: earlier) r

/-- Log segments whose highest SEQ is at or below `base` are retired: their markers are cleared (notes/assumptions/36). -/
def Env.retire (e : Env) (v : Variant) (base : Nat) : Env :=
  (List.range 92).foldl (fun e g =>
    let lo := logAddr v (g * segLines v)
    let hi := logAddr v ((g + 1) * segLines v)
    if (e.linesIn lo hi).all fun a => decide (lSeq (e.lineAt a) ≤ base) then e.clearLines lo hi else e) e

/-- The harvest ends: the records it copies are read with their checks, and the checkpoint is read back (R334, R352, R353). -/
def State.harvestEnds (s : State) (f : LineFlaws) : State :=
  match s.env.harvest with
  | none => s
  | some base =>
    if !s.storeUp then s
    else
      let v := s.hw.variant
      let k := 1 - s.env.ckpt
      let from_ := (s.env.held v).filter fun x => decide (lSeq x.2 ≤ base)
      let recs := ((s.env.readable v f).filter fun x => decide (lSeq x.2 ≤ base)).map (·.2)
      let s := from_.foldl (fun s x => s.readLine f x.1) s
      let run := ((newest recs [0x01]).map lRun).getD 0
      let e := s.env.ckWrite v k (s.env.gen + 1) base (harvestPick run [] recs)
      let s := { s with env := { e with harvest := none } }
      let s := (s.env.ckAddrs v k).foldl (fun s a => s.readLine f a) s
      let s := if s.env.ckValid v f k then
          { s with env := { (s.env.retire v base) with ckpt := k, gen := s.env.gen + 1, base := base, irq := Irq.set s.env.irq 0 } }
        else
          { s with env := { s.env with hfail := incTo 0xFF s.env.hfail, harvRetry := true, irq := Irq.set s.env.irq 1 } }
      s.settle s.now

/-- A harvest ends. -/
def execHarvestDone (flaws : LineFlaws) (s : State) : Host.Outcome State Fault Refusal := .next (s.harvestEnds flaws)

/-- ENV_CTRL.HARVEST from a session of level `l`. -/
def State.harvestReq (s : State) (l : Level) : State :=
  if !l.ge .operator then { s with env := { s.env with code := 1 } }
  else
    let s := { s with env := { s.env with code := 0 } }
    if s.env.harvest.isSome || !s.storeUp then s else s.harvestBegin

/-- ENV_CTRL.HARVEST is written. -/
def execEnvHarvest (s : State) : Host.Outcome State Fault Refusal := .next (s.byHost 0x70020 .user fun l => s.harvestReq l)

/-! ## Appending (R343, R263, R295, R360) -/

/-- The marker of a COMMIT record: aborted entries go, HLD_PERSIST_EPOCH and HLD_LAST take its values, and an input loss without
ride-through makes its off request (R260, R263). -/
def State.commitMark (s : State) (l : List Byte) (t : Nat) : State :=
  let c := commitOf l
  let s := { s with hld := { s.hld with entries := s.hld.entries.filter fun e => !e.aborted, persist := c.epoch, last := some c } }
  if c.trig = 1 ∧ !c.ride then s.shutDown none 4 1024 t [] else s

/-- The marker of a BBX record at `t`: the capture is committed and recording starts afresh. -/
def State.captureMark (s : State) (l : List Byte) (t : Nat) : State :=
  match s.bbx.cap with
  | some c =>
    if c.state = 3 ∧ c.num = leAt l 16 4 then
      let b := (s.bbx.restore l).restart
      { s with bbx := { b with irq := Irq.set b.irq 0, doneAt := some t } }
    else s
  | none => s

/-- What the marker of a record does at `t`. A BBX_REL record ends the protection (R362). -/
def State.markRec (s : State) (l : List Byte) (t : Nat) : State :=
  match lTyp l with
  | 0x02 => { s with hld := { s.hld with persist := leAt l 16 4 } }
  | 0x03 => s.commitMark l t
  | 0x06 =>
    if s.flt.safe.any fun x => decide (x.step = 6) then { s with flt := { s.flt with safe := s.flt.safe.map fun x => { x with step := 7 } } } else s
  | 0x0D => s.captureMark l t
  | 0x0E => { s with bbx := { s.bbx.restore l with relAt := none } }
  | _ => s

/-- The marker of the record being written is programmed, 20 µs after its bank was granted (R333): the record is appended and the next
one begins, then a host write that waits for the bank (R335, R343). -/
def State.recAppend (s : State) : State :=
  match s.env.writing with
  | none => s
  | some w =>
    match w.granted.filter fun g => s.storeUp && decide (g + lineTime ≤ s.now) with
    | none => s
    | some g =>
      let t := g + lineTime
      let s := s.upTo t 0
      let v := s.hw.variant
      let before := s.segUsed
      let l := recLine s.env.run w.seq w.rec_
      let e := s.env.putLine (logAddr v w.line) l
      let s := { s with env := { e with writing := none, jseq := w.seq, jline := (w.line + 1) % logLines v } }
      let s := (s.markRec l t).harvestAuto before
      { s with env := (s.env.kick v s.storeUp t).grant v t }.settle t

/-- The marker of a journal record is written. -/
def execJournalRecordAppend (s : State) : Host.Outcome State Fault Refusal := .next s.recAppend

/-! ## Periodic records (R345, R346) -/

/-- Another whole hour of main-clock running has passed: `hourPart` counts its ticks (R345). -/
def State.hourPasses (s : State) : State :=
  if s.ctrlUp && decide (3600 * tSec ≤ s.env.hourPart) then
    let s := { s with env := { s.env with hours := s.env.hours + 1, hourPart := s.env.hourPart - 3600 * tSec } }
    s.record 3 0x0C 0 s.now [(16, leBytes 4 s.env.hours)]
  else s

/-- Another hour passes. -/
def execHoursIncrement (s : State) : Host.Outcome State Fault Refusal := .next s.hourPasses

/-- The CNT_PER period ends. -/
def State.countPeriod (s : State) : State :=
  let per := fld s.env.jcfg 0 8
  match dueAt s.env.cntNext s.now with
  | some t =>
    if s.running && decide (per ≠ 0) then
      { s with env := { s.env with cntNext := some (t + per * 60 * tSec) } }.countRecords t
    else s
  | none => s

/-- The CNT_PER period ends. -/
def execCountRecordPeriod (s : State) : Host.Outcome State Fault Refusal := .next s.countPeriod

/-! ## The journal reader (R354) -/

/-- The reader loads the held record of lowest SEQ at or above its position. Records are read in order, with their checks, until one
passes them (R334, notes/assumptions/114). -/
def State.jrdLoad (s : State) (f : LineFlaws) : State :=
  let from_ := s.env.jrdFrom
  let l := (s.env.held s.hw.variant).filter fun x => decide (from_ ≤ lSeq x.2)
  let bad (x : Nat × List Byte) : Bool := (s.env.check f x.1).isSome
  let hit := l.find? fun x => !bad x
  let s := (l.takeWhile bad ++ hit.toList).foldl (fun s x => s.readLine f x.1) s
  match hit with
  | some x => { s with env := { s.env with
      jrd := some (lSeq x.2, x.2), jrdFrom := lSeq x.2 + 1, jrdSkip := s.env.jrdSkip || decide (max 1 from_ < lSeq x.2) } }
  | none => { s with env := { s.env with jrd := none } }

/-- ENV_JRD_CTRL.FROM. -/
def State.jrdSet (s : State) (seq : Nat) (f : LineFlaws) : State :=
  State.jrdLoad { s with env := { s.env with jrdFrom := seq, jrdSkip := false } } f

/-- ENV_JRD_CTRL is written. -/
def execJrdFrom (seq : BitVec 32) (s : State) : Host.Outcome State Fault Refusal :=
  .next (s.byHost 0x70080 .operator fun _ => (s.jrdSet seq.toNat (Config.readFlaws s.now)).settle s.now)

/-- ENV_JRD_STAT.NEXT is written. -/
def execJrdNext (s : State) : Host.Outcome State Fault Refusal :=
  .next (s.byHost 0x70084 .operator fun _ => (s.jrdLoad (Config.readFlaws s.now)).settle s.now)

/-! ## The black box (R358 to R366, R489) -/

/-- A chunk boundary of island `i` has come: its chunk ends (R357). -/
def State.chunkEnd (s : State) (i : Nat) : State :=
  if s.running then
    { s with bbx := (s.bbx.roll i s.now (s.pwr.rung == .autumn)).progress s.hw.variant s.now }
  else s

/-- At the end of a tick a capture goes on that no running chunk holds back. -/
def State.bbxTick (s : State) : State :=
  if s.running && s.bbx.cap.any fun c => decide (c.state ≤ 1) then { s with bbx := s.bbx.progress s.hw.variant s.now } else s

/-- A chunk of island `isl` ends. -/
def execBbxChunkEnd (isl : Nat) (s : State) : Host.Outcome State Fault Refusal :=
  .next (if isl < nIsl s.hw.variant then (s.chunkEnd isl).settle s.now else s)

/-- BBX_CTRL.TRIG from a session of level `l`. -/
def State.bbxTrig (s : State) (l : Level) : State :=
  if !l.ge .operator then { s with bbx := { s.bbx with code := 1 } }
  else { s with bbx := { s.bbx with code := 0 } }.bbxTrigger 4 0xFFFF s.now

/-- BBX_CTRL.TRIG is written. -/
def execBbxTrig (s : State) : Host.Outcome State Fault Refusal := .next (s.byHost 0xB0004 .user fun l => s.bbxTrig l)

/-- BBX_CTRL.RELEASE from a session of level `l`: protection ends when its BBX_REL record is appended (R362); one that is dropped (R344)
leaves it. -/
def State.bbxRelease (s : State) (l : Level) : State :=
  if !l.ge .owner then { s with bbx := { s.bbx with code := 1 } }
  else if s.bbx.protNum = 0 then { s with bbx := { s.bbx with code := 2 } }
  else
    let n := s.bbx.protNum
    let rel := if 90 ≤ s.segUsed then s.bbx.relAt else some s.now
    { s with bbx := { s.bbx with code := 0, relAt := rel } }.record 2 0x0E 0 s.now [(16, leBytes 4 n)]

/-- BBX_CTRL.RELEASE is written. -/
def execBbxRelease (s : State) : Host.Outcome State Fault Refusal := .next (s.byHost 0xB0004 .user fun l => s.bbxRelease l)

/-- A byte string as lines. -/
def linesOf : Nat → List Byte → List (List Byte)
  | 0, _ => []
  | _ + 1, [] => []
  | fuel + 1, l => l.take 64 :: linesOf fuel (l.drop 64)

/-- Lines written from address `a` on, taken round the black-box region. -/
def Env.putRound (e : Env) (base size a : Nat) : List (List Byte) → Env
  | [] => e
  | l :: r => (e.putLine a l).putRound base size (if base + 64 * size ≤ a + 64 then base else a + 64) r

/-- The capture has been written: its BBX record is queued (R360, R365). One whose record is dropped (R344) is not committed, and
recording starts afresh. -/
def State.captureWritten (s : State) : State :=
  match s.bbx.cap with
  | none => s
  | some c =>
    if c.state = 2 ∧ s.running then
      let v := s.hw.variant
      let img := s.bbx.image v c
      let n := img.length / 64
      let (base, size) := bbxRegion v
      let dropped := decide (90 ≤ s.segUsed)
      let s := { s with
        env := s.env.putRound base size c.addr (linesOf (n + 1) img)
        bbx := if dropped then s.bbx.restart else { s.bbx with cap := some { c with state := 3 } } }
      s.recordAt 2 0x0D 0 c.stamp s.now [(16, leBytes 4 c.num), (20, leBytes 4 c.addr), (24, leBytes 4 n), (28, leBytes 1 c.kind),
        (29, leBytes 1 (b2n c.prot + 2 * b2n c.summ)), (30, leBytes 2 c.src)]
    else s

/-- A capture has been written into the black-box region. -/
def execBbxCaptureCommit (s : State) : Host.Outcome State Fault Refusal := .next s.captureWritten

end Sys2Proof.Machine
end

