-- ==== Sys2Proof/Machine/Media.lean ====
section
/-! DEFINITION. What the media controller sends: ledger events and their verdicts (07), the MCP link, its lanes, acknowledgements and
losses (13), key establishment and alarms (14); and the commands of HLD_CTRL. A frame's arrival is known by its ledger events
and FILL frames; a verdict comes only after its whole block (notes/assumptions/26). -/

namespace Sys2Proof.Machine

/-! ## Receiving blocks (R232, R454) -/

/-- A NAK of block `n` is sent; counts NAKs of one block in a row. -/
def Mcp.nak (m : Mcp) (n : Nat) : Mcp :=
  { m with
    nakTx := incTo 0xFFFF m.nakTx, lctl := [(false, n)], rxSkip := true
    rxNakRow := if m.rxNakLast = some n then m.rxNakRow + 1 else 1, rxNakLast := some n }

/-- The fourth NAK in a row of one block loses the link (R456). -/
def State.nakCheck (s : State) (stamp : Nat) : State :=
  if 4 ≤ s.mcp.rxNakRow ∨ 4 ≤ s.mcp.txNakRow then s.mcpLost 2 stamp else s

/-- Block `blk` stands still for 1 µs: it is discarded and NAKed, its changes reverted (R241, R455). One whose frames are all there
lacks its MAC, since a verdict would have come within 40 ticks (R238). NBAD does not count it (DESIGN CHOICE, notes/assumptions/133).
-/
def State.blockTimeout (s : State) (blk : Nat) : State :=
  if s.mcp.up && s.mcp.openBlk blk && decide (s.mcp.blkAt + 100 ≤ s.now) then
    let h := s.hld.revert fun b => b == blk
    let m := { s.mcp with rxBytes := tset 0 s.mcp.rxBytes blk 0, eTout := incTo 0xFF s.mcp.eTout
                          rxCut := some (s.now, 512 - tget 0 s.mcp.rxBytes blk, false) }
    (({ s with hld := h, mcp := m.nak blk }.tpAdd 1 0 0 1).settle s.now).nakCheck s.now
  else s

/-- Bytes of whole frames that `len` bytes complete behind `n` (R528). -/
def framesIn (n len : Nat) : Nat := ((n + len) / 64 - n / 64) * 64

/-- A block that a timeout has cut off goes on arriving: on the tick of the timeout, or within 1 µs of a part of it that came after
(R455). What comes later is the block sent again (DESIGN CHOICE, notes/assumptions/134). -/
def Mcp.resumes (m : Mcp) (blk now : Nat) : Bool :=
  decide (blk = m.rxCur) && m.rxCut.any fun (c : Nat × Nat × Bool) =>
    decide (0 < c.2.1) && (decide (c.1 = now) || (c.2.2 && decide (now < c.1 + 100)))

/-- `len` frame bytes arrive that are out of turn and discarded: counted as received (R454, R528). -/
def State.stray (s : State) (len : Nat) : State :=
  { s with mcp := { s.mcp with heard := s.now, rxStray := s.mcp.rxStray + len
                               rxCut := s.mcp.rxCut.map fun (c : Nat × Nat × Bool) => (s.now, c.2.1 - len, true) } }.tpAdd
    1 (framesIn s.mcp.rxStray len) 0 0

/-- The first sign of the block after the one that is arriving: the rest of that one has arrived too, as frames that no row spells out
(notes/assumptions/26). -/
def State.blockOver (s : State) (blk : Nat) : State :=
  let b := s.mcp.rxCur
  let n := tget 0 s.mcp.rxBytes b
  if blk = (b + 1) % 0x10000 ∧ 0 < n ∧ n % 64 = 0 then
    { s with mcp := { s.mcp with rxBytes := tset 0 s.mcp.rxBytes b 512 } }.tpAdd 1 (512 - n) 0 0
  else s

/-- `len` frame bytes of block `blk` arrive. They act, by `f`, where the block is the expected one on a link that is UP; the first
sign of another block is answered with a NAK of the expected one, and blocks are discarded until that arrives (R454). -/
def State.arrive (s : State) (blk len : Nat) (f : State → State) : State :=
  let s := (s.blockTimeout s.mcp.rxCur).blockOver blk
  let m := s.mcp
  let n := tget 0 m.rxBytes blk
  if !m.up then s
  else if m.resumes blk s.now then s.stray len
  else if blk = m.rxCur then
    (if n + len ≤ 512 then
      f ({ s with mcp := { m with rxBytes := tset 0 m.rxBytes blk (n + len), rxSkip := false, rxCut := none
                                  blkAt := s.now, heard := s.now } }.tpAdd 1 (framesIn n len) 0 0)
     else s)
  else if m.rxSkip then s.stray len
  else (({ s with mcp := m.nak m.rxCur }.stray len).tpAdd 1 0 0 1).nakCheck s.now

/-! ## Verdicts (R238 to R242, R454) -/

/-- The changes of a block are confirmed at `now` (R239). Entries removed on the stamp on which a drain begins went before it (R269). -/
def Hld.confirm (h : Hld) (blk now : Nat) : Hld :=
  let kept := h.entries.filter fun e => e.closeBlk ≠ some blk
  let done := h.entries.length - kept.length
  { h with
    entries := kept.map fun e => if e.openBlk = some blk then { e with openBlk := none } else e
    sealed_ := (h.seals.filter fun e => e.1 = blk).foldl (fun a e => if epochLater e.2 a then e.2 else a) h.sealed_
    seals := h.seals.filter fun e => e.1 ≠ blk
    drain := h.drain.map fun d => if d.began < now then { d with drained := d.drained + done } else d
    cause := { h.cause with auth := false } }

/-- The block whose verdict is due at `now`: one that had arrived when the link was lost, or the next of the link. A verdict that comes
within 40 ticks of the loss (R238) for the block whose frames were arriving shows that frames no row spells out had completed it (R465,
notes/assumptions/26). -/
def Mcp.due (m : Mcp) (blk now : Nat) : Bool :=
  match m.rxOld with
  | b :: _ => decide (b = blk)
  | [] => if m.up then decide (m.rxNext = blk)
          else m.rxLate.any (fun l => decide (l.1 = blk)) && m.lostAt.any fun t => decide (now ≤ t + 40)

/-- Bytes of the block judged that no row has spelled out: they have arrived, since a verdict has come (R528). -/
def Mcp.rest (m : Mcp) (blk : Nat) : Nat :=
  match m.rxOld with
  | _ :: _ => 0
  | [] => 512 - (if m.up then tget 0 m.rxBytes blk else (m.rxLate.map (·.2)).getD 512)

/-- The link's part of a passing verdict: ACK, and the next block is due. -/
def Mcp.passed (m : Mcp) (blk : Nat) : Mcp :=
  match m.rxOld with
  | _ :: r => { m with rxOld := r }
  | [] => if !m.up then { m with rxLate := some ((blk + 1) % 0x10000, 0) }
    else
      { m with
        rxNext := (blk + 1) % 0x10000, rxBytes := tset 0 m.rxBytes blk 0, lctl := [(true, blk)], rxNakRow := 0, rxNakLast := none }

/-- Block `blk` verifies; `undef` of its frames, of a TYPE not defined for their direction, are ignored and counted (R451). -/
def State.macPass (s : State) (blk undef : Nat) : State :=
  if s.mcp.due blk s.now then
    let m := { s.mcp.passed blk with eType := min 0xFF (s.mcp.eType + undef), okAt := some (blk, s.now) }
    let s := { s with hld := s.hld.confirm blk s.now, mcp := m }.tpAdd 1 (s.mcp.rest blk) 8 0
    let s := { s with hld := { s.hld with durable := durableOf s.hld.sealed_ s.hld.entries } }
    s.settle s.now
  else s

/-- The MAC of block `blk` verifies. -/
def execMacVerifyPass (blk undef : Nat) (s : State) : Host.Outcome State Fault Refusal := .next (s.macPass blk undef)

/-- The link's part of a failing verdict: NAK, and what has arrived of later blocks is discarded. -/
def Mcp.failed (m : Mcp) (blk : Nat) : Mcp :=
  match m.rxOld with
  | _ :: _ => { m with rxOld := [], rxLate := none }
  | [] => { m with rxBytes := [], rxLate := none }.nak blk

/-- The blocks a failing verdict reverts: the failing one and those received after it. -/
def Mcp.fromBlk (m : Mcp) (b : Nat) : Bool :=
  match m.rxOld with
  | [] => true
  | l => l.contains b

/-- Block `blk` fails verification (R240). -/
def State.macFail (s : State) (blk : Nat) : State :=
  if s.mcp.due blk s.now then
    let h := s.hld.revert s.mcp.fromBlk
    let s := { s with hld := { h with nBad := incTo 0xFFFF h.nBad }, mcp := s.mcp.failed blk }.tpAdd 1 (s.mcp.rest blk) 0 1
    ((s.report 1044 s.now).settle s.now).nakCheck s.now
  else s

/-- The MAC of block `blk` fails. -/
def execMacVerifyFail (blk : Nat) (s : State) : Host.Outcome State Fault Refusal := .next (s.macFail blk)

/-- A block of 66 bits is late. -/
def execMcpBlockTimeout (blk : Nat) (s : State) : Host.Outcome State Fault Refusal := .next (s.blockTimeout blk)

/-! ## Ledger events (R231 to R237) -/

/-- A ledger event is rejected with `code`: recorded, its source raised; a rejected OPEN is named in an ADMIT frame
(R233, R236). -/
def State.ledgerReject (s : State) (code group : Nat) (named : Bool) : State :=
  let h := s.hld
  let s := { s with hld := { h with
    errCode := code, errCount := incTo 0xFFFF h.errCount, errGrp := group, irq := Irq.set h.irq 6 } }
  let s := s.report (if code = 6 then 1041 else 1042) s.now
  (s.admission s.now (if named then [group] else [])).settle s.now

/-- The entry of a group, closing ones left out where `live`. -/
def Hld.has (h : Hld) (group : Nat) (live : Bool) : Bool :=
  h.entries.any fun e => decide (e.group = group) && !(live && e.closeBlk.isSome)

/-- The EPOCH check of R233. -/
def Hld.epochBad (h : Hld) (epoch : Nat) : Bool := decide (epoch = noEpoch) || !epochLater epoch h.sealed_

/-- The rejection code of an OPEN, 0 for none. -/
def Hld.openCheck (h : Hld) (cap bytes group epoch : Nat) : Nat :=
  if bytes = 0 ∨ 4096 < bytes then 1
  else if h.epochBad epoch then 3
  else if h.has group false then 4
  else if cap ≤ h.entries.length then 6
  else 0

/-- Passing verdicts of the present tick that are still in the queue are taken, those of block `blk` apart: a DONE frees its slot
before an OPEN of the stamp (R269). -/
def State.verdictsFirst (s : State) (blk : Nat) : State :=
  s.thisTick.foldl (fun s i => match i with | .macVerifyPass b u => if b = blk then s else s.macPass b u | _ => s) s

/-- An OPEN takes tentative effect. -/
def State.ledgerOpen (s : State) (blk bytes group epoch : Nat) : State :=
  let cap := nLedger s.hw.variant
  let s := if s.hld.openCheck cap bytes group epoch = 6 then s.verdictsFirst blk else s
  match s.hld.openCheck cap bytes group epoch with
  | 0 =>
    let e : LEntry := { group := group, epoch := epoch, bytes := bytes, openBlk := some blk }
    { s with hld := { s.hld with entries := s.hld.entries ++ [e] } }.settle s.now
  | c => s.ledgerReject c group true

/-- An OPEN arrives. -/
def execLedgerOpen (blk : Nat) (bytes : BitVec 16) (group epoch : BitVec 32) (s : State) : Host.Outcome State Fault Refusal :=
  .next (s.arrive blk 32 fun s => s.ledgerOpen blk bytes.toNat group.toNat epoch.toNat)

/-- A DONE takes tentative effect: it marks its entry closing. -/
def State.ledgerDone (s : State) (blk group : Nat) : State :=
  if s.hld.has group true then
    { s with hld := { s.hld with entries := s.hld.entries.map fun e =>
        if e.group = group then { e with closeBlk := some blk } else e } }
  else s.ledgerReject 5 group false

/-- A DONE arrives. -/
def execLedgerDone (blk : Nat) (group : BitVec 32) (s : State) : Host.Outcome State Fault Refusal :=
  .next (s.arrive blk 32 fun s => s.ledgerDone blk group.toNat)

/-- A SEAL is held pending, or rejected with its GROUP field, whatever it holds (R231, R233). -/
def State.ledgerSeal (s : State) (blk group epoch : Nat) : State :=
  if s.hld.epochBad epoch then s.ledgerReject 3 group false
  else { s with hld := { s.hld with seals := s.hld.seals ++ [(blk, epoch)] } }

/-- A SEAL arrives. -/
def execLedgerSeal (blk : Nat) (words : SealWords) (s : State) : Host.Outcome State Fault Refusal :=
  .next (s.arrive blk 32 fun s => s.ledgerSeal blk words.group.toNat words.epoch.toNat)

/-- A PAD arrives. -/
def execLedgerPad (blk : Nat) (s : State) : Host.Outcome State Fault Refusal := .next (s.arrive blk 32 fun s => s)

/-- A ledger event of KIND `kind` arrives that is none of the four. -/
def execLedgerKindReject (blk : Nat) (kind : BitVec 8) (group : BitVec 32) (s : State) : Host.Outcome State Fault Refusal :=
  .next (s.arrive blk 32 fun s => if kind.toNat ≤ 3 then s else s.ledgerReject 2 group.toNat false)

/-! ## Other frames (R451, R452, R486) -/

/-- Block `blk` has verified on the present tick: its frames act with the verdict's stamp, a loss of the link on it notwithstanding
(R452, R465). -/
def Mcp.verified (m : Mcp) (blk now : Nat) : Bool := decide (m.okAt = some (blk, now))

/-- A verified ALARM of key index `i`: KEY_AUTH_LATE, the hold, KEY_HELD; the permit falls. A RESTORE of its stamp taken before it is
refused after all (R496). -/
def State.alarm (s : State) (i : Nat) : State :=
  let s := { s with sec := { s.sec with
    keyCode := if s.sec.restored = some (s.now, i) then 2 else s.sec.keyCode
    held := s.sec.held ||| BitVec.ofNat 256 (2 ^ i), alarmTs := tset 0 s.sec.alarmTs i (s.now + 1), irq := Irq.set s.sec.irq 6 } }
  (s.report 1045 s.now).settle s.now

/-- An ALARM frame of the block just verified acts. -/
def execMcpAlarm (blk : Nat) (index : BitVec 8) (s : State) : Host.Outcome State Fault Refusal :=
  .next (if s.mcp.verified blk s.now then s.alarm index.toNat else s)

/-- A DRAIN_ACK frame of the block just verified acts. -/
def execMcpDrainAck (blk : Nat) (s : State) : Host.Outcome State Fault Refusal :=
  .next (if s.mcp.verified blk s.now then { s with mcp := { s.mcp with dack := true } } else s)

/-- A FILL frame arrives. -/
def execMcpFill (blk : Nat) (s : State) : Host.Outcome State Fault Refusal := .next (s.arrive blk 64 fun s => s)

/-! ## Acknowledgements of blocks sent (R454, R456) -/

/-- ACK of block `n`. -/
def Mcp.acked (m : Mcp) (n now : Nat) : Mcp :=
  Mcp.pump now (m.waiting.length + 1) { m with
    heard := now
    unacked := m.unacked.filter fun b => b.n ≠ n
    txNakRow := if m.txNakLast = some n then 0 else m.txNakRow
    txNakLast := if m.txNakLast = some n then none else m.txNakLast }

/-- NAK of block `n`: it and those after it are sent again. -/
def Mcp.naked (m : Mcp) (n now : Nat) : Mcp :=
  let at_ := (m.unacked.map (·.n)).idxOf n
  { m with
    heard := now
    nakRx := incTo 0xFFFF m.nakRx
    txNakRow := if m.txNakLast = some n then m.txNakRow + 1 else 1, txNakLast := some n
    unacked := m.unacked.take at_ ++ (m.unacked.drop at_).map fun b => { b with sentAt := now } }

/-- Failing verdicts of the present tick that are still in the queue are taken before a loss of the link (R465). -/
def State.failsFirst (s : State) : State :=
  s.thisTick.foldl (fun s i => match i with | .macVerifyFail b => s.macFail b | _ => s) s

/-- A NAK arrives. -/
def State.lctlNak (s : State) (n : Nat) : State :=
  if s.mcp.link != .down && (s.mcp.unacked.map (·.n)).contains n then
    let s := if 4 ≤ (s.mcp.naked n s.now).txNakRow then s.failsFirst else s
    if s.mcp.link == .down then s else ({ s with mcp := s.mcp.naked n s.now }.nakCheck s.now).settle s.now
  else s

/-- A NAK arrives. -/
def execMcpLctlNak (n : Nat) (s : State) : Host.Outcome State Fault Refusal := .next (s.lctlNak n)

/-- 20 µs have passed with a block unacknowledged. -/
def State.ackTimeout (s : State) : State :=
  if s.mcp.link != .down && s.mcp.unacked.any (fun b => decide (b.sentAt + 20 * tUs ≤ s.now)) then
    (s.failsFirst.mcpLost 3 s.now).settle s.now
  else s

/-- An ACK arrives; one that comes on the tick of the timeout comes too late (R137). -/
def State.lctlAck (s : State) (n : Nat) : State :=
  if s.mcp.link == .down then s
  else if s.mcp.unacked.any (fun b => decide (b.sentAt + 20 * tUs ≤ s.now)) then s.ackTimeout
  else { s with mcp := s.mcp.acked n s.now }

/-- An ACK arrives. -/
def execMcpLctlAck (n : Nat) (s : State) : Host.Outcome State Fault Refusal := .next (s.lctlAck n)

/-- The acknowledgement timeout. -/
def execMcpAckTimeout (s : State) : Host.Outcome State Fault Refusal := .next s.ackTimeout

/-- No block of any kind has arrived for 10 µs: none of those the model knows of either. -/
def State.silence (s : State) : State :=
  if s.mcp.link != .down && decide (s.mcp.heard + 10 * tUs ≤ s.now) then (s.failsFirst.mcpLost 4 s.now).settle s.now else s

/-- The link is silent. -/
def execMcpSilence (s : State) : Host.Outcome State Fault Refusal := .next s.silence

/-! ## Lanes and keys (R447, R448, R483) -/

/-- The pairing key in use: the installed one, or zeros while none is installed. -/
def State.pairKey (s : State) : List Byte := if s.sec.paired then s.sec.kp else List.replicate 32 0

/-- Key establishment cannot succeed: not paired in DEPLOYED, or RETIRED. -/
def State.noKeyPath (s : State) : Bool :=
  match s.lcs with
  | .retired => true
  | .deployed => !s.sec.paired
  | _ => false

/-- LINK of a keyed link by the lanes in service (R447). -/
def linkOf (v : Variant) (lanes : Nat) : McpLink :=
  if (List.range (nLane v)).all fun l => lanes.testBit l then .up else .degraded

/-- A lane enters service: the first one begins key establishment with KX in block 0, under the pairing key of that moment (R474). In
electrical idle none does (R492, step 6). -/
def State.laneUp (s : State) (lane : Nat) : State :=
  if !s.running || s.pwr.prepared || nLane s.hw.variant ≤ lane || (tget {} s.lt lane).mode ≠ 0 || s.mcp.lanes.testBit lane || s.islLost 17 then s
  else
    let m := { s.mcp with lanes := Nat.lor s.mcp.lanes (2 ^ lane), heard := s.now, irq := Irq.set s.mcp.irq 2 }
    match m.link with
    | .up | .degraded => { s with mcp := { m with link := linkOf s.hw.variant m.lanes } }
    | .training => { s with mcp := m }
    | .down =>
      let s := { s with mcp := { m with link := .training } }
      if s.noKeyPath then (s.mcpLost 5 s.now).settle s.now
      else
        let d := s.draw 32
        let s := d.2
        let b : TxBlk := { n := 0, frames := .kx d.1 :: List.replicate 7 .fill, sentAt := s.now }
        { s with mcp := { s.mcp with
            nonceS := d.1, kxKey := s.pairKey, keyEnd := some (s.now + 100 * tUs), unacked := [b], txNext := 1, rxNext := 0 } }

/-- A lane enters service. -/
def execMcpLaneInService (lane : Nat) (s : State) : Host.Outcome State Fault Refusal := .next (s.laneUp lane)

/-- Lanes that enter service on the present tick by a command still in the queue have done so before one leaves it (R465). -/
def State.lanesFirst (s : State) (lane : Nat) : State :=
  s.thisTick.foldl (fun s i => match i with | .mcpLaneInService l => if l = lane then s else s.laneUp l | _ => s) s

/-- A lane leaves service; with the last one the link is lost (LOCK). `hdr` invalid sync headers have come on it since it entered
service (notes/assumptions/89). -/
def State.laneDown (s : State) (lane hdr : Nat) : State :=
  if !s.mcp.lanes.testBit lane then s
  else
    let s := s.lanesFirst lane
    let s : State := { s with mcp := { s.mcp with hdrErr := tset 0 s.mcp.hdrErr lane (min 0xFFFF (tget 0 s.mcp.hdrErr lane + hdr)) } }
    let left := s.mcp.lanes - 2 ^ lane
    if left = 0 then (s.failsFirst.mcpLost 1 s.now).settle s.now
    else
      let m := { s.mcp with lanes := left, irq := Irq.set s.mcp.irq 2 }
      { s with mcp := { m with link := if m.up then linkOf s.hw.variant left else m.link } }

/-- A lane loses block lock or fails deskew. -/
def execMcpLaneLoss (lane hdr : Nat) (s : State) : Host.Outcome State Fault Refusal := .next (s.laneDown lane hdr)

/-- K_L = HMAC-SHA-256(K_P, DZ-LK, N_S, N_M, UID). -/
def State.linkKey (s : State) (nonceM : List Byte) : List Byte :=
  Config.hmac256 s.mcp.kxKey (ascii [0x44, 0x5A, 0x2D, 0x4C, 0x4B] ++ s.mcp.nonceS ++ nonceM ++ s.uidBytes)

/-- The media controller's KX verifies in its block 0: the link is UP; its first frame is an ADMIT frame with the admission that stands
at the end of the tick (R448). -/
def State.kx (s : State) (blk : Nat) (nonceM : List Byte) : State :=
  if s.mcp.link == .training && runsPast s.mcp.keyEnd s.now && decide (blk = 0) then
    let m := { s.mcp with
      key := s.linkKey nonceM, keyed := true, keyEnd := none, link := linkOf s.hw.variant s.mcp.lanes
      rxNext := 1, rxBytes := [], rxSkip := false, rxOld := [], rxLate := none, admDue := true
      lctl := [(true, 0)], irq := Irq.set s.mcp.irq 0 }
    ({ s with mcp := m }.tpAdd 1 512 8 0).settle s.now
  else s

/-- The media controller's KX verifies. -/
def execMcpKx (blk : Nat) (nonce : List (BitVec 8)) (s : State) : Host.Outcome State Fault Refusal := .next (s.kx blk nonce)

/-- 100 µs have passed with no verified answer. -/
def State.keyTimeout (s : State) : State :=
  match dueAt s.mcp.keyEnd s.now with
  | some t => (s.failsFirst.mcpLost 5 t).settle t
  | none => s

/-- Key establishment times out. -/
def execMcpKeyTimeout (s : State) : Host.Outcome State Fault Refusal := .next s.keyTimeout

/-! ## On the wire (R449 to R451, R483) -/

/-- The TYPE of a frame (R451, R483). -/
def McpFrame.type : McpFrame → Nat
  | .fill => 0x00
  | .admState .. => 0x10
  | .drain _ => 0x11
  | .permit _ => 0x12
  | .keyload .. => 0x13
  | .kx _ => 0x14

/-- Bytes filled up with zeros to a length. -/
def padTo (n : Nat) (bs : List Byte) : List Byte := (bs ++ List.replicate n 0).take n

/-- The 64 bytes of a frame from a device with UID bytes `uid`. -/
def McpFrame.bytes (uid : List Byte) : McpFrame → List Byte
  | .fill => padTo 64 []
  | .admState o t gs => padTo 64 (leBytes 1 (b2n o) ++ leBytes 1 gs.length ++ leBytes 2 0 ++ leBytes 4 t ++ gs.flatMap (leBytes 4 ·))
  | .drain trig => padTo 64 (leBytes 1 trig)
  | .permit es => padTo 64 (leBytes 4 es.length ++ es.flatMap fun e => leBytes 1 e.1 ++ leBytes 3 (if e.2 then 1 else 2))
  | .keyload i w => padTo 64 (padTo 8 (leBytes 1 i) ++ w)
  | .kx n => padTo 64 (padTo 32 n ++ uid)

/-- The MAC of a block the supervisor sends, under `key` (R450). -/
def TxBlk.mac (b : TxBlk) (key uid : List Byte) : List Byte :=
  (Config.aesCmac key (leBytes 2 b.n ++ leBytes 1 1 ++ b.frames.flatMap fun f => leBytes 1 f.type ++ f.bytes uid)).take 8

/-- A control block of a kind (R449). -/
def controlBlk (kind : Nat) (bs : List Byte) : Bool × List Byte := (true, padTo 8 (leBytes 1 kind ++ bs))

/-- A MAC block as blocks of 8 bytes, true for a control block: each frame behind its FRAME block, then the MAC. -/
def TxBlk.wire (b : TxBlk) (key uid : List Byte) : List (Bool × List Byte) :=
  (b.frames.zipIdx.flatMap fun f =>
    let bs := f.1.bytes uid
    controlBlk 0x78 (leBytes 1 f.1.type ++ leBytes 2 b.n ++ leBytes 1 f.2)
      :: (List.range 8).map fun k => (false, (bs.drop (8 * k)).take 8))
  ++ [controlBlk 0x4B (leBytes 2 b.n), (false, b.mac key uid)]

/-- The MAC blocks that stand sent and unacknowledged; block 0 with KX goes under the pairing key (R483). -/
def State.mcpWire (s : State) : List (List (Bool × List Byte)) :=
  s.mcp.unacked.map fun b => b.wire (if s.mcp.keyed then s.mcp.key else s.mcp.kxKey) s.uidBytes

/-- The LCTL block last sent (R449). -/
def Mcp.lctlWire (m : Mcp) : List (Bool × List Byte) :=
  m.lctl.map fun a => controlBlk 0x55 (leBytes 1 (if a.1 then 1 else 2) ++ leBytes 2 a.2)

/-! ## HLD_CTRL (R266) and EPOCH records (R256) -/

/-- A write of HLD_CTRL from a session of level `l`. A host drain on the stamp of an input loss joins its drain (R269). -/
def State.hldCtl (s : State) (l : Level) (hold release drain : Bool) : State :=
  let refuse (c : Nat) := { s with hld := { s.hld with code := c } }
  if !l.ge .operator then refuse 1
  else if hold && release then refuse 2
  else if drain && s.hld.drain.any fun d => !(d.loss && decide (d.began = s.now)) then refuse 3
  else if drain && (!s.mcp.up || s.rst HS != .good) then refuse 4
  else
    let host := if release then false else s.hld.cause.host
    let s := { s with hld := { s.hld with code := 0, cause := { s.hld.cause with host := host || hold || drain } } }
    let s := s.admission s.now []
    (if drain then s.drainStart 2 s.now else s).settle s.now

/-- HLD_CTRL.HOLD. -/
def execHldHold (s : State) : Host.Outcome State Fault Refusal :=
  .next (s.byHost 0x50040 .user fun l => s.hldCtl l true false false)
/-- HLD_CTRL.RELEASE. -/
def execHldRelease (s : State) : Host.Outcome State Fault Refusal :=
  .next (s.byHost 0x50040 .user fun l => s.hldCtl l false true false)
/-- HLD_CTRL.DRAIN. -/
def execHldDrain (s : State) : Host.Outcome State Fault Refusal :=
  .next (s.byHost 0x50040 .user fun l => s.hldCtl l false false true)

/-- At the end of the tick on which the EPOCH_PER period ends, HLD_DURABLE_EPOCH is taken for the record (R256, R269). -/
def State.epochTick (s : State) : State :=
  if s.hld.epochNext = some s.now then { s with hld := { s.hld with epochDur := s.hld.durable } } else s

/-- The EPOCH_PER period has ended: an EPOCH record where HLD_DURABLE_EPOCH had advanced since the last one. -/
def State.epochPeriod (s : State) : State :=
  let per := fld s.hld.cfg 24 8
  match s.hld.epochNext with
  | some t =>
    if !s.running || per = 0 || decide (s.now ≤ t) then s
    else
      let s := { s with hld := { s.hld with epochNext := some (t + per * 100 * tMs) } }
      let e := s.hld.epochDur
      if epochLater e s.hld.lastEpochRec then
        ({ s with hld := { s.hld with lastEpochRec := e } }).record 1 0x02 0 t [(16, leBytes 4 e)]
      else s
  | none => s

/-- The EPOCH_PER period ends. -/
def execEpochRecordPeriod (s : State) : Host.Outcome State Fault Refusal := .next s.epochPeriod

end Sys2Proof.Machine
end

