-- ==== Sys2Proof/Machine/Keys.lean ====
section
/-! DEFINITION. The security island (14): session and content keys, the debug level, lifecycle and fuse operations, tamper. -/

namespace Sys2Proof.Machine

/-! ## Keys in the security region (R472 to R474) -/

/-- KEK_D. -/
def kek : List Byte := Config.kekOf Config.deviceSecret

/-- First address of the security region. -/
def State.secBase (s : State) : Nat := regionBase s.hw.variant .security

/-- The key of the line at `a` where it is written with KIND `kind` and its integrity value holds. A row that names no flaws of the lines
it reads reads them without (R334, notes/assumptions/86). -/
def State.keyAt (s : State) (a kind : Nat) : Option (List Byte) :=
  let l := s.env.lineAt a
  if tget false s.env.marked a && decide (leAt l 40 1 = kind) then Config.keyUnwrap kek (l.take 40) else none

/-- The session key of a level (R474): VENDOR's is derived, the others stand in their lines. -/
def State.sessKey (s : State) : Level → Option (List Byte)
  | .user => s.keyAt s.secBase 1
  | .operator => s.keyAt (s.secBase + 0x40) 2
  | .owner => s.keyAt (s.secBase + 0x80) 3
  | .vendor => some (Config.hmac256 Config.deviceSecret (ascii [0x44, 0x5A, 0x2D, 0x56, 0x45, 0x4E, 0x44, 0x4F, 0x52]))

/-- The line of a content key as KEYPOLICY places it. -/
def State.ckeyLine (s : State) (i : Nat) : Nat := s.secBase + 64 * (s.kpol i).line

/-- A line of the security region: wrapped key, KIND, index. -/
def keyLine (wrapped : List Byte) (kind index : Nat) : List Byte :=
  lineOf [(0, wrapped.take 40), (40, leBytes 1 kind), (41, leBytes 1 index)]

/-! ## Unwrapping (R481) -/

/-- A lifecycle transition is in progress. -/
def State.inTrans (s : State) : Bool := s.sec.lcOp.any fun o => decide (o.op ≤ 4)

/-- Unwrapping of the indices of `l` begins, unless tamper, the debug level, the rung or the steps of an entry to another (R492), or a
lifecycle transition, which unwraps at its end (R469), forbids it. -/
def State.unwrapStart (s : State) (l : List Nat) : State :=
  if s.inTrans || s.flt.priv.testBit 4 || s.sec.dbg == .control || s.sec.dbg == .factory || !s.rungOk || s.pwr.prepared then s
  else { s with sec := { s.sec with unwrapping := some ((s.sec.unwrapping.getD []) ++ l) } }

/-- Every index of KEYPOLICY. -/
def State.keyIndices (s : State) : List Nat := (s.sec.kpol.filter fun e => e.2.valid).map (·.1)

/-- Keys are unwrapped from their lines. -/
def State.unwrapAll (s : State) : State := s.unwrapStart s.keyIndices

/-- Index `i` is unwrapped: into key RAM, or marked BAD. -/
def State.unwrapOne (f : LineFlaws) (s : State) (i : Nat) : State :=
  let a := s.ckeyLine i
  let bit : BitVec 256 := BitVec.ofNat 256 (2 ^ i)
  let good := (s.env.check f a).isNone && decide (leAt (s.env.lineAt a) 41 1 = i)
  let s := s.readLine f a
  match (if good then s.keyAt a 0x10 else none) with
  | some k => { s with sec := { s.sec with kram := tset [] s.sec.kram i k, ready := s.sec.ready ||| bit, bad := s.sec.bad &&& ~~~ bit } }
  | none => { s with sec := { s.sec with kram := tset [] s.sec.kram i [], ready := s.sec.ready &&& ~~~ bit, bad := s.sec.bad ||| bit
                                         irq := Irq.set s.sec.irq 2 } }

/-- Unwrapping of the indices begun completes. -/
def State.unwrapEnds (s : State) (f : LineFlaws) : State :=
  match s.sec.unwrapping with
  | none => s
  | some l =>
    if s.ctrlUp && s.rungOk && !s.islLost 18 then
      (l.foldl (State.unwrapOne f) { s with sec := { s.sec with unwrapping := none } }).settle s.now
    else s

/-- Unwrapping completes. -/
def execUnwrapDone (flaws : LineFlaws) (s : State) : Host.Outcome State Fault Refusal := .next (s.unwrapEnds flaws)

/-! ## Debug level (R476, R478) -/

/-- Debug levels by code. -/
def Dbg.code : Dbg → Nat
  | .off => 0
  | .observe => 1
  | .control => 2
  | .factory => 3

/-- The debug level of a code. -/
def Dbg.ofCode : Nat → Dbg
  | 1 => .observe
  | 2 => .control
  | 3 => .factory
  | _ => .off

/-- CONTROL or FACTORY. -/
def Dbg.deep (d : Dbg) : Bool := d == .control || d == .factory

/-- The debug level becomes `d`: entry to CONTROL or FACTORY zeroizes, return unwraps again. -/
def State.dbgTo (s : State) (d : Dbg) : State :=
  let was := s.sec.dbg.deep
  let s := s.setDbg d
  let s := if d.deep && !was then s.zeroize else s
  (if was && !d.deep then s.unwrapAll else s).settle s.now

/-! ## Lifecycle and fuse operations (R466 to R471) -/

/-- Codes of SEC_LC_CTRL.OP. -/
inductive LcReq where
  | prov | depl | ret | retire | root | arb | wdg
  deriving DecidableEq, Repr

/-- The code of an operation. -/
def LcReq.code : LcReq → Nat
  | .prov => 1
  | .depl => 2
  | .ret => 3
  | .retire => 4
  | .root => 8
  | .arb => 9
  | .wdg => 10

/-- The operation is a lifecycle transition. -/
def LcReq.isTrans (o : LcReq) : Bool := decide (o.code ≤ 4)

/-- ROOT_HASH is blown. -/
def State.rootSet (s : State) : Bool := decide (s.sys.taken.root ≠ 0)

/-- The session column of R467 and R471. -/
def LcReq.session (o : LcReq) (l : Level) : Bool :=
  match o with
  | .prov | .ret | .root | .wdg => l == .vendor
  | .depl | .arb => l == .owner
  | .retire => l.ge .owner

/-- The From column and the States column. -/
def State.lcFrom (s : State) (o : LcReq) : Bool :=
  match o with
  | .prov => s.lcs == .blank
  | .depl => s.lcs == .provisioned
  | .ret => s.lcs == .provisioned || s.lcs == .deployed
  | .retire => s.lcs != .retired
  | .root => s.lcs == .blank && !s.rootSet
  | .arb => s.lcs == .provisioned || s.lcs == .deployed
  | .wdg => s.lcs == .blank || s.lcs == .provisioned

/-- CODE of an operation request, 0 where it is accepted (R468); RANGE of ARB is judged with the prerequisites
(notes/assumptions/37). -/
def State.lcCheck (s : State) (o : LcReq) (l : Level) (key : Nat) : Nat :=
  if !o.session l then 1
  else if key ≠ 0x1C5A then 2
  else if !s.lcFrom o then 3
  else if o = .prov ∧ !s.rootSet then 4
  else if o = .depl ∧ !s.sec.paired then 4
  else if o = .arb ∧ s.cfg.arbVer ≤ s.sys.taken.arb then 8
  else if o.isTrans && (decide (s.seqCode ≠ 0) || s.hld.drain.isSome) then 5
  else if s.sec.lcOp.isSome then 6
  else 0

/-- The line write of a key command in progress completes. -/
def State.keyFlush (s : State) : State :=
  match s.sec.keyBusy with
  | some (a, l) => { s with env := s.env.putLine a l, sec := { s.sec with keyBusy := none } }
  | none => s

/-- The lines a transition erases before the blow; a key line being written completes first, so that it is erased with them
(DESIGN CHOICE, notes/assumptions/118). -/
def State.lcErase (s : State) (o : LcReq) : State :=
  let base := s.secBase
  let hi := regionEnd s.hw.variant .security
  match o with
  | .ret =>
    let s := s.keyFlush
    { s with env := (s.env.linesIn base hi).foldl (fun e a => if leAt (e.lineAt a) 40 1 = 0x10 then e.clearLines a (a + 64) else e) s.env }
  | .retire =>
    let s := s.keyFlush
    { s with env := s.env.clearLines base hi, sec := { s.sec with paired := false, kp := [] } }
  | _ => s

/-- A write of SEC_LC_CTRL. -/
def State.lcReq (s : State) (o : LcReq) (l : Level) (key win : Nat) (hwStart : Bool) : State :=
  match s.lcCheck o l key with
  | 0 =>
    let s := { s with sec := { s.sec with lcCode := 0, lcOp := some { op := o.code, win := win, hwStart := hwStart, arb := s.cfg.arbVer } } }
    if o.isTrans then ((s.zeroize).lcErase o).settle s.now else s
  | c => { s with sec := { s.sec with lcCode := c } }

/-- A fuse operation written by the open session. -/
def State.lcWrite (s : State) (o : LcReq) (key : BitVec 16) (win : Nat) (hwStart : Bool) : State :=
  s.byHost 0x60004 .user fun l => s.lcReq o l key.toNat win hwStart

/-- SEC_LC_CTRL, TO_PROVISIONED. -/
def execToProvisioned (key : BitVec 16) (s : State) : Host.Outcome State Fault Refusal := .next (s.lcWrite .prov key 0 false)
/-- SEC_LC_CTRL, TO_DEPLOYED. -/
def execToDeployed (key : BitVec 16) (s : State) : Host.Outcome State Fault Refusal := .next (s.lcWrite .depl key 0 false)
/-- SEC_LC_CTRL, TO_RETURNED. -/
def execToReturned (key : BitVec 16) (s : State) : Host.Outcome State Fault Refusal := .next (s.lcWrite .ret key 0 false)
/-- SEC_LC_CTRL, TO_RETIRED. -/
def execToRetired (key : BitVec 16) (s : State) : Host.Outcome State Fault Refusal := .next (s.lcWrite .retire key 0 false)
/-- SEC_LC_CTRL, ROOT. -/
def execRoot (key : BitVec 16) (s : State) : Host.Outcome State Fault Refusal := .next (s.lcWrite .root key 0 false)
/-- SEC_LC_CTRL, ARB. -/
def execArb (key : BitVec 16) (s : State) : Host.Outcome State Fault Refusal := .next (s.lcWrite .arb key 0 false)
/-- SEC_LC_CTRL, WDG_FUSE. -/
def execWdgFuse (key : BitVec 16) (win : BitVec 2) (hwStart : Bool) (s : State) : Host.Outcome State Fault Refusal :=
  .next (s.lcWrite .wdg key win.toNat hwStart)

/-- The number of blown bits of a field. -/
def popCount (n len : Nat) : Nat := ((List.range len).filter n.testBit).length

/-- A 64-bit field with bits blown, lowest first, until `v` are. -/
def blowTo (n v : Nat) : Nat := (List.range 64).foldl (fun a i => if popCount a 64 < v then Nat.lor a (2 ^ i) else a) n

/-- Both copies of a field with a value. -/
def fuse2 (v : Nat) : Fuse := { a := v, b := v }

/-- The value of field `i` of R62, whose copy A S1 may have discarded (R59). -/
def Taken.pick (t : Taken) (i : Nat) (f : Fuse) : Nat := if t.aBad.testBit i then f.b else f.a

/-- The fuse array after the blow of an operation. -/
def State.blown (s : State) (o : LcOp) : Fuses :=
  let f := s.hw.fuses
  let lcs := s.sys.taken.pick 5 f.lcs
  match o.op with
  | 1 => { f with lcs := fuse2 (Nat.lor lcs 0x000F) }
  | 2 => { f with lcs := fuse2 (Nat.lor lcs 0x00F0) }
  | 3 => { f with lcs := fuse2 (Nat.lor lcs 0x0F00) }
  | 4 => { f with lcs := fuse2 (Nat.lor lcs 0xF000) }
  | 8 => { f with root := fuse2 s.sec.rootReg }
  | 9 => { f with arb := fuse2 (blowTo (s.sys.taken.pick 3 f.arb) o.arb) }
  | _ => { f with win := fuse2 (Nat.lor (s.sys.taken.pick 2 f.win) o.win)
                  hwStart := fuse2 (Nat.lor (s.sys.taken.pick 1 f.hwStart) (b2n o.hwStart)) }

/-- The fuse array after a device reset or a power loss: an operation it cuts short leaves the old or the new value of its field
(R470). -/
def State.fusesLeft (s : State) : Fuses :=
  match s.sec.lcOp with
  | some o => if Config.fuseReads s.now then s.blown o else s.hw.fuses
  | none => s.hw.fuses

/-- The fuse array takes new values: those of LCS, ROOT_HASH and ARB_FLOOR are in force at once. -/
def State.takeFuses (s : State) (f : Fuses) : State :=
  { s with hw := { s.hw with fuses := f }
           sys := { s.sys with taken :=
             let t := s.sys.taken
             { t with lcs := t.pick 5 f.lcs, root := t.pick 6 f.root, arb := popCount (t.pick 3 f.arb) 64 } } }

/-- A fuse operation ends (R469, R470). After a failed read-back the field keeps the value it then reads; where that is the new one, the
state has changed all the same, and keys are unwrapped (R478, R481). -/
def State.lcEnds (s : State) (ok : Bool) : State :=
  match s.sec.lcOp with
  | none => s
  | some o =>
    if !s.ctrlUp then s
    else
      let was := s.lcs
      let f := if ok || Config.fuseReads s.now then s.blown o else s.hw.fuses
      let s := s.takeFuses f
      let s := { s with sec := { s.sec with lcOp := none, lcCode := if ok then 0 else 7, irq := Irq.set s.sec.irq 4 } }
      let moved := !(s.lcs == was)
      let s := if !moved then s else ({ s with sec := { s.sec with transAt := some s.now } }.endSession).setDbg .off
      (if o.op ≤ 4 ∧ (ok ∨ moved) then s.unwrapAll else s).settle s.now

/-- A fuse operation ends. -/
def execLcOperationDone (readBackOk : Bool) (s : State) : Host.Outcome State Fault Refusal := .next (s.lcEnds readBackOk)

/-! ## SEC_KEY_CMD (R472, R474, R486) -/

/-- The blob in SEC_KBUF. -/
def State.blob (s : State) : List Byte := ((List.range 10).map fun k => leBytes 4 (tget 0 s.sec.kbuf k).toNat).flatten

/-- The transport key of a session of level `l`. -/
def State.transportKey (s : State) (l : Level) : List Byte :=
  Config.hmac256 ((s.sessKey l).getD (Config.noKey l.rank)) (ascii [0x44, 0x5A, 0x2D, 0x4B, 0x54] ++ s.uidBytes)

/-- The key in the blob, where its integrity value holds. -/
def State.unblob (s : State) (l : Level) : Option (List Byte) := Config.keyUnwrap (s.transportKey l) s.blob

/-- A refused SEC_KEY_CMD. -/
def State.keyRefuse (s : State) (c : Nat) : State := { s with sec := { s.sec with keyCode := c, restored := none } }

/-- An accepted installation: the key is wrapped under KEK_D, and its line write begins. -/
def State.keyStore (s : State) (key : List Byte) (a kind index : Nat) : State :=
  { s with sec := { s.sec with keyCode := 0, restored := none, keyBusy := some (a, keyLine (Config.keyWrap kek key) kind index) } }

/-- INSTALL_SKEY. -/
def State.skeyInstall (s : State) (l : Level) (lev : Nat) : State :=
  let st := s.lcs
  let okState :=
    if lev = 2 then (if l == .vendor then st == .blank || st == .provisioned
                     else st == .provisioned || st == .deployed || st == .returned)
    else st != .retired
  if !l.ge .owner then s.keyRefuse 1
  else if lev = 3 then s.keyRefuse 7
  else if !okState then s.keyRefuse 2
  else if s.sec.keyBusy.isSome then s.keyRefuse 5
  else
    match s.unblob l with
    | none => s.keyRefuse 3
    | some k => s.keyStore k (s.secBase + 0x40 * lev) (lev + 1) 0

/-- INSTALL_PAIR. -/
def State.pairInstall (s : State) (l : Level) : State :=
  if !l.ge .owner then s.keyRefuse 1
  else if !(s.lcs == .provisioned || s.lcs == .deployed) then s.keyRefuse 2
  else if s.sec.keyBusy.isSome then s.keyRefuse 5
  else
    match s.unblob l with
    | none => s.keyRefuse 3
    | some k =>
      let s := s.keyStore k (s.secBase + 0xC0) 4 0
      { s with sec := { s.sec with paired := true, kp := k } }

/-- CODE of a content-key command up to BUSY, 0 where none refuses it (notes/assumptions/38). -/
def State.ckeyCheck (s : State) (l : Level) (okState : Bool) (i : Nat) : Nat :=
  if !(l == .owner) then 1
  else if !okState then 2
  else if !(s.kpol i).valid then 4
  else if (s.kpol i).line < 16 then 6
  else if s.sec.keyBusy.isSome then 5
  else 0

/-- INSTALL_CKEY. -/
def State.ckeyInstall (s : State) (l : Level) (i : Nat) : State :=
  match s.ckeyCheck l (s.lcs == .provisioned || s.lcs == .deployed) i with
  | 0 =>
    (match s.unblob l with
     | none => s.keyRefuse 3
     | some k => s.keyStore k (s.ckeyLine i) 0x10 i)
  | c => s.keyRefuse c

/-- ERASE_CKEY. -/
def State.ckeyErase (s : State) (l : Level) (i : Nat) : State :=
  match s.ckeyCheck l (s.lcs != .retired) i with
  | 0 =>
    let a := s.ckeyLine i
    let bit : BitVec 256 := BitVec.ofNat 256 (2 ^ i)
    ({ s with
      env := s.env.clearLines a (a + 64)
      sec := { s.sec with keyCode := 0, restored := none, kram := tset [] s.sec.kram i [], ready := s.sec.ready &&& ~~~ bit } }).settle s.now
  | c => s.keyRefuse c

/-- RESTORE: the hold of the index ends; one whose alarm carries the stamp of the write stands (R496). -/
def State.holdRestore (s : State) (l : Level) (i : Nat) : State :=
  match s.ckeyCheck l (s.lcs == .deployed) i with
  | 0 =>
    if tget 0 s.sec.alarmTs i = s.now + 1 then s.keyRefuse 2
    else
      ({ s with sec := { s.sec with
          keyCode := 0, held := s.sec.held &&& ~~~ BitVec.ofNat 256 (2 ^ i), restored := some (s.now, i) } }).settle s.now
  | c => s.keyRefuse c

/-- SEC_KEY_CMD, INSTALL_SKEY. -/
def execInstallSkey (level : BitVec 2) (s : State) : Host.Outcome State Fault Refusal :=
  .next (s.byHost 0x60010 .user fun l => s.skeyInstall l level.toNat)
/-- SEC_KEY_CMD, INSTALL_PAIR. -/
def execInstallPair (s : State) : Host.Outcome State Fault Refusal := .next (s.byHost 0x60010 .user fun l => s.pairInstall l)
/-- SEC_KEY_CMD, INSTALL_CKEY. -/
def execInstallCkey (index : BitVec 8) (s : State) : Host.Outcome State Fault Refusal :=
  .next (s.byHost 0x60010 .user fun l => s.ckeyInstall l index.toNat)
/-- SEC_KEY_CMD, ERASE_CKEY. -/
def execEraseCkey (index : BitVec 8) (s : State) : Host.Outcome State Fault Refusal :=
  .next (s.byHost 0x60010 .user fun l => s.ckeyErase l index.toNat)
/-- SEC_KEY_CMD, RESTORE. -/
def execRestore (index : BitVec 8) (s : State) : Host.Outcome State Fault Refusal :=
  .next (s.byHost 0x60010 .user fun l => s.holdRestore l index.toNat)

/-- The line write of a key command completes: BUSY clears, and a content key is unwrapped. -/
def State.keyDone (s : State) : State :=
  match s.sec.keyBusy with
  | none => s
  | some (_, l) =>
    if s.ctrlUp && s.rungOk then
      let s := s.keyFlush
      if leAt l 40 1 = 0x10 then s.unwrapStart [leAt l 41 1] else s
    else s

/-- A key command's line write completes. -/
def execKeyCmdDone (s : State) : Host.Outcome State Fault Refusal := .next s.keyDone

/-! ## Tamper (R487) -/

/-- Tamper: LAST `how` at the present tick. In Winter and Midwinter the safe state waits for the return to Summer, in S1 and S2 for the
control island that carries it (notes/assumptions/149). -/
def State.tamper (s : State) (how : Nat) : State :=
  if s.sys.phase == .por || s.sys.vauxDown then s
  else
    let t := s.now
    let s := { s with sec := { s.sec with
      tamperN := incTo 0xFF s.sec.tamperN, tamperLast := how, irq := Irq.set s.sec.irq 3
      tamperEnd := if how = 1 then t + Config.tamperLen t else s.sec.tamperEnd } }
    let s := ((s.zeroize).setDbg .off).privEvent 5 t
    if !s.rungOk then
      { s with pwr := { s.pwr with
        exit := some (.summer, (s.pwr.exit.map (·.2)).getD t), tamperWake := some t, wake := 6
        irq := if s.pwr.exit.isNone then Irq.set s.pwr.irq 1 else s.pwr.irq } }
    else if s.ctrlUp then ((s.wakeEvent 6).safeEnter 2047 t).settle t
    else { s with pwr := { s.pwr with tamperWake := some (s.pwr.tamperWake.getD t) } }

/-- TAMPER_N has been low for 10 µs. -/
def execTamperPin (s : State) : Host.Outcome State Fault Refusal := .next (s.tamper 1)

/-- The glitch detector trips; it works in Summer and Autumn. -/
def execTamperGlitch (s : State) : Host.Outcome State Fault Refusal := .next (if s.rungOk then s.tamper 2 else s)

end Sys2Proof.Machine
end

