-- ==== Sys2Proof/Machine/Pins.lean ====
section
/-! DEFINITION. Pins and GPIO (15). The level at a pad comes from the commands that report it. -/

namespace Sys2Proof.Machine

/-! ## Ports -/

/-- The bits of port `p` that software may write: those not claimed; none on an absent port (R3, R498). -/
def State.portMask (s : State) (p : Nat) : Nat :=
  if p < nGpio s.hw.variant then (List.range 16).foldl (fun m i => if (s.port p).claim.testBit i then m else m + 2 ^ i) 0 else 0

/-- `new` in the bits of `mask`, `old` elsewhere. -/
def mixBits (mask old new : Nat) : Nat :=
  (List.range 16).foldl (fun a i => a + b2n (if mask.testBit i then new.testBit i else old.testBit i) * 2 ^ i) 0

/-- The bits of `m` not in `n`. -/
def lessBits (m n : Nat) : Nat := mixBits n m 0

/-- An error is recorded in GPIO_ERR_INFO: 1 LOCKED, 2 UNDEF, 3 LOCKSEQ. -/
def State.gpioErr (s : State) (code p pin : Nat) : State :=
  { s with gpio := { s.gpio with err := wpack [(0, 4, code), (8, 2, p), (12, 4, pin)], irq := Irq.set s.gpio.irq 8 } }

/-- Address of a register of port `p`. -/
def portReg (p ofs : Nat) : Nat := 0x31000 + 0x40 * p + ofs

/-! ## Outputs, directions, pulls (R501, R506, R516) -/

/-- GPIO_OUT_SET or GPIO_OUT_CLR. -/
def State.outBits (s : State) (p bits : Nat) (set : Bool) : State :=
  s.modPort p fun x => { x with out := mixBits (Nat.land bits (s.portMask p)) x.out (if set then 0xFFFF else 0) }

/-- GPIO_OUT_SET and GPIO_OUT_CLR of DBG_REG carrying the present tick are applied after one of the HMP (R517). -/
def State.outReplay (s : State) : State := s.gpio.dbgOut.foldl (fun s e => s.outBits e.1 e.2.1 e.2.2) s

/-- GPIO_OUT_SET is written. -/
def execGpioOutSet (p : Nat) (bits : BitVec 16) (s : State) : Host.Outcome State Fault Refusal :=
  .next (s.byHost (portReg p 0x08) .operator fun _ => (s.outBits p bits.toNat true).outReplay)

/-- GPIO_OUT_CLR is written. -/
def execGpioOutClr (p : Nat) (bits : BitVec 16) (s : State) : Host.Outcome State Fault Refusal :=
  .next (s.byHost (portReg p 0x0C) .operator fun _ => (s.outBits p bits.toNat false).outReplay)

/-- GPIO_DIR: unlocked bits are set; a pin that turns from input to output is parked (R503), unless boundary scan holds it, whose end
parks it. -/
def State.gpioDir (s : State) (p value : Nat) : State :=
  let m := lessBits (s.portMask p) (s.port p).locked
  s.modPort p fun x =>
    let d := mixBits m x.dir value
    ({ x with dir := d }).park (if s.scanHolds then 0 else lessBits d x.dir) s.now

/-- GPIO_DIR is written. -/
def execGpioDirWrite (p : Nat) (value : BitVec 16) (s : State) : Host.Outcome State Fault Refusal :=
  .next (s.byHost (portReg p 0x10) .operator fun _ => s.gpioDir p value.toNat)

/-- The PULL field of one pin: a locked one stays, 0x3 leaves it and records UNDEF. -/
def State.pullPin (s : State) (p value i : Nat) : State :=
  let v := value / 4 ^ i % 4
  if !(s.portMask p).testBit i || (s.port p).locked.testBit i then s
  else if v = 3 then s.gpioErr 2 p i
  else s.modPort p fun x => { x with pull := (x.pull &&& ~~~ w32 (3 * 4 ^ i)) ||| w32 (v * 4 ^ i) }

/-- GPIO_PULL. -/
def State.gpioPull (s : State) (p value : Nat) : State := (List.range 16).foldl (fun s i => s.pullPin p value i) s

/-- GPIO_PULL is written. -/
def execGpioPullWrite (p : Nat) (value : BitVec 32) (s : State) : Host.Outcome State Fault Refusal :=
  .next (s.byHost (portReg p 0x18) .operator fun _ => s.gpioPull p value.toNat)

/-! ## Alternates (R499, R502, R503, R509) -/

/-- The command completes the lock of port A whose first write named `mask`. -/
def State.locksWith (s : State) (mask : Nat) (i : Instr) : Bool :=
  let host := (s.writer (portReg 0 0x20) .operator).isSome
  let word := decide (wordTo i (portReg 0 0x20) = some (w32 (0x2D6B * 2 ^ 16 + mask)))
  match i with
  | .gpioLock p key m => host && decide (p = 0 ∧ key.toNat = 0x2D6B ∧ m.toNat = mask)
  | .hmpWrite .. => host && word
  | .dbgReg .. => word && (s.sec.dbg == .control || s.sec.dbg == .factory)
  | _ => false

/-- The pins of port A that are locked, those of a lock that completes on the present tick, in a command that waits, included (R517). -/
def State.lockedNow0 (s : State) : Nat :=
  let x := s.port 0
  match x.lockAt with
  | some (t, m) =>
    if decide (s.now < t + 10 * tUs) && s.thisTick.any (s.locksWith m) then Nat.lor x.locked (Nat.land m (s.portMask 0)) else x.locked
  | none => x.locked

/-- One bit of GPIO_PEN: a locked pin's stays and records LOCKED; a change parks the pin, unless boundary scan holds it (R503). -/
def State.penBit (s : State) (value i : Nat) : State :=
  let old := s.gpio.pen.testBit i
  if value.testBit i = old then s
  else if s.lockedNow0.testBit i then s.gpioErr 1 0 i
  else
    let s := { s with gpio := { s.gpio with
      pen := mixBits (2 ^ i) s.gpio.pen value, wakeAct := lessBits s.gpio.wakeAct (2 ^ i) } }
    if s.scanHolds then s else s.modPort 0 fun x => x.park (2 ^ i) s.now

/-- GPIO_PEN. -/
def State.gpioPen (s : State) (value : Nat) : State := (List.range 16).foldl (fun s i => s.penBit value i) s

/-- GPIO_PEN is written. -/
def execGpioPenWrite (value : BitVec 32) (s : State) : Host.Outcome State Fault Refusal :=
  .next (s.byHost 0x31104 .operator fun _ => s.gpioPen value.toNat)

/-- GPIO_MIR_SEL[k]: locked with PA(8 + k); an undefined SIG leaves the register and records UNDEF. -/
def State.mirSel (s : State) (k : Nat) (value : Word) : State :=
  if 8 ≤ k ∨ (s.port 0).locked.testBit (8 + k) then s
  else if 8 < fld value 0 5 then s.gpioErr 2 0 (8 + k)
  else { s with gpio := { s.gpio with mir := tset 0 s.gpio.mir k (value &&& 0x0000FF3F#32) } }

/-- GPIO_MIR_SEL is written. -/
def execGpioMirSelWrite (k : Nat) (value : BitVec 32) (s : State) : Host.Outcome State Fault Refusal :=
  .next (s.byHost (0x31140 + 4 * k) .operator fun _ => s.mirSel k value)

/-- The level that MIRRORk drives (R509). -/
def State.mirror (s : State) (k : Nat) : Bool :=
  let w := tget 0 s.gpio.mir k
  let ch := fld w 8 8
  let sig := match fld w 0 5 with
    | 1 => s.faultLow
    | 2 => decide (s.seqCode = 2)
    | 3 => s.hld.cause.isOpen
    | 4 => s.safeNow
    | 5 => s.wdg.wdoEnd.isSome
    | 6 => s.cas.st == .locked || s.cas.st == .leader
    | 7 => s.isRail ch && (s.chan ch).sense.good
    | 8 => s.isRail ch && s.rst ch == .good
    | _ => false
  sig != wbit w 5

/-! ## Locks (R515) -/

/-- The lock sequence of port `p` fails. -/
def State.lockFails (s : State) (p : Nat) : State :=
  (s.modPort p fun x => { x with lockAt := none }).gpioErr 3 p (Config.lockPin s.now % 16)

/-- The 10 µs of a pair have passed: the sequence has failed (notes/assumptions/39). -/
def State.lockTimeout (s : State) (p : Nat) : State :=
  match (s.port p).lockAt with
  | some (t, _) => if t + 10 * tUs ≤ s.now then s.lockFails p else s
  | none => s

/-- A pair whose 10 µs ended before the present tick has failed. -/
def State.lockPast (s : State) (p : Nat) : State :=
  match (s.port p).lockAt with
  | some (t, _) => if t + 10 * tUs < s.now then s.lockFails p else s
  | none => s

/-- GPIO_LOCK[p]. -/
def State.gpioLock (s : State) (p key mask : Nat) : State :=
  if nGpio s.hw.variant ≤ p then s
  else
    let s := s.lockPast p
    match (s.port p).lockAt with
    | none => if key = 0x6B2D then s.modPort p fun x => { x with lockAt := some (s.now, mask) } else s.lockFails p
    | some (t, m) =>
      if key = 0x2D6B ∧ mask = m ∧ s.now < t + 10 * tUs then
        let s := s.modPort p fun x => { x with lockAt := none, locked := Nat.lor x.locked (Nat.land mask (s.portMask p)) }
        { s with gpio := { s.gpio with irq := Irq.set s.gpio.irq 9 } }
      else s.lockFails p

/-- GPIO_LOCK is written. -/
def execGpioLock (p : Nat) (key mask : BitVec 16) (s : State) : Host.Outcome State Fault Refusal :=
  .next (s.byHost (portReg p 0x20) .operator fun _ => s.gpioLock p key.toNat mask.toNat)

/-- The 10 µs for the second key have passed. -/
def execGpioLockPairTimeout (p : Nat) (s : State) : Host.Outcome State Fault Refusal := .next (s.lockTimeout p)

/-! ## Pin-interrupt lines (R513, R514) -/

/-- GPIO_INT_SEL[k]. -/
def Gpio.selOf (g : Gpio) (k : Nat) : Word := tget 0x3#32 g.sel k

/-- The level mode of line `k` holds. -/
def State.lineHolds (s : State) (k : Nat) : Bool :=
  let w := s.gpio.selOf k
  let p := fld w 0 2
  let lvl := (s.port p).inp.testBit k
  decide (p < nGpio s.hw.variant) && !(s.port p).claim.testBit k
    && (match fld w 2 3 with | 4 => lvl | 5 => !lvl | _ => false)

/-- The synchronised level of a pin changes: an edge that the line of the pin watches is kept for the end of the tick. A claimed pin
sets no line. -/
def State.pinEdge (s : State) (p pin : Nat) (level : Bool) : State :=
  if nGpio s.hw.variant ≤ p ∨ 16 ≤ pin then s
  else
    let x := s.port p
    let changed := x.inp.testBit pin != level
    let w := s.gpio.selOf pin
    let mode := fld w 2 3
    let hit := changed && decide (fld w 0 2 = p) && (if level then decide (mode = 1 ∨ mode = 3) else decide (mode = 2 ∨ mode = 3))
      && !x.claim.testBit pin && !s.gpio.latched
    let s := s.modPort p fun x =>
      { x with inp := mixBits (2 ^ pin) x.inp (b2n level * 2 ^ pin), pad := mixBits (2 ^ pin) x.pad (b2n level * 2 ^ pin) }
    if hit then { s with gpio := { s.gpio with edges := s.gpio.edges ++ [(pin, p)] } } else s

/-- An edge sets the line of its pin with its stamp, unless the pin is parked (R503, R514). -/
def State.edgeSet (s : State) (e : Nat × Nat) : State :=
  if (s.port e.2).parked e.1 s.now then s
  else
    { s with gpio := { s.gpio with intStat := s.gpio.intStat.set e.1, ts := tset 0 s.gpio.ts e.1 (s.now % 2 ^ 32) } }

/-- The end of a tick: its edges set their lines, whatever was cleared on it and unless a change of function parks the pin (R517);
lines in a level mode set while their level holds (R513). While the drives are latched no line sets (R511). -/
def State.lineTick (s : State) : State :=
  let s := s.gpio.edges.foldl State.edgeSet s
  { s with gpio := { s.gpio with
      edges := [], dbgOut := []
      intStat := if s.gpio.latched then s.gpio.intStat
        else (List.range 16).foldl (fun a k => if s.lineHolds k then a.set k else a) s.gpio.intStat } }

/-- The synchronised level of a pin changes. -/
def execPinLineEdge (p pin : Nat) (level : Bool) (s : State) : Host.Outcome State Fault Refusal := .next (s.pinEdge p pin level)

/-! ## Wake pins (R510) -/

/-- The pins that the always-on island samples: those whose WAKE bit is set, unless they are parked (R503, R510). -/
def State.wakeSampled (s : State) : Nat :=
  (List.range 8).foldl (fun a k => a + b2n (s.gpio.pen.testBit k && !(s.port 0).parked k s.now) * 2 ^ k) 0

/-- The wake pins have stood at `levels` on two consecutive samples. No row tells of the first sample at the other level, which ends an
activity: where the levels are those of the row before, such a sample lay between, and the active pins are active anew (DESIGN CHOICE,
notes/assumptions/150). -/
def State.wakePins (s : State) (levels : Nat) : State :=
  let g := s.gpio
  let m := s.wakeSampled
  let act := mixBits m g.wakeAct (Nat.xor (Nat.xor levels g.wakePol) 0xFF)
  let again := decide (mixBits m g.wakeNow levels = g.wakeNow)
  let fresh := (List.range 8).filter fun k => act.testBit k && (!g.wakeAct.testBit k || (again && m.testBit k))
  let s := s.modPort 0 fun x => { x with pad := mixBits m x.pad levels }
  let s := { s with gpio := { s.gpio with
    wakeNow := mixBits m g.wakeNow levels, wakeAct := act
    irq := if s.rungOk then fresh.foldl Irq.set g.irq else g.irq } }
  if fresh.isEmpty then s else s.wakeEvent 1

/-- A wake pin becomes active. -/
def execWakePinActive (levels : BitVec 8) (s : State) : Host.Outcome State Fault Refusal :=
  .next (if s.sys.phase == .por || s.sys.vauxDown then s else s.wakePins levels.toNat)

end Sys2Proof.Machine
end

