-- ==== Sys2Proof/Machine/Faults.lean ====
section
/-! DEFINITION. The fault collector's commands (08): wire faults, the first fault, decay, reactions, the steps of the safe state,
FLT_CMD, privileged events, injection and the log. -/

namespace Sys2Proof.Machine

/-! ## Wire faults (R275, R290) -/

/-- The report pair of a source is invalid on two consecutive ticks, the first of them at `stamp`. -/
def State.wireEvent (s : State) (i stamp : Nat) (inj : Bool) : State :=
  let t := s.reportWire i stamp inj
  (if s.hw.variant == .dz32 && isChSrc i && s.srcLive i then t.safeEnter i stamp else t).settle stamp

/-- A wire fault of source `src`. -/
def execWireFault (src : Nat) (s : State) : Host.Outcome State Fault Refusal :=
  .next (if s.active then s.wireEvent src s.now false else s)

/-! ## The first fault and the decay of levels (R277, R279) -/

/-- The settled tick reaches the earliest eligible event. -/
def execFirstFaultLatch (s : State) : Host.Outcome State Fault Refusal := .next (if s.active then s.prior.latchFirst else s)

/-- A source's level returns to BASE once PEND is 0 and T has passed since its last event (R277, R306). -/
def State.decay (s : State) (i : Nat) : State :=
  let x := s.flt.src i
  match x.last with
  | some t =>
    if !x.pend && decide (x.decayAt ≤ s.now) && decide (t ≠ s.now) then
      { s with flt := { s.flt with srcs := tset {} s.flt.srcs i { x with up := 0, fell := some (s.now, x.up) } } }
    else s
  | none => s

/-- The level of source `src` decays. -/
def execSourceLevelDecay (src : Nat) (s : State) : Host.Outcome State Fault Refusal :=
  .next (if s.active then s.decay src else s)

/-! ## The safe state (R295) -/

/-- The payload of a SAFE record. -/
def State.safeParts (s : State) : List (Nat × List Byte) :=
  [(16, leBytes 4 s.flt.ffWord.toNat), (20, leBytes 4 s.flt.coWord.toNat), (24, leBytes 8 s.flt.ffStamp),
   (32, leBytes 4 s.flt.privWhy.toNat), (36, leBytes 1 s.flt.priv)]

/-- The safe state with its step replaced. -/
def State.safeStep (s : State) (k : Nat) : State :=
  { s with flt := { s.flt with safe := s.flt.safe.map fun x => { x with step := k } } }

/-- The REVOKE entries of permits that fell have been sent, or the link is down (R480). -/
def State.revokesSent (s : State) : Bool :=
  let holds (l : List McpFrame) : Bool := l.any fun f => match f with
    | .permit es => es.any fun e => !e.2
    | _ => false
  !s.mcp.up || (decide (s.sec.revoked = 0) && !holds s.mcp.opened && !s.mcp.waiting.any holds)

/-- The step of the safe state that is complete gives way to the next: 2 the drain, 3 the permits, 4 the rails, 5 at once. Step 6
ends with the marker of its record. -/
def State.safeAdvance (s : State) : State :=
  match s.flt.safe with
  | none => s
  | some x =>
    match x.step with
    | 2 => if s.hld.drain.isNone then s.safeStep 3 else s
    | 3 =>
      if s.sec.permit = 0 ∧ s.revokesSent then (((s.safeStep 4).shutDown none 5 x.origin s.now []).settle s.now) else s
    | 4 => if s.railsDown then s.safeStep 5 else s
    | 5 => (s.safeStep 6).recordAt 1 0x06 0 x.stamp s.now s.safeParts
    | _ => s

/-- A safe state whose drain has ended goes on at once as far as its steps are complete: what they do carries the stamp of that end. -/
def State.safeGoes (s : State) : State :=
  if s.active && s.flt.safe.any (fun x => decide (x.step = 2)) && s.hld.drain.isNone then
    s.safeAdvance.safeAdvance.safeAdvance.safeAdvance
  else s

/-- The safe state goes on by one step. -/
def execSafeStateAdvance (s : State) : Host.Outcome State Fault Refusal := .next (if s.active then s.prior.safeAdvance else s)

/-! ## FLT_CMD (R281, R285, R298, R299) -/

/-- The cause of a source is present (R271, R272, R275). -/
def State.causePresent (s : State) (i : Nat) : Bool :=
  let c := s.chan (i / 8)
  let own :=
    if i < 1024 then
      match i % 8 with
      | 0 => c.armed s.now .ov && c.sense.ov.out
      | 1 => c.armed s.now .uv && c.sense.uv.out
      | 2 => c.armed s.now .oc && c.sense.oc.out
      | 3 => c.rail.state == .good && !c.sense.good
      | 5 => c.rail.state == .dischargeTimeout
      | _ => false
    else
      match i with
      | 1034 => s.hs.brkOut
      | 1036 => s.rst HS == .good && !s.goodNow HS
      | 1038 => decide (s.sys.lost ≠ 0)
      | 1040 => s.hld.cause.energy || s.hld.cause.free
      | 1043 => !s.mcp.up
      | 1047 => s.cas.ports.any fun p => p.2.fell
      | 1051 => decide (90 ≤ s.segUsed)
      | 1055 => decide (s.now < s.pwr.hotEnd)
      | _ => s.hs.hvs.any fun e =>
          match hvsSrc e.2.role e.1 with
          | some p => (decide (p.1 = i) && e.2.beyondLo) || (decide (p.2 = i) && e.2.beyondHi)
          | none => false
  own || decide (s.now < (s.flt.src i).wireEnd) || decide ((s.flt.src i).evAt = some s.now)

/-- A refused FLT_CMD write. -/
def State.cmdRefuse (s : State) (c : Nat) : State :=
  { s with flt := { s.flt with cmdCode := c, irq := Irq.set s.flt.irq 5 } }

/-- A source's status changed by an accepted ACK or CLR, with its log entry. -/
def Flt.answer (f : Flt) (i : Nat) (x : Src) (kind t : Nat) : Flt :=
  let f := { f with srcs := tset {} f.srcs i x, cmdCode := 0 }
  f.logAdd { src := i, kind := kind, level := x.lastLev, origin := 0, inj := false, stamp := t }

/-- What an accepted clear undoes where an event of the source carries its tick (R306). -/
def Src.clearAt (x : Src) (now : Nat) : Src :=
  { x with pend := false, grace := x.grace.filter fun g => decide (g ≤ now), ack := false, cleared := some (now, x.ack, x.grace) }

/-- A grace timer that expires with the present stamp or has expired is no longer running, and its reaction is carried out
whatever a command of that stamp does (R137, R306). -/
def Src.graceLeft (x : Src) (now : Nat) : Option Nat := x.grace.filter fun g => decide (g ≤ now)

/-- FLT_CMD.ACK (R285). -/
def State.cmdAck (s : State) (i : Nat) : State :=
  let x := s.flt.src i
  if !srcNamed s.hw.variant i then s.cmdRefuse 2
  else if x.grace = x.graceLeft s.now then s.cmdRefuse 4
  else { s with flt := s.flt.answer i { x with grace := none, ack := true } 6 s.now }

/-- FLT_CMD.CLR (R285, R299). -/
def State.cmdClr (s : State) (i : Nat) : State :=
  let x := s.flt.src i
  if !srcNamed s.hw.variant i then s.cmdRefuse 2
  else if !x.pend then s.cmdRefuse 4
  else if s.causePresent i then s.cmdRefuse 3
  else { s with flt := s.flt.answer i (x.clearAt s.now) 5 s.now }

/-- No source pends and no privileged bit is set. -/
def State.unclear (s : State) : Bool := s.flt.anyPend || decide (s.flt.priv ≠ 0)

/-- FLT_CMD.SAFE_CLR (R298): what refuses it at once does; else it is judged at the end of its tick, since an event of that tick wins
(R306). -/
def State.cmdSafeClr (s : State) : State :=
  match s.flt.safe with
  | some x =>
    if x.step ≠ 7 then s.cmdRefuse 6
    else if s.unclear then s.cmdRefuse 5
    else { s with flt := { s.flt with safeReq := true, cmdCode := 0 } }
  | none => s.cmdRefuse 6

/-- The end of the tick of a SAFE_CLR: the safe state is left, unless a source pends or a privileged bit is set by then (R298, R306). -/
def State.safeLeave (s : State) : State :=
  if s.flt.safeReq then
    let s := { s with flt := { s.flt with safeReq := false } }
    if s.unclear then s.cmdRefuse 5
    else
      let s := { s with flt := { s.flt with safe := none }, hld := { s.hld with cause := { s.hld.cause with safe := false } } }
      (s.disAll s.now).settle s.now
  else s

/-- A source pends since before the present tick, or a privileged bit is set: what refuses FF_REARM, which comes before the events of
its tick (R281, R306). -/
def State.unclearBefore (s : State) : Bool :=
  (s.flt.srcs.any fun e => e.2.pend && decide (e.2.pendAt < s.now)) || decide (s.flt.priv ≠ 0)

/-- FLT_CMD.FF_REARM (R281). -/
def State.cmdRearm (s : State) : State :=
  if s.unclearBefore then s.cmdRefuse 5
  else { s with flt := { s.flt with ff := none, cmdCode := 0, rearmAt := s.now
                                    elig := s.flt.elig.filter fun e => decide (s.now ≤ e.stamp)
                                    early := s.flt.early.filter fun e => decide (s.now ≤ e.2.2) } }

/-- A write of FLT_CMD from a session of level `l`. R299 gives no order where several refusals hold: the model takes SESSION of ACK, CLR
and FF_REARM, then MULTI, then those of the command itself, SESSION of SAFE_CLR among them (DESIGN CHOICE, notes/assumptions/144). -/
def State.fltCmd (s : State) (l : Level) (ack clr safeClr rearm : Bool) (src : Nat) : State :=
  let n := b2n ack + b2n clr + b2n safeClr + b2n rearm
  if n = 0 then s
  else if (ack || clr || rearm) && !l.ge .operator then s.cmdRefuse 1
  else if 2 ≤ n then s.cmdRefuse 7
  else
    if ack then s.cmdAck src
    else if clr then s.cmdClr src
    else if safeClr then (if l.ge .owner then s.cmdSafeClr else s.cmdRefuse 1)
    else s.cmdRearm

/-- FLT_CMD.ACK. -/
def execFltAck (src : BitVec 11) (s : State) : Host.Outcome State Fault Refusal :=
  .next (s.byHost 0x20004 .user fun l => s.fltCmd l true false false false src.toNat)
/-- FLT_CMD.CLR. -/
def execFltClr (src : BitVec 11) (s : State) : Host.Outcome State Fault Refusal :=
  .next (s.byHost 0x20004 .user fun l => s.fltCmd l false true false false src.toNat)
/-- FLT_CMD.SAFE_CLR. -/
def execFltSafeClr (s : State) : Host.Outcome State Fault Refusal :=
  .next (s.byHost 0x20004 .user fun l => s.fltCmd l false false true false 0)
/-- FLT_CMD.FF_REARM. -/
def execFltFfRearm (s : State) : Host.Outcome State Fault Refusal :=
  .next (s.byHost 0x20004 .user fun l => s.fltCmd l false false false true 0)

/-! ## Privileged events (R302, R303) -/

/-- The cause of a privileged event is present: the WDO pulse of an expiry runs, no good window has been counted since a main-clock
loss, the failed check still fails, TAMPER_N is low (R302, R328, R331, R487). -/
def State.privCause (s : State) (i : Nat) : Bool :=
  match i with
  | 0 => decide (s.now < s.wdg.expEnd)
  | 1 => s.wdg.clkCause
  | 2 => decide (s.now < s.flt.selfEnd)
  | 4 => decide (s.now < s.sec.tamperEnd)
  | _ => false

/-- A write of 1 clears a bit of FLT_PRIV_STAT whose cause is absent and that was not set on the tick of the write (R11). -/
def State.privClear (s : State) (bits : Nat) : State :=
  let keep (i : Nat) : Bool := s.privCause i || s.flt.privNew.testBit i
  let gone := (List.range 5).filter fun i => bits.testBit i && s.flt.priv.testBit i && !keep i
  ({ s with flt := { s.flt with priv := gone.foldl (fun p i => p - 2 ^ i) s.flt.priv } }).settle s.now

/-- FLT_PRIV_STAT is written. -/
def execFltPrivClear (bits : BitVec 5) (s : State) : Host.Outcome State Fault Refusal :=
  .next (s.byHost 0x20040 .operator fun _ => s.privClear bits.toNat)

/-- The collector's self-check finds a failure of kind `why`: SELF, SELF_WHY, the safe state; or, for `why` 0, a single-bit error, which
it corrects and counts (R303, notes/assumptions/109). -/
def State.selfFault (s : State) (why : Nat) : State :=
  if why = 0 then { s with flt := { s.flt with corr := incTo 0xFF s.flt.corr } }
  else if 1 ≤ why ∧ why ≤ 4 then
    let s := { s with flt := { s.flt with selfWhy := why, selfEnd := s.now + Config.selfLen s.now } }
    (((s.privEvent 3 s.now).safeEnter 2047 s.now).settle s.now)
  else s

/-- The collector's self-check fails. -/
def execCollectorSelfFault (why : BitVec 4) (s : State) : Host.Outcome State Fault Refusal :=
  .next (if s.active then s.selfFault why.toNat else s)

/-! ## Injection (R304) and the log (R305) -/

/-- FLT_INJ.GO. -/
def State.inject (s : State) (src : Nat) (wire : Bool) : State :=
  let code (c : Nat) := { s with flt := { s.flt with injCode := c } }
  if !(s.sec.dbg == .factory && (s.lcs == .blank || s.lcs == .returned)) then code 1
  else if !srcNamed s.hw.variant src then code 2
  else if wire then (code 0).wireEvent src s.now true
  else ((code 0).chanEvent src s.now true).settle s.now

/-- FLT_INJ is written. -/
def execFltInjGo (src : BitVec 11) (wire : Bool) (s : State) : Host.Outcome State Fault Refusal :=
  .next (s.byHost 0x20070 .operator fun _ => s.inject src.toNat wire)

/-- A read of FLT_LOG_ENT removes the oldest entry and captures its stamp. -/
def State.flogRead (s : State) : State :=
  match s.flt.log with
  | [] => s
  | e :: r => { s with flt := { s.flt with log := r, logTs := e.stamp } }

/-- FLT_LOG_ENT is read. -/
def execFltLogRead (s : State) : Host.Outcome State Fault Refusal := .next (s.byReader 0x20060 s.flogRead)

/-- FLT_LOG_STAT.CLR. -/
def State.flogClr (s : State) : State := { s with flt := { s.flt with log := [], logOvf := false } }

/-- FLT_LOG_STAT.CLR is written. -/
def execFltLogClr (s : State) : Host.Outcome State Fault Refusal := .next (s.byHost 0x20068 .operator fun _ => s.flogClr)

end Sys2Proof.Machine
end

