-- ==== Sys2Proof/Machine/Watchdog.lean ====
section
/-! DEFINITION. The watchdog and the clock monitor (09). -/

namespace Sys2Proof.Machine

/-! ## Question and answer (R318, R319) -/

/-- A 16-bit value rotated left by `n`. -/
def rotl16 (a n : Nat) : Nat := (a * 2 ^ n % 0x10000) ||| (a / 2 ^ (16 - n))

/-- The answer of task `i` with its salt to question `q`. -/
def wdgAnswer (q salt i : Nat) : Nat := ((rotl16 (q ^^^ salt) (i + 1) + salt) % 0x10000) ^^^ 0x6C93

/-! ## The window (R312) -/

/-- The tick on which the window opens, by fuse WDG_WIN. -/
def Wdg.openAt (w : Wdg) (win : Nat) : Nat :=
  w.start + (match win with | 0 => w.len / 4 | 1 => w.len * 3 / 8 | 2 => w.len / 2 | _ => w.len * 3 / 4)

/-- The window is open at `now`. -/
def Wdg.isOpen (w : Wdg) (win now : Nat) : Bool := w.run && decide (w.openAt win ≤ now)

/-- An expiry that has come is carried out before anything else of its tick (R137, R332). -/
def State.wdgCatch (s : State) : State :=
  match dueAt s.wdgDue s.now with
  | some t => (s.upTo t 0).wdgExpire t
  | none => s

/-- The period ends. -/
def execWdgExpiry (s : State) : Host.Outcome State Fault Refusal := .next s.wdgCatch

/-- The window opens: OPENED. -/
def State.wdgOpens (s : State) : State :=
  if s.wdgLive && s.wdg.isOpen s.sys.taken.win s.now && !s.wdg.opened then
    { s with wdg := { s.wdg with opened := true, irq := Irq.set s.wdg.irq 0 } }
  else s

/-- The window opens. -/
def execWdgWindowOpen (s : State) : Host.Outcome State Fault Refusal := .next s.wdgOpens

/-- WDG_CTRL.START from a session of level `l` (R307). -/
def State.wdgStart (s : State) (l : Level) : State :=
  if s.wdg.run then s
  else if !l.ge .operator then { s with wdg := { s.wdg with code := 0xB } }
  else { s with wdg := { s.wdgPeriod s.now with run := true, code := 0 } }

/-- WDG_CTRL.START is written. -/
def execWdgStart (s : State) : Host.Outcome State Fault Refusal := .next (s.byHost 0x30008 .user fun l => s.wdgStart l)

/-! ## Refusals -/

/-- A refused write that raises a source. -/
def State.wdgRaise (s : State) (c src : Nat) : State := ((s.wdgRefuse c).report src s.now).settle s.now

/-- WDG_PERIOD.NEXT from a session of level `l` (R314). -/
def State.wdgNext (s : State) (l : Level) (next : Nat) : State :=
  let s := s.wdgCatch
  if !l.ge .operator then s.wdgRefuse 0xB
  else if !s.wdg.run then s.wdgRefuse 0xC
  else if !s.wdg.isOpen s.sys.taken.win s.now then s.wdgRefuse 9
  else if next = 0 ∨ 4096 < next then s.wdgRefuse 0xA
  else { s with wdg := { s.wdg with nextMs := next, pending := true, code := 0 } }

/-- WDG_PERIOD is written. -/
def execWdgPeriodWrite (next : BitVec 13) (s : State) : Host.Outcome State Fault Refusal :=
  .next (s.byHost 0x30004 .user fun l => s.wdgNext l next.toNat)

/-- The refusal of a write to WDG_ANS, WDG_SVC or WDG_KEY that the service mode or an expiry decides (R309, R316, R327): 0 for
none. An expiry of the write's tick comes before the mode (notes/assumptions/30). -/
def Wdg.gate (w : Wdg) (qa : Bool) (now : Nat) : Nat :=
  if !w.run then 0xC else if w.expAt = some now then 8 else if w.qa != qa then 7 else 0

/-! ## Question-and-answer service (R320 to R323) -/

/-- WDG_ANS of task `i` (R320). -/
def State.wdgAns (s : State) (i answer : Nat) : State :=
  let s := s.wdgCatch
  let w := s.wdg
  match w.gate true s.now with
  | 0 =>
    let cfg := tget 0 w.tasks i
    if w.checked.testBit i || w.flag.testBit i || w.dup.testBit i then
      { s with wdg := { w with dup := Nat.lor w.dup (2 ^ i) } }.wdgRefuse 3
    else if !wbit cfg 16 || decide (answer ≠ wdgAnswer w.q (fld cfg 0 16) i) then
      { s with wdg := { w with flag := Nat.lor w.flag (2 ^ i) } }.wdgRefuse 4
    else { s with wdg := { w with checked := Nat.lor w.checked (2 ^ i), code := 0 } }
  | c => s.wdgRefuse c

/-- WDG_ANS is written. -/
def execWdgAns (task : BitVec 3) (answer : BitVec 16) (s : State) : Host.Outcome State Fault Refusal :=
  .next (s.byHost 0x30014 .user fun _ => s.wdgAns task.toNat answer.toNat)

/-- An accepted service: a new period, and the permits an expiry held back may stand again (R313, R480). -/
def State.wdgAccept (s : State) : State :=
  { s with wdg := { s.wdgPeriod s.now with code := 0, irq := Irq.set s.wdg.irq 1, expiredSince := false } }.settle s.now

/-- Every enabled task has checked in. -/
def Wdg.allIn (w : Wdg) : Bool := (List.range 8).all fun i => !wbit (tget 0 w.tasks i) 16 || w.checked.testBit i

/-- CODE of a service, 0 where it is accepted (R321). -/
def Wdg.svcCheck (w : Wdg) (svc win now : Nat) : Nat :=
  if !w.isOpen win now then 1
  else if svc ≠ (w.q ^^^ 0xFFFF) then 5
  else if w.flag ≠ 0 then 4
  else if w.dup ≠ 0 then 3
  else if !w.allIn then 2
  else 0

/-- WDG_SVC. -/
def State.wdgSvc (s : State) (svc : Nat) : State :=
  let s := s.wdgCatch
  match s.wdg.gate true s.now with
  | 0 =>
    match s.wdg.svcCheck svc s.sys.taken.win s.now with
    | 0 => s.wdgAccept
    | 1 => s.wdgRaise 1 1057
    | c => ({ s with wdg := { s.wdg with checked := 0, flag := 0, dup := 0 } }).wdgRaise c 1056
  | c => s.wdgRefuse c

/-- WDG_SVC is written. -/
def execWdgSvc (svc : BitVec 16) (s : State) : Host.Outcome State Fault Refusal :=
  .next (s.byHost 0x30018 .user fun _ => s.wdgSvc svc.toNat)

/-! ## Fixed-key service (R325, R326) -/

/-- The 10 µs of a key pair have passed. -/
def execWdgKeyPairTimeout (s : State) : Host.Outcome State Fault Refusal := .next s.keyEnds

/-- A key pair fails at the present tick: a write that follows on it belongs to the failed pair and begins no new one (R326,
notes/assumptions/113). -/
def State.keyFails (s : State) : State := ({ s with wdg := { s.wdg with failAt := some s.now } }).wdgRaise 6 1056

/-- The command makes an on request that is acted on: the first one ends KEY mode (R75, R315). -/
def State.makesOn (s : State) (i : Instr) : Bool :=
  let ask := match i with
    | .seqOnRequest => true
    | _ => (wordTo i 0x2000).any fun w => wbit w 0 && !wbit w 1
  ask && (s.writer 0x2000 .user).any (fun l => l.ge .operator) && !s.onHeld 0 && !s.falling
    && s.rails.any fun r => (s.rst r).startable

/-- A change from KEY to QA mode is still to come on the present tick: it discards a key pair that is completed on it (R332). -/
def State.leavesKey (s : State) : Bool :=
  let deep := s.sec.dbg == .control || s.sec.dbg == .factory
  if deep then s.seq.everOn && s.sys.phase != .recovery && s.thisTick.any (· == .dbgOff)
  else !s.seq.everOn && (s.thisTick.any s.makesOn || s.cas.domActs.any fun a => a.1 && decide (a.2 = s.now))

/-- WDG_KEY. -/
def State.wdgKey (s : State) (key : Nat) : State :=
  let s := s.wdgCatch.keyEnds
  let w := s.wdg
  match w.gate false s.now with
  | 0 =>
    match w.keyAt with
    | some _ =>
      let s := { s with wdg := { w with keyAt := none } }
      if s.leavesKey then s.wdgRefuse 7
      else if key ≠ 0x3C5A then s.keyFails
      else if !w.isOpen s.sys.taken.win s.now then s.wdgRaise 1 1057
      else s.wdgAccept
    | none =>
      if w.failAt = some s.now then s.wdgRefuse 6
      else if key = 0xA5C3 then { s with wdg := { w with keyAt := some s.now } }
      else s.keyFails
  | c => s.wdgRefuse c

/-- WDG_KEY is written. -/
def execWdgKey (key : BitVec 16) (s : State) : Host.Outcome State Fault Refusal :=
  .next (s.byHost 0x3001C .user fun _ => s.wdgKey key.toNat)

/-! ## WDO and the clock monitor (R329 to R331) -/

/-- The WDO pulse ends. -/
def execWdoPulseEnd (s : State) : Host.Outcome State Fault Refusal :=
  .next { s with wdg := { s.wdg with wdoEnd := s.wdg.wdoEnd.filter fun e => decide (s.now < e) } }

/-- Every output drive of a rail channel and the gate of channel HS are released at once (R76, R267). -/
def State.release (s : State) : State :=
  { s with
    chans := tmap {} (fun _ c => { c with sense := { c.sense with en := false, dis := false, trimOn := false, trim := 0 } }) s.chans
    hs := { s.hs with gateOn := false } }

/-- Main-clock loss: WDO, CLK_LOSS, drives released, the main clock stands; the device reset follows its restart. -/
def State.clkLost (s : State) : State :=
  let s := { s with wdg := { s.wdg.pulse s.now with clkCause := true, armed := false } }
  let s := (s.privEvent 2 s.now).release
  { s with sys := { s.sys with mainClock := false, rstCause := Nat.lor s.sys.rstCause 4 } }

/-- A window of the clock monitor ends with `count` cycles; `edgeOnEnd` says that a main-clock edge falls on its last tick. -/
def State.clkWindow (s : State) (count : Nat) (edgeOnEnd : Bool) : State :=
  if !s.wdg.armed then s
  else
    let s := { s with wdg := { s.wdg with last := count } }
    if count < 800 ∨ 1200 < count ∨ edgeOnEnd then s.clkLost
    else { s with wdg := { s.wdg with clkCause := false } }

/-- A window of the clock monitor ends. -/
def execClkmonWindowEnd (count : Nat) (edgeOnEnd : Bool) (s : State) : Host.Outcome State Fault Refusal :=
  .next (s.clkWindow count edgeOnEnd)

end Sys2Proof.Machine
end

