-- ==== Sys2Proof/Machine/Power.lean ====
section
/-! DEFINITION. The power ladder (R488 to R494) and OVERTEMP (R537). -/

namespace Sys2Proof.Machine

/-! ## Requests (R490) -/

/-- A refused rung request. -/
def State.pwrRefuse (s : State) (c : Nat) : State :=
  { s with pwr := { s.pwr with code := c, irq := Irq.set s.pwr.irq 2 } }

/-- Winter or Midwinter may be requested. -/
def State.canSleep (s : State) : Bool := decide (s.seqCode = 0) && s.railsOff && s.hld.drain.isNone && s.seq.onLatch.isNone
  && s.seq.onWait.isEmpty

/-- A rung that runs every island is entered. -/
def State.rungTo (s : State) (r : Rung) : State :=
  { s with pwr := { s.pwr with rung := r, entryTs := s.now, irq := Irq.set s.pwr.irq 0 } }

/-- PWR_CTRL.GO for rung `r` from a session of level `l`. -/
def State.pwrReq (s : State) (r : Rung) (l : Level) : State :=
  if !l.ge .operator then s.pwrRefuse 1
  else if s.pwr.rung = r then s.pwrRefuse 2
  else if s.pwr.entry.isSome || s.pwr.exit.isSome then s.pwrRefuse 3
  else
    match r with
    | .summer => (({ s with pwr := { s.pwr with code := 0 } }).rungTo .summer).settle s.now
    | .autumn => ((({ s with pwr := { s.pwr with code := 0 } }).leaveSummer s.now).rungTo .autumn).settle s.now
    | _ =>
      if s.canSleep then (({ s with pwr := { s.pwr with code := 0 } }).rungEnter r true).settle s.now else s.pwrRefuse 4

/-- PWR_CTRL, Summer. -/
def execPwrToSummer (s : State) : Host.Outcome State Fault Refusal := .next (s.byHost 0x1004 .user fun l => s.pwrReq .summer l)
/-- PWR_CTRL, Autumn. -/
def execPwrToAutumn (s : State) : Host.Outcome State Fault Refusal := .next (s.byHost 0x1004 .user fun l => s.pwrReq .autumn l)
/-- PWR_CTRL, Winter. -/
def execPwrToWinter (s : State) : Host.Outcome State Fault Refusal := .next (s.byHost 0x1004 .user fun l => s.pwrReq .winter l)
/-- PWR_CTRL, Midwinter. -/
def execPwrToMidwinter (s : State) : Host.Outcome State Fault Refusal :=
  .next (s.byHost 0x1004 .user fun l => s.pwrReq .midwinter l)

/-! ## Winter and Midwinter (R491 to R494, R413, R511) -/

/-- A LOCKED device whose clock stops is no longer locked; four good TIME frames lock it again (R413). -/
def Cas.clockStops (c : Cas) : Cas :=
  if c.st = .locked then { c.setLock .joined with goodTimes := 0 } else { c with goodTimes := 0 }

/-- The end of a tick takes the steps of an entry that nothing holds back; leaving Summer aborts as R175 and R201 say (R490, R492). In
Midwinter every cascade port is disabled, and what lies beyond is lost (R417). -/
def State.entryTick (s : State) : State :=
  if s.entryReady then
    let t := (if s.pwr.rung == .summer then s.leaveSummer s.now else s).rungPrepare
    if s.pwr.entry = some .midwinter then t.portsLost fun _ => true else t
  else s

/-- What has come since the steps of an entry were taken is undone before the clock stops, so that the rung has no session, no key and
debug level OFF (R492, R495, notes/assumptions/119). -/
def State.entrySweep (s : State) : State := ((s.zeroize.endSession).setDbg .off)

/-- The main clock stops and the rung is entered, where the steps of R492 are done and the rails are down. -/
def State.entryStop (s : State) : State :=
  match s.pwr.entry with
  | none => s
  | some r =>
    if s.pwr.prepared && s.railsDown && s.sys.mainClock then
      let s := s.entrySweep
      { s with
        sys := { s.sys with mainClock := false, rcAcc := 0 }
        cas := s.cas.clockStops
        gpio := { s.gpio with latched := true, mirHeld := (List.range 8).foldl (fun a k => a + b2n (s.mirror k) * 2 ^ k) 0 }
        pwr := { s.pwr with rung := r, entry := none, prepared := false, entryTs := s.now, irq := Irq.set s.pwr.irq 0 } }
    else s

/-- A wake source that fired on the stop tick begins the exit at once (R496). -/
def State.wakeKept (s : State) : State :=
  match s.pwr.woke with
  | some (src, t) => if !s.rungOk && decide (t = s.now) then s.wakeEvent src else s
  | none => s

/-- The main clock stops on the rung change. -/
def execRungEntryStop (s : State) : Host.Outcome State Fault Refusal := .next s.wdgCatch.entryStop.wakeKept

/-- The input-loss comparator is released on the present tick, in a command that waits, and wakes the device. -/
def State.vinComes (s : State) : Bool :=
  s.wakeEnabled 4 && s.thisTick.any fun i => match i with
    | .inputLossComparatorRelease => s.pwr.vinLoss
    | .wake src => decide (src = 4)
    | _ => false

/-- WIN_MID seconds have passed in Winter: Midwinter, with every cascade port disabled, unless the comparator's release wakes the
device on that tick (R491, R496). -/
def State.winMid (s : State) : State :=
  let sec := fld s.pwr.policy 8 8
  if s.pwr.rung == .winter && s.pwr.exit.isNone && !s.vinComes && decide (sec ≠ 0) && decide (s.pwr.entryTs + sec * tSec ≤ s.now) then
    { s.casDisable.portsLost (fun _ => true) with pwr := { s.pwr with rung := .midwinter, entryTs := s.now, irq := Irq.set s.pwr.irq 0 } }
  else s

/-- WIN_MID expires. -/
def execWinMidExpiry (s : State) : Host.Outcome State Fault Refusal := .next s.winMid

/-- WAKE_T seconds have passed since the last rung change (notes/assumptions/40). -/
def State.wakeTimer (s : State) : State :=
  let sec := fld s.pwr.policy 16 16
  if decide (sec ≠ 0) && decide (s.pwr.entryTs + sec * tSec ≤ s.now) then s.wakeEvent 5 else s

/-- WAKE_T expires. -/
def execWakeTExpiry (s : State) : Host.Outcome State Fault Refusal := .next s.wakeTimer

/-- A wake source fires. -/
def execWake (src : BitVec 4) (s : State) : Host.Outcome State Fault Refusal := .next (s.wakeEvent src.toNat)

/-- A disabled port begins training, with its link state empty. -/
def CasPort.train (q : CasPort) : CasPort :=
  if q.link == .disabled then q.clear .training else q

/-- Port `p` begins training. -/
def Cas.train (c : Cas) (p : Nat) : Cas := { c with ports := tmod {} c.ports p CasPort.train }

/-- Cascade ports that are enabled train again: the up port of a follower, and the down ports that CAS_CFG.DN_EN enables. -/
def State.casRetrain (s : State) : State :=
  let c := if s.sys.strap then s.cas else s.cas.train 0
  let c := (List.range (nCasPort s.hw.variant - 1)).foldl (fun c k => if wbit s.cas.cfg (8 + k) then c.train (k + 1) else c) c
  { s with cas := c }

/-- Ticks from the stamp of the wake to the target rung (R488). -/
def Rung.exitLen : Rung → Nat
  | .midwinter => 200 * tUs
  | _ => 20 * tUs

/-- The target rung is reached, the exit latency after the wake: the clock monitor is rearmed, a watchdog period begins on the next
tick, the latch is released, links train and keys are unwrapped again (R311, R494, R511). A tamper that woke the device enters the
safe state with its stamp, a source that arose meanwhile is raised, and a DOM on frame is acted on. -/
def State.exitDone (s : State) : State :=
  match s.pwr.exit with
  | none => s
  | some (r, u) =>
    if s.rungOk || decide (s.now < u + s.pwr.rung.exitLen) then s
    else
      let s := s.rcEdge
      let t := s.now
      let s := { s with
        sys := { s.sys with mainClock := true }
        wdg := if s.wdg.run then { (s.wdg.period (t + 1)) with armed := true } else { s.wdg with armed := true }
        gpio := { s.gpio with latched := false }
        pwr := { s.pwr with rung := r, exit := none, entryTs := t, irq := Irq.set s.pwr.irq 0 } }
      let l := s.sys.deferred
      let s := ({ s.casRetrain with sys := { s.sys with deferred := [] } }.unwrapAll).reports l t
      let tam := s.pwr.tamperWake
      let dom := s.pwr.domOn
      let s := { s with pwr := { s.pwr with tamperWake := none, domOn := false } }
      let s := match tam with | some u => s.safeEnter 2047 u | none => s
      let s := s.settle t
      if dom then (s.onReq 2 t).settle t else s

/-- The target rung is reached. -/
def execRungExitDone (s : State) : Host.Outcome State Fault Refusal := .next s.exitDone

/-! ## OVERTEMP (R537) -/

/-- The junction rises above 145 °C: the source is raised, in start-up at READY (R55), in a rung whose collector is stopped at the exit
(notes/assumptions/147); its cause stays until the junction is back at 140 °C. -/
def State.overtemp (s : State) : State :=
  if s.sys.phase == .por || s.sys.vauxDown then s
  else
    let s := { s with pwr := { s.pwr with hotEnd := s.now + Config.hotLen s.now } }
    if s.active then (s.report 1055 s.now).settle s.now else { s with sys := s.sys.deferSrc 1055 }

/-- The junction rises above 145 °C. -/
def execOvertemp (s : State) : Host.Outcome State Fault Refusal := .next s.overtemp

end Sys2Proof.Machine
end

