-- ==== Sys2Proof/Machine/Counters.lean ====
section
/-! DEFINITION. Counter commands (16): freeze, thaw, snapshots, writes of a leaf, scrubbing, and the end of a throughput
window. -/

namespace Sys2Proof.Machine

/-! ## Snapshots (R525, R526) -/

/-- What a leaf reads as: 0 on a channel not in use, all ones while invalid (R518, R523). -/
def State.leafVal (s : State) (k : Nat) : Nat := if s.inUse (k / 8) then s.cnt.leafRead k else 0

/-- What an island total reads as. -/
def Cnt.islRead (c : Cnt) (k : Nat) : Nat := if tget false c.islInv k then 0xFFFFFFFFFFFFFFFF else tget 0 c.isl k

/-- What a device total reads as. -/
def Cnt.devRead (c : Cnt) (j : Nat) : Nat := if tget false c.devInv j then 0xFFFFFFFFFFFFFFFF else tget 0 c.dev j

/-- Word `k` of a bitmap of the leaves. -/
def leafMap (f : Nat → Bool) (k : Nat) : Word := wpack ((List.range 32).map fun b => (b, 1, b2n (f (32 * k + b))))

/-- Low and high word of a 64-bit value at an offset. -/
def twoWords (ofs n : Nat) : List (Nat × Word) := [(ofs, lo32 n), (ofs + 4, hi32 n)]

/-- The last-window throughput registers of port `p` at their snapshot offsets. -/
def Cnt.tpSnap (c : Cnt) (p : Nat) : List (Nat × Word) :=
  let x := tget {} c.tp p
  [(0x110 + 0x20 * p, w32 x.lBytes), (0x114 + 0x20 * p, w32 x.lFrames), (0x118 + 0x20 * p, wpack [(0, 16, x.lErrs), (16, 16, x.wseq)])]

/-- The RS registers of the CNT block as a capture copies them, by offset; registers that read 0 are left out (R525). -/
def State.cntWords (s : State) : Tab Word :=
  let v := s.hw.variant
  let leaves := List.range (8 * nCh v)
  ((List.range (3 + nCasPort v)).flatMap s.cnt.tpSnap
    ++ (List.range (nCh v / 4)).map (fun k => (0x500 + 4 * k, leafMap (fun b => !tget false s.cnt.inv b) k))
    ++ (List.range (nCh v / 4)).map (fun k => (0x580 + 4 * k, leafMap (tget false s.cnt.ovf) k))
    ++ leaves.flatMap (fun k => twoWords (0x3000 + 8 * k) (s.leafVal k))
    ++ (List.range (8 * nIsl v)).flatMap (fun k => twoWords (0x7800 + 8 * k) (s.cnt.islRead k))
    ++ (List.range 8).flatMap (fun j => twoWords (0x7C00 + 8 * j) (s.cnt.devRead j))).filter fun e => !decide (e.2 = 0)

/-- A snapshot is pending: a CNT_SNAP before its capture or delivery, or a view that includes counters (R526). -/
def State.cntBusy (s : State) : Bool :=
  s.cnt.req.isSome || s.cnt.shadow.isSome || (match s.sys.viewReq with | some q => q.cnt | none => false)

/-- Every island copies its counters into shadow on tick `t`; `src` is the code of CNT_STAT.SRC. -/
def State.cntCapture (s : State) (src t : Nat) : State :=
  { s with cnt := { s.cnt with req := none, shadow := some (src, t, s.cntWords) } }

/-- A pending CNT_SNAP whose capture tick is still to come is dropped when a view that includes counters is accepted (R526). -/
def Cnt.dropSnap (c : Cnt) (now : Nat) : Cnt :=
  if c.req.any fun t => decide (now < t) then { c with req := none, code := 3 } else c

/-- The capture of a CNT_SNAP whose tick has come by `t`. -/
def State.cntSnapBy (s : State) (t : Nat) : State :=
  match dueAt s.cnt.req t with
  | none => s
  | some d => if s.active then s.cntCapture 0 d else s

/-- The capture tick of a CNT_SNAP has come. -/
def State.cntSnapCapture (s : State) : State := s.cntSnapBy s.now

/-- The capture tick of a CNT_SNAP. -/
def execCntSnapCapture (s : State) : Host.Outcome State Fault Refusal := .next s.cntSnapCapture

/-- The rail island that a snapshot register at an offset comes from; none for the totals of the device and the ports. -/
def snapIsl (o : Nat) : Option Nat :=
  if 0x500 ≤ o ∧ o < 0x600 then some (o % 0x80 / 8)
  else if 0x3000 ≤ o ∧ o < 0x5000 then some ((o - 0x3000) / 0x200)
  else if 0x7800 ≤ o ∧ o < 0x7C00 then some ((o - 0x7800) / 0x40)
  else none

/-- The offsets of the snapshot registers that rail islands fill, ascending. -/
def snapOffs (v : Variant) : List Nat :=
  (List.range (nCh v / 4)).map (0x500 + 4 * ·) ++ (List.range (nCh v / 4)).map (0x580 + 4 * ·)
    ++ (List.range (16 * nCh v)).map (0x3000 + 4 * ·) ++ (List.range (16 * nIsl v)).map (0x7800 + 4 * ·)

/-- A snapshot with the registers of islands lost before they delivered their shadow: all ones, and no leaf of theirs valid
(R48, R525). -/
def State.snapLost (s : State) (ws : Tab Word) : Tab Word :=
  ((snapOffs s.hw.variant).filter fun o => (snapIsl o).any s.islLost).foldl
    (fun t o => tset 0 t o (if 0x500 ≤ o ∧ o < 0x580 then 0 else 0xFFFFFFFF#32)) ws

/-- The counter shadows are delivered: every RS register of the block changes together. -/
def State.cntDeliver (s : State) : State :=
  match s.cnt.shadow with
  | none => s
  | some (src, t, ws) =>
    { s with cnt := { s.cnt with shadow := none, snap := s.snapLost ws, snapTick := t, src := src, done := true, irq := Irq.set s.cnt.irq 1 } }

/-- The shadow that waits is a CNT_SNAP's; that of a view is delivered with the view (R40, R42). -/
def Cnt.ownShadow (c : Cnt) : Bool := c.shadow.any fun x => decide (x.1 = 0)

/-- The shadows are delivered. -/
def execCntSnapDone (s : State) : Host.Outcome State Fault Refusal :=
  .next (if s.cnt.ownShadow && s.cnt.shadow.any fun x => s.settledBy x.2.1 then s.cntDeliver else s)

/-! ## CNT_CTRL (R524 to R526) -/

/-- FREEZE clears MISSED and stops the counters behind its own tick; THAW starts them, and the events of its tick are counted. -/
def Cnt.freeze (c : Cnt) (on off : Bool) : Cnt :=
  if on then { c with freezing := true, missed := 0, code := 0 }
  else if off then c.missNow.flatten.foldr (fun k c => c.inc k) { c with frozen := false, freezing := false, missNow := [], code := 0 }
  else c

/-- A write of CNT_CTRL: both bits are refused; a CNT_SNAP on the tick on which a view with counters is accepted is dropped with ABORTED
(R531), one while a snapshot is pending is refused, else its capture tick is 16 ticks on. -/
def State.cntCtrl (s : State) (w : Word) : State :=
  if wbit w 0 && wbit w 1 then { s with cnt := { s.cnt with code := 2 } }
  else
    let busy := s.cntBusy
    let c := s.cnt.freeze (wbit w 0) (wbit w 1)
    let late := (if wbit w 1 then s.cnt.missNow.flatten else []).filter fun k => !decide (tget 0 c.leaf k = tget 0 s.cnt.leaf k)
    { s with
      cnt := if !wbit w 2 then c
        else if c.servedAt = some s.now then { c with code := 3 }
        else if busy then { c with code := 1 }
        else { c with code := 0, req := some (s.now + 16) }
      env := { s.env with countDirty := late.foldl (fun t k => tset false t (k / 8) true) s.env.countDirty } }

/-- CNT_CTRL.FREEZE. -/
def execCntFreeze (s : State) : Host.Outcome State Fault Refusal := .next (s.byHost 0x40000 .operator fun _ => s.cntCtrl 1#32)

/-- CNT_CTRL.THAW. -/
def execCntThaw (s : State) : Host.Outcome State Fault Refusal := .next (s.byHost 0x40000 .operator fun _ => s.cntCtrl 2#32)

/-- CNT_CTRL.SNAP. -/
def execCntSnap (s : State) : Host.Outcome State Fault Refusal := .next (s.byHost 0x40000 .operator fun _ => s.cntCtrl 4#32)

/-! ## Writes of a leaf (R522) -/

/-- OVF of leaf `k` cleared by a write of 1, unless the leaf overflowed on the tick of the write (R11). -/
def Cnt.ovfClear (c : Cnt) (k : Nat) : NatSet := if c.ovfNow.any fun e => decide (e.1 = k) then c.ovf else tset false c.ovf k false

/-- Address of CNT_LEAF_LO of leaf `j` of channel `n`. -/
def leafReg (n j : Nat) : Nat := 0x41000 + 0x40 * n + 8 * j

/-- A write of CNT_LEAF_LO stages its word. -/
def State.leafLo (s : State) (w : Word) : State := { s with cnt := { s.cnt with stage := w.toNat } }

/-- A write of CNT_LEAF_HI gives the leaf of key `k` its value and clears INV and OVF, and the leaf loses the increments of the tick;
a channel not in use ignores it. A leaf that reads as before leaves its channel unchanged (R346). -/
def State.leafHi (s : State) (k : Nat) (w : Word) : State :=
  if s.inUse (k / 8) then
    let c := s.cnt.unInc k
    let new := { c with
      leaf := tset 0 c.leaf k (fld w 0 16 * 2 ^ 32 + c.stage), inv := tset false c.inv k false
      ovf := tset false c.ovf k false, wrote := k :: c.wrote, missNow := c.missNow.map fun l => l.filter fun x => !decide (x = k) }
    { s with
      cnt := new
      env := if new.leafRead k = s.cnt.leafRead k then s.env
        else { s.env with countDirty := tset false s.env.countDirty (k / 8) true } }
  else s

/-- A write of CNT_LEAF_LO. -/
def execCntLeafLoWrite (ch j : Nat) (value : BitVec 32) (s : State) : Host.Outcome State Fault Refusal :=
  .next (s.byHost (leafReg ch j) .operator fun _ => if ch < nCh s.hw.variant then s.leafLo value else s)

/-- A write of CNT_LEAF_HI. -/
def execCntLeafHiWrite (ch j : Nat) (value : BitVec 32) (s : State) : Host.Outcome State Fault Refusal :=
  .next (s.byHost (leafReg ch j + 4) .operator fun _ => s.leafHi (8 * ch + j) value)

/-! ## Scrubbing (R523) -/

/-- The counter is one of island `isl`; a device total is checked with the scrub that names it. -/
def State.spotOn (s : State) (isl : Nat) : CntSpot → Bool
  | .leaf n j => decide (n < nCh s.hw.variant) && decide (j < 8) && decide (islOf n = isl)
  | .isl i j => decide (i = isl) && decide (j < 8)
  | .dev j => decide (j < 8)

/-- The counter is already marked invalid. -/
def Cnt.spotInv (c : Cnt) : CntSpot → Bool
  | .leaf n j => tget false c.inv (8 * n + j)
  | .isl i j => tget false c.islInv (8 * i + j)
  | .dev j => tget false c.devInv j

/-- The counter is marked invalid; a leaf loses the increments of the tick (R531). -/
def Cnt.spoil (c : Cnt) : CntSpot → Cnt
  | .leaf n j => let c := c.unInc (8 * n + j)
    { c with inv := tset false c.inv (8 * n + j) true, irq := Irq.set c.irq 2 }
  | .isl i j => { c with islInv := tset false c.islInv (8 * i + j) true, irq := Irq.set c.irq 2 }
  | .dev j => { c with devInv := tset false c.devInv j true, irq := Irq.set c.irq 2 }

/-- A channel whose leaf was spoilt has a leaf to journal. -/
def Env.spoilt (e : Env) : CntSpot → Env
  | .leaf n _ => { e with countDirty := tset false e.countDirty n true }
  | _ => e

/-- A double-bit error on one counter: it is marked invalid, and CNT_ECC raised. -/
def State.spoil (s : State) (x : CntSpot) : State :=
  if s.cnt.spotInv x then s else ({ s with cnt := s.cnt.spoil x, env := s.env.spoilt x }).report 1052 s.now

/-- An island's checks find errors: those of the scrub, and those that an increment, a read, a write or a copy of its tick would
find, which have no row of their own (R523, notes/assumptions/146). Each single-bit error is corrected and counted, each double-bit
error spoils its counter. -/
def State.cntScrub (s : State) (isl : Nat) (single double : List CntSpot) : State :=
  if s.active && decide (isl < nIsl s.hw.variant) && !s.islLost isl then
    let n := (single.filter (s.spotOn isl)).length
    let t := { s with cnt := { s.cnt with corr := addTo 0xFF s.cnt.corr n } }
    ((double.filter (s.spotOn isl)).foldl State.spoil t).settle s.now
  else s

/-- An island scrubs its counters. -/
def execCntScrub (isl : Nat) (single double : List CntSpot) (s : State) : Host.Outcome State Fault Refusal :=
  .next (s.cntScrub isl single double)

/-! ## Throughput (R527) -/

/-- Every window of a port that has ended is closed. -/
def State.tpRoll (s : State) (p : Nat) : State :=
  { s with cnt := { s.cnt with tp := tmod {} s.cnt.tp p fun x => x.roll s.now s.now } }

/-- A throughput window of a port ends. -/
def execTpWindowEnd (port : Nat) (s : State) : Host.Outcome State Fault Refusal := .next (s.tpRoll port)

end Sys2Proof.Machine
end

