-- ==== Sys2Proof/Machine/Read.lean ====
section
/-! DEFINITION. What every register of the map shows (R7 to R10, and the register tables of each chapter). A read here has no
effect; reads that have one are added where a host reads. An address that holds no register, and one of an absent resource,
read 0 (R3, R9). -/

namespace Sys2Proof.Machine

/-! ## Codes of the register tables -/

/-- LCS (R466). -/
def Lcs.code : Lcs → Nat
  | .blank => 0 | .provisioned => 1 | .deployed => 2 | .returned => 3 | .retired => 4

/-- RUNG. -/
def Rung.code : Rung → Nat
  | .summer => 0 | .autumn => 1 | .winter => 2 | .midwinter => 3

/-- LNK_MCP_STAT.LINK. -/
def McpLink.code : McpLink → Nat
  | .down => 0 | .training => 1 | .up => 2 | .degraded => 3

/-- CAS_STAT.STATE. -/
def CasSt.code : CasSt → Nat
  | .down => 0 | .linked => 1 | .joined => 2 | .locked => 3 | .refused => 4 | .leader => 7

/-- CAS_PORT.LINK. -/
def PortLink.code : PortLink → Nat
  | .disabled => 0 | .training => 1 | .up => 2 | .down => 3

/-- SYS_BOOT_STAT.PHASE. A reload shows the phases it runs again (R391). -/
def Phase.code : Phase → Nat
  | .por => 0 | .s1 => 1 | .s2 => 2 | .s3 => 3 | .s4 => 4 | .s5 => 5 | .ready => 6 | .recovery => 14 | .halt => 15

/-- The highest debug level of a lifecycle state (R475). -/
def Lcs.dbgMax : Lcs → Dbg
  | .blank | .provisioned | .returned => .factory | .deployed => .control | .retired => .observe

/-- A word of a bitmap: bit `j` of word `k` is `f (32k + j)`. -/
def mapWord (f : Nat → Bool) (k : Nat) : Word := wpack ((List.range 32).map fun j => (j, 1, b2n (f (32 * k + j))))

/-- A word of a 256-bit map. -/
def keyWord (m : BitVec 256) (k : Nat) : Word := mapWord m.getLsbD k

/-- The low or high word of a 64-bit quantity, by the offset from its _LO. -/
def pairWord (ofs n : Nat) : Word := if ofs = 0 then lo32 n else hi32 n

/-! ## SYS, PWR -/

/-- SYS_ISL_STAT. -/
def State.islStat (s : State) : Word :=
  mapWord (fun i => (decide (i < nIsl s.hw.variant) || (decide (16 ≤ i) && decide (i < 20))) && !s.islLost i) 0

/-- A request or an equinox capture is pending. -/
def State.viewBusy (s : State) : Bool := s.sys.viewReq.isSome || s.sys.shadow.isSome

/-- SYS block. -/
def State.sysReg (s : State) (o : Nat) : Word :=
  let y := s.sys
  match o with
  | 0x000 => wpack [(0, 4, s.hw.variant.code), (4, 4, y.taken.step), (8, 8, 1), (16, 16, 0x0D21)]
  | 0x010 | 0x014 => pairWord (o - 0x010) y.tb
  | 0x018 | 0x01C => pairWord (o - 0x018) y.settled
  | 0x024 | 0x028 => pairWord (o - 0x024) y.viewAt
  | 0x02C => wpack [(0, 1, b2n s.viewBusy), (1, 1, b2n y.viewDone), (4, 4, y.viewCode), (8, 1, b2n y.viewSrc)]
  | 0x030 | 0x034 => pairWord (o - 0x030) y.viewTick
  | 0x038 => w32 y.viewMiss
  | 0x040 => s.islStat
  | 0x050 => y.irq.st
  | 0x054 => y.irqEn
  | 0x060 => w32 y.rstCause
  | 0x064 => wpack [(4, 4, y.rstCode)]
  | 0x068 => wpack [(0, 4, y.phase.code), (4, 2, y.slot), (6, 1, b2n y.okA), (7, 1, b2n y.okB), (8, 4, y.errA), (12, 4, y.errB),
      (16, 2, y.jrnl), (18, 1, b2n y.fuseDis)]
  | 0x06C | 0x070 => pairWord (o - 0x06C) y.bootTime
  | 0x074 => wpack [(0, 1, b2n y.taken.hwStart), (1, 2, y.taken.win), (8, 7, y.taken.arb)]
  | 0x078 | 0x07C => pairWord (o - 0x078) y.taken.uid
  | _ => 0

/-- PWR block. -/
def State.pwrReg (s : State) (o : Nat) : Word :=
  let p := s.pwr
  match o with
  | 0x000 => wpack [(0, 2, p.rung.code), (2, 1, b2n (p.entry.isSome || p.exit.isSome)), (4, 4, p.code), (8, 4, p.wake)]
  | 0x008 => p.policy
  | 0x00C => p.wakeWinter
  | 0x010 => p.wakeMid
  | 0x014 => w32 (b2n p.vinLoss)
  | 0x018 | 0x01C => pairWord (o - 0x018) p.entryTs
  | 0x020 => p.irq.st
  | 0x024 => p.irqEn
  | _ => 0

/-! ## SEQ -/

/-- SEQ_STAT. -/
def State.seqStat (s : State) : Word :=
  wpack [(0, 3, s.seqCode), (4, 1, b2n s.seq.onLatch.isSome), (8, 4, s.seq.code), (12, 4, s.seq.reqSrc), (16, 4, (s.rst HS).code)]

/-- Word `k` of the channel rails in a state. -/
def State.railMap (s : State) (x : RailState) (k : Nat) : Word := mapWord (fun n => s.inUse n && s.rst n == x) k

/-- SEQ_TLOG_ENT: the oldest entry. -/
def TEntry.word (e : TEntry) : Word :=
  wpack [(0, 8, e.rail), (8, 4, e.old.code), (12, 4, e.new.code), (16, 4, e.cause), (31, 1, 1)]

/-- Registers of a rail, by the offset in its 32 bytes. -/
def Chan.railReg (c : Chan) (o : Nat) : Word :=
  match o with
  | 0x00 => c.rcfg.time0
  | 0x04 => c.rcfg.time1
  | 0x08 => c.rcfg.rflag
  | 0x0C => c.rcfg.p01
  | 0x10 => c.rcfg.p23
  | 0x14 => c.rcfg.p45
  | 0x18 => c.rcfg.p67
  | 0x1C => wpack [(0, 3, c.rail.failWhy), (4, 4, c.rail.attempt), (8, 1, b2n c.rail.dto), (16, 16, c.rail.blockBy)]
  | _ => 0

/-- SEQ_REMOTE. -/
def Remote.word (r : Remote) : Word :=
  if r.valid then wpack [(0, 12, r.addr), (12, 8, r.rail), (24, 3, r.state), (31, 1, 1)] else 0

/-- SEQ_SPRING of a rail. -/
def Chan.springReg (c : Chan) : Word :=
  c.rcfg.spring ||| wpack [(24, 3, c.rail.outcome), (27, 1, b2n (c.rail.rolled && decide (vDis c.sense.act ≤ c.sense.v)))]

/-- SEQ block. -/
def State.seqReg (s : State) (o : Nat) : Word :=
  let q := s.seq
  if 0x1000 ≤ o ∧ o < 0x2020 then
    let n := (o - 0x1000) / 0x20
    if s.isRail n then (s.chan n).railReg ((o - 0x1000) % 0x20) else 0
  else if 0x3000 ≤ o ∧ o < 0x3400 then (s.remote ((o - 0x3000) / 4)).word
  else if 0x4000 ≤ o ∧ o < 0x4200 then
    let n := (o - 0x4000) / 4
    if s.inUse n then (s.chan n).springReg else 0
  else if 0x010 ≤ o ∧ o < 0x020 then s.railMap .good ((o - 0x010) / 4)
  else if 0x020 ≤ o ∧ o < 0x030 then s.railMap .spring ((o - 0x020) / 4)
  else if 0x030 ≤ o ∧ o < 0x040 then s.railMap .failed ((o - 0x030) / 4)
  else if 0x040 ≤ o ∧ o < 0x050 then s.railMap .blocked ((o - 0x040) / 4)
  else
    match o with
    | 0x004 => s.seqStat
    | 0x008 => wpack [(0, 8, s.nRails .good), (8, 8, s.nRails .failed), (16, 8, s.nRails .blocked), (24, 8, s.nRails .spring)]
    | 0x050 => q.irq.st
    | 0x054 => q.irqEn
    | 0x060 => match q.tlog with | e :: _ => e.word | [] => 0
    | 0x064 => lo32 q.tlogTs
    | 0x068 => wpack [(0, 10, q.tlog.length), (16, 1, b2n q.tlogOvf)]
    | 0x0B0 => w32 (b2n q.springDis)
    | 0x0B4 => wpack [(0, 8, q.nEnter), (8, 8, q.nConf), (16, 8, q.nRoll)]
    | 0x0B8 => q.springIrq.st
    | 0x0BC => q.springIrqEn
    | 0x0C0 => q.springLast
    | 0x0C4 => lo32 q.springLastTs
    | _ => 0

/-! ## CH, channel HS, HVS, campaign -/

/-- CH_STATE. -/
def Chan.stateWord (c : Chan) (now : Nat) : Word :=
  wpack [(0, 4, c.rail.state.code), (4, 1, b2n c.sense.ov.out), (5, 1, b2n c.sense.uv.out), (6, 1, b2n c.sense.oc.out),
    (7, 1, b2n c.pg), (8, 1, b2n c.sense.good), (9, 1, b2n (c.sense.enNow now)), (10, 1, b2n (c.sense.disNow now)),
    (11, 1, b2n c.sense.trimOn)]

/-- A threshold register shows the active word of its set. -/
def Thr.reg (t : Thr) (k : Nat) : Word :=
  match k with
  | 0 => t.ov | 1 => t.uv | 2 => t.oc | 3 => t.good | 4 => t.nom | _ => t.vdis

/-- The margining and health-probe registers of a channel. -/
def Chan.mgnReg (c : Chan) (o : Nat) : Word :=
  match o with
  | 0x080 => c.ch.mgnCfg
  | 0x084 => c.ch.mgnTgt
  | 0x08C => wpack [(0, 2, c.mgn.st.code), (2, 1, b2n c.mgn.clamped), (4, 4, c.mgn.code), (8, 12, c.mgn.target), (20, 1, b2n c.mgn.campHold)]
  | 0x090 => c.ch.prbCfg
  | 0x094 => c.ch.prbLim
  | 0x09C => wpack [(0, 3, c.prb.phase.code), (4, 4, c.prb.outcome), (8, 3, c.prb.anom), (16, 12, c.prb.dv)]
  | 0x0A0 => w32 (fit 24 c.prb.zout)
  | 0x0A4 => wpack [(0, 16, fit 16 c.prb.fc), (16, 8, c.prb.pm), (24, 8, c.prb.fitQ)]
  | 0x0A8 => wpack [(0, 24, fit 24 (baseMean (c.prb.base.map (·.1)))), (24, 3, c.prb.base.length)]
  | 0x0AC => wpack [(0, 16, fit 16 (baseMean (c.prb.base.map (·.2.1)))), (16, 8, baseMean (c.prb.base.map (·.2.2)))]
  | 0x0B0 => w32 c.prb.nqual
  | 0x0B8 => c.mgn.irq.st
  | 0x0BC => c.mgn.irqEn
  | _ => 0

/-- The registers of a channel in use. -/
def Chan.reg (c : Chan) (now o : Nat) : Word :=
  let x := c.sense
  let avg := 2 ^ fld c.ch.cfg 12 3
  match o with
  | 0x000 => c.ch.cfg
  | 0x004 | 0x008 | 0x00C | 0x010 | 0x014 | 0x018 => x.act.reg ((o - 4) / 4)
  | 0x01C => c.ch.igain
  | 0x020 => wpack [(4, 1, b2n (!decide (x.stg = x.act))), (8, 3, x.applyCode)]
  | 0x024 => wpack [(16, 1, b2n x.locked)]
  | 0x030 => c.stateWord now
  | 0x034 => wpack [(0, 12, x.v), (16, 16, c.mv x.v)]
  | 0x038 => wpack [(0, 12, x.i), (12, 20, x.i * fld c.ch.igain 0 16 / 1000)]
  | 0x03C => wpack [(0, 12, meanOf avg x.vh), (16, 12, meanOf avg x.ih)]
  | 0x040 => wpack [(0, 10, unsgn 10 x.trim), (16, 1, b2n x.trimOn)]
  | 0x044 => x.irq.st
  | 0x048 => x.irqEn
  | 0x050 => c.ch.pmb
  | 0x054 => x.pmbVi
  | 0x058 => x.pmbTs
  | _ => c.mgnReg o

/-- HS_STATE. -/
def State.hsState (s : State) : Word :=
  wpack [(0, 4, (s.rst HS).code), (4, 1, b2n s.hs.brkOut), (5, 1, b2n s.hs.gateOn), (6, 1, b2n s.hs.tripped),
    (8, 1, b2n (s.chan HS).sense.good)]

/-- Registers of channel HS. -/
def State.hsReg (s : State) (o : Nat) : Word :=
  let h := s.hs
  match o with
  | 0x000 => h.cfg
  | 0x004 => h.brk
  | 0x008 => h.goodThr
  | 0x030 => s.hsState
  | 0x034 => w32 h.meas
  | 0x040 => h.capWin
  | 0x044 => h.capCfg
  | 0x048 => h.capLim
  | 0x04C => wpack [(0, 16, h.cEst), (16, 2, h.cSrc), (20, 4, h.cOut)]
  | 0x050 => wpack [(0, 16, fit 16 h.cN), (16, 12, h.cDv)]
  | _ => 0

/-- Registers of an HVS input. -/
def State.hvsReg (s : State) (o : Nat) : Word :=
  let x := tget {} s.hs.hvs (o / 0x10)
  if o = 0x40 then s.hs.hvsStat.st
  else if nHvs s.hw.variant ≤ o / 0x10 then 0
  else
    match o % 0x10 with
    | 0x0 => w32 x.role
    | 0x4 => x.thr
    | 0x8 => wpack [(0, 12, x.code), (16, 16, x.code * 5 / 2)]
    | _ => 0

/-- Campaign registers; the device counts are the leader's. -/
def State.campReg (s : State) (o : Nat) : Word :=
  let c := s.camp
  match o with
  | 0x004 | 0x008 => pairWord (o - 0x004) c.at_
  | 0x00C => wpack [(0, 1, b2n c.isBusy), (1, 1, b2n c.done), (2, 2, c.corner), (4, 4, c.code), (8, 1, b2n c.aborted)]
  | 0x010 => if s.sys.strap then wpack [(0, 13, c.nPass), (16, 13, c.nFail)] else 0
  | 0x014 => c.first
  | 0x018 => wpack [(0, 8, c.nMember), (8, 8, c.nmPass), (16, 8, c.nmFail)]
  | _ => 0

/-- CH block. -/
def State.chBlock (s : State) (o : Nat) : Word :=
  if o < 0x8000 then
    let n := o / 0x100
    if s.inUse n then (s.chan n).reg s.now (o % 0x100) else 0
  else if o < 0x8100 then s.hsReg (o - 0x8000)
  else if o < 0x8200 then s.hvsReg (o - 0x8100)
  else s.campReg (o - 0x8200)

/-! ## FLT, WDG -/

/-- FLT_STAT. -/
def State.fltStat (s : State) : Word :=
  wpack [(0, 1, b2n s.safeNow), (1, 1, b2n s.flt.anyPend), (2, 1, b2n s.flt.ff.isSome), (3, 1, b2n s.faultLow),
    (4, 3, match s.flt.safe with | some x => x.step | none => 0), (8, 11, s.flt.nPend)]

/-- FLT_LOG_ENT of an entry. -/
def FEntry.word (e : FEntry) : Word :=
  wpack [(0, 11, e.src), (11, 3, e.kind), (14, 2, e.level), (16, 11, e.origin), (27, 1, b2n e.inj), (31, 1, 1)]

/-- The sources whose registers read 0: unnamed IDs (R270), and on the DZ-32 those of absent channels (R4) and of the absent
inputs HVS2 and HVS3 (R3, R272). -/
def srcAbsent (v : Variant) (i : Nat) : Bool :=
  decide (1057 < i) || (v == .dz32 && ((decide (256 ≤ i) && decide (i < 1024)) || (decide (1030 ≤ i) && decide (i < 1034))))

/-- Registers of a source. -/
def State.srcReg (s : State) (i o : Nat) : Word :=
  let f := s.flt
  let x := f.src i
  match o with
  | 0x0 => f.cfgOf i
  | 0x4 => f.winOf i
  | 0x8 => wpack [(0, 1, b2n x.pend), (1, 1, b2n x.ack), (2, 1, b2n (decide (s.now < x.wireEnd))), (3, 1, b2n x.grace.isSome),
      (4, 2, f.level i), (6, 2, x.lastLev), (8, 8, f.cntNow i s.now), (16, 16, x.events)]
  | _ => lo32 (x.last.getD 0)

/-- FLT_PEND. -/
def State.pendMap (s : State) (k : Nat) : Word := mapWord (fun i => (s.flt.src i).pend) k

/-- FLT block. -/
def State.fltReg (s : State) (o : Nat) : Word :=
  let f := s.flt
  if 0x4000 ≤ o ∧ o < 0x9000 then
    let i := (o - 0x4000) / 0x10
    if srcAbsent s.hw.variant i then 0 else s.srcReg i ((o - 0x4000) % 0x10)
  else if 0x400 ≤ o ∧ o < 0x500 then tget 0 f.groups ((o - 0x400) / 4)
  else if 0x100 ≤ o ∧ o < 0x1A0 then s.pendMap ((o - 0x100) / 4)
  else
    match o with
    | 0x000 => s.fltStat
    | 0x004 => wpack [(16, 4, f.cmdCode)]
    | 0x010 => f.ffWord
    | 0x014 => f.coWord
    | 0x018 | 0x01C => pairWord (o - 0x018) f.ffStamp
    | 0x020 => f.prev
    | 0x024 => f.prevCo
    | 0x028 | 0x02C => pairWord (o - 0x028) f.prevTs
    | 0x030 => f.grace0
    | 0x034 => f.grace1
    | 0x040 => w32 f.priv
    | 0x044 => f.privWhy
    | 0x048 => f.privFirst
    | 0x04C => lo32 f.privTs
    | 0x050 => f.irq.st
    | 0x054 => f.irqEn
    | 0x058 => f.reactLast
    | 0x05C => lo32 f.reactTs
    | 0x060 => match f.log with | e :: _ => e.word | [] => 0
    | 0x064 => lo32 f.logTs
    | 0x068 => wpack [(0, 9, f.log.length), (16, 1, b2n f.logOvf)]
    | 0x070 => wpack [(16, 4, f.injCode)]
    | _ => 0

/-- WDG_CNT.ELAPSED: 0 while the watchdog is stopped. -/
def State.wdgElapsed (s : State) : Nat := if s.wdg.run then (s.now - s.wdg.start) / 1000 else 0

/-- WDG block. -/
def State.wdgReg (s : State) (o : Nat) : Word :=
  let w := s.wdg
  if 0x080 ≤ o ∧ o < 0x0A0 then tget 0 w.tasks ((o - 0x080) / 4)
  else
    match o with
    | 0x000 => w.cfg
    | 0x004 => wpack [(0, 13, w.nextMs), (31, 1, b2n w.pending)]
    | 0x00C => wpack [(0, 1, b2n w.run), (1, 1, b2n w.qa), (2, 1, b2n (w.isOpen s.sys.taken.win s.now)), (3, 1, b2n w.wdoEnd.isSome),
        (4, 4, w.code), (8, 8, w.checked), (16, 8, Nat.lor w.flag w.dup), (24, 8, w.nexp)]
    | 0x010 => w32 w.q
    | 0x020 => wpack [(0, 19, s.wdgElapsed)]
    | 0x030 => wpack [(0, 1, b2n w.armed), (16, 11, fit 11 w.last)]
    | 0x050 => w.irq.st
    | 0x054 => w.irqEn
    | _ => 0

/-! ## GPIO, CNT -/

/-- A 32-bit pull word of a port. -/
def State.portReg (s : State) (p o : Nat) : Word :=
  let x := s.port p
  match o with
  | 0x00 => w32 (Nat.land x.inp (s.portMask p))
  | 0x04 => w32 x.out
  | 0x10 => w32 x.dir
  | 0x14 => w32 x.od
  | 0x18 => x.pull
  | 0x24 => w32 x.locked
  | 0x2C => w32 x.claim
  | _ => 0

/-- GPIO block; GPIO_PADLVL reads 0 here (R508). -/
def State.gpioReg (s : State) (o : Nat) : Word :=
  let g := s.gpio
  if o < 0x0C0 then (if o / 0x40 < nGpio s.hw.variant then s.portReg (o / 0x40) (o % 0x40) else 0)
  else if 0x140 ≤ o ∧ o < 0x160 then tget 0 g.mir ((o - 0x140) / 4)
  else if 0x180 ≤ o ∧ o < 0x1C0 then g.selOf ((o - 0x180) / 4)
  else if 0x1C0 ≤ o ∧ o < 0x200 then lo32 (tget 0 g.ts ((o - 0x1C0) / 4))
  else
    match o with
    | 0x100 => w32 (b2n s.sys.vio33)
    | 0x104 => w32 g.pen
    | 0x108 => w32 g.wakePol
    | 0x10C => g.err
    | 0x110 => g.irq.st
    | 0x114 => g.irqEn
    | 0x118 => g.intStat.st
    | 0x11C => w32 g.intEn
    | _ => 0

/-- CNT_LEAF_EV of a leaf. -/
def State.leafEv (s : State) (k : Nat) : Word :=
  if s.inUse (k / 8) then
    wpack [(0, 16, tget 0 s.cnt.ev k), (16, 1, b2n (tget false s.cnt.pre k)), (17, 1, b2n (tget false s.cnt.inv k)),
      (18, 1, b2n (tget false s.cnt.ovf k))]
  else 0

/-- CNT_TWIN and the throughput of a port. -/
def Tp.reg (x : Tp) (o : Nat) : Word :=
  match o with
  | 0x00 => w32 x.win
  | 0x04 => w32 x.lBytes
  | 0x08 => w32 x.lFrames
  | 0x0C => wpack [(0, 16, x.lErrs), (16, 16, x.wseq)]
  | _ => 0

/-- CNT block, the RS registers of a snapshot included. -/
def State.cntReg (s : State) (o : Nat) : Word :=
  let c := s.cnt
  let v := s.hw.variant
  if 0x1000 ≤ o ∧ o < 0x3000 then (if (o - 0x1000) / 0x40 < nCh v then pairWord (o % 8) (s.leafVal ((o - 0x1000) / 8)) else 0)
  else if 0x6000 ≤ o ∧ o < 0x7000 then s.leafEv ((o - 0x6000) / 4)
  else if 0x7000 ≤ o ∧ o < 0x7400 then (if (o - 0x7000) / 0x40 < nIsl v then pairWord (o % 8) (c.islRead ((o - 0x7000) / 8)) else 0)
  else if 0x7400 ≤ o ∧ o < 0x7440 then pairWord (o % 8) (c.devRead ((o - 0x7400) / 8))
  else if (0x3000 ≤ o ∧ o < 0x5000) ∨ (0x7800 ≤ o ∧ o < 0x7C40) ∨ (0x500 ≤ o ∧ o < 0x600) then tget 0 c.snap o
  else if 0x400 ≤ o ∧ o < 0x480 then mapWord (tget false c.inv) ((o - 0x400) / 4)
  else if 0x480 ≤ o ∧ o < 0x500 then mapWord (tget false c.ovf) ((o - 0x480) / 4)
  else if 0x100 ≤ o ∧ o < 0x200 then
    let p := (o - 0x100) / 0x20
    if 3 + nCasPort v ≤ p then 0 else if 0x10 ≤ (o - 0x100) % 0x20 then tget 0 c.snap o else (tget {} c.tp p).reg ((o - 0x100) % 0x20)
  else
    match o with
    | 0x000 => wpack [(4, 4, c.code)]
    | 0x004 => wpack [(0, 1, b2n (c.frozen || c.freezing)), (1, 1, b2n s.cntBusy), (2, 1, b2n c.done), (3, 2, c.src), (8, 8, c.corr),
        (16, 16, min 0xFFFF (c.missed + c.missNow.length))]
    | 0x008 => w32 (b2n c.userEn)
    | 0x010 | 0x014 => pairWord (o - 0x010) c.preload
    | 0x018 | 0x01C => pairWord (o - 0x018) c.snapTick
    | 0x020 => c.irq.st
    | 0x024 => c.irqEn
    | _ => 0

/-! ## HLD -/

/-- A drain shows as running, unless it is one that ends with LINK on the stamp it begins (R262). -/
def Hld.draining (h : Hld) : Bool := h.drain.any fun d => d.told || !d.lost

/-- HLD_STAT. -/
def Hld.stat (h : Hld) : Word :=
  wpack [(0, 1, b2n h.cause.isOpen), (1, 1, b2n h.draining), (2, 1, b2n h.isolated), (8, 9, h.cause.code)]

/-- HLD_OCC. -/
def Hld.occ (h : Hld) : Word := wpack [(0, 14, h.entries.length), (16, 14, fit 14 h.tent)]

/-- HLD_LAST_INFO of a commit record. -/
def Commit.info (c : Commit) : Word := wpack [(0, 3, c.trig), (4, 3, c.end_), (7, 1, b2n c.ride), (31, 1, 1)]

/-- HLD block. -/
def State.hldReg (s : State) (o : Nat) : Word :=
  let h := s.hld
  let l := h.last.getD {}
  match o with
  | 0x000 => h.cfg
  | 0x004 => h.energy
  | 0x008 => h.rsv
  | 0x00C => h.hyst
  | 0x010 => h.volt
  | 0x014 => h.admCfg
  | 0x020 => h.stat
  | 0x024 => h.occ
  | 0x028 => w32 (fit 24 h.eNeed)
  | 0x02C => w32 (fit 24 h.eAvail)
  | 0x030 => w32 (fit 24 h.eRsv)
  | 0x034 => w32 h.durable
  | 0x038 => w32 h.persist
  | 0x03C => w32 h.sealed_
  | 0x040 => wpack [(8, 4, h.code)]
  | 0x050 => w32 l.epoch
  | 0x054 => wpack [(0, 14, l.drained), (16, 14, l.aborted)]
  | 0x058 => match h.last with | some c => c.info | none => 0
  | 0x05C | 0x060 => pairWord (o - 0x05C) l.stamp
  | 0x070 => wpack [(0, 4, h.errCode), (16, 16, h.errCount)]
  | 0x074 => w32 h.errGrp
  | 0x078 => wpack [(0, 16, h.nBad), (16, 9, h.lastRev)]
  | 0x080 => h.irq.st
  | 0x084 => h.irqEn
  | _ => 0

/-! ## SEC -/

/-- SEC_STAT. -/
def State.secStat (s : State) : Word :=
  wpack [(0, 3, s.lcs.code), (4, 2, s.sec.dbg.code), (6, 2, s.lcs.dbgMax.code), (8, 1, b2n s.rootSet), (9, 1, b2n s.sec.paired),
    (10, 1, b2n (decide (s.now < s.sec.tamperEnd))), (11, 1, b2n s.sec.unwrapping.isSome)]

/-- SEC_KPOL of an index. -/
def KPol.word (p : KPol) : Word := wpack [(0, 5, p.cond), (15, 1, b2n p.valid), (16, 12, p.line)]

/-- The 384 bits SEC_ROOT shows: the fuses once blown, else what was written. -/
def State.rootShown (s : State) : Nat := if s.rootSet then s.sys.taken.root else s.sec.rootReg

/-- SEC block. -/
def State.secReg (s : State) (o : Nat) : Word :=
  let c := s.sec
  if 0x400 ≤ o ∧ o < 0x800 then (s.kpol ((o - 0x400) / 4)).word
  else if 0x040 ≤ o ∧ o < 0x070 then w32 (s.rootShown / 2 ^ (32 * ((o - 0x040) / 4)))
  else if 0x100 ≤ o ∧ o < 0x120 then keyWord c.ready ((o - 0x100) / 4)
  else if 0x120 ≤ o ∧ o < 0x140 then keyWord c.bad ((o - 0x120) / 4)
  else if 0x140 ≤ o ∧ o < 0x160 then keyWord c.permit ((o - 0x140) / 4)
  else if 0x160 ≤ o ∧ o < 0x180 then keyWord c.held ((o - 0x160) / 4)
  else if 0x180 ≤ o ∧ o < 0x1A0 then keyWord c.rel ((o - 0x180) / 4)
  else
    match o with
    | 0x000 => s.secStat
    | 0x004 => wpack [(4, 4, c.lcCode), (8, 1, b2n c.lcOp.isSome)]
    | 0x008 => wpack [(0, 1, b2n (s.sessKey .user).isSome), (1, 1, b2n (s.sessKey .operator).isSome), (2, 1, b2n (s.sessKey .owner).isSome)]
    | 0x010 => wpack [(24, 4, c.keyCode), (28, 1, b2n c.keyBusy.isSome)]
    | 0x0B0 => wpack [(0, 2, c.dbg.code), (2, 3, s.jtag.fails), (5, 1, b2n s.jtag.lockEnd.isSome), (8, 8, s.jtag.unlocks)]
    | 0x0B4 => wpack [(0, 8, c.tamperN), (8, 2, c.tamperLast)]
    | 0x1C0 => c.irq.st
    | 0x1C4 => c.irqEn
    | _ => 0

/-! ## ENV, BBX, CFG -/

/-- ENV block. -/
def State.envReg (s : State) (o : Nat) : Word :=
  let e := s.env
  let big := s.hw.variant == .dz128
  let used := s.segUsed
  let rec_ := match e.jrd with | some x => x.2 | none => []
  if 0x040 ≤ o ∧ o < 0x080 then w32 (leNat ((List.range 4).map fun i => tget 0 e.buf (o - 0x040 + i)))
  else if 0x0C0 ≤ o ∧ o < 0x100 then w32 (leAt rec_ (o - 0x0C0) 4)
  else
    match o with
    | 0x000 => wpack [(0, 8, if big then 0x10 else 0x04), (8, 8, 92), (16, 8, 16), (24, 8, if big then 0x40 else 0x10)]
    | 0x004 => wpack [(0, 1, b2n e.harvest.isSome), (1, 1, b2n e.acc.isSome), (2, 1, e.ckpt), (8, 8, used), (16, 1, b2n (decide (90 ≤ used)))]
    | 0x008 => w32 e.jseq
    | 0x00C => w32 e.gen
    | 0x010 => w32 e.base
    | 0x014 => w32 e.run
    | 0x018 => w32 e.hours
    | 0x01C => e.jcfg
    | 0x020 => wpack [(4, 4, e.code)]
    | 0x024 => wpack [(0, 8, e.corr), (8, 8, e.ecc), (16, 8, e.tag), (24, 8, e.hfail)]
    | 0x028 => e.irq.st
    | 0x02C => e.irqEn
    | 0x030 => w32 e.accAddr
    | 0x034 => wpack [(4, 4, e.accCode), (8, 1, b2n e.acc.isSome)]
    | 0x038 | 0x03C => pairWord (o - 0x038) e.accMask
    | 0x084 => wpack [(1, 1, b2n e.jrd.isSome), (2, 1, b2n e.jrdSkip)]
    | 0x088 => w32 (match e.jrd with | some x => x.1 | none => 0)
    | _ => 0

/-- BBX_STAT.STATE. -/
def Bbx.state (b : Bbx) : Nat := match b.cap with | none => 0 | some c => if c.state ≤ 1 then 1 else 2

/-- BBX_FILL of an island: the pre-trigger ring alone, in use up to its 160 KiB (R358). -/
def Bbx.fill (b : Bbx) (i : Nat) : Word :=
  let r := tget {} b.recs i
  wpack [(0, 8, min 160 (ceilDiv (ringSize r.ring) 1024)), (8, 1, b2n r.fallback)]

/-- BBX block. -/
def State.bbxReg (s : State) (o : Nat) : Word :=
  let b := s.bbx
  if 0x040 ≤ o ∧ o < 0x080 then (if (o - 0x040) / 4 < nIsl s.hw.variant then b.fill ((o - 0x040) / 4) else 0)
  else
    match o with
    | 0x000 => wpack [(0, 2, b.e), (2, 2, b.trigLev), (16, 16, b.islMask)]
    | 0x004 => wpack [(4, 4, b.code)]
    | 0x008 => wpack [(0, 2, b.state), (2, 1, b2n (decide (b.protNum ≠ 0))), (8, 8, b.missed), (16, 8, b.drop)]
    | 0x00C => w32 b.lastNum
    | 0x010 => b.lastInfo
    | 0x014 => w32 b.lastAddr
    | 0x018 => w32 b.lastLines
    | 0x01C => w32 b.protNum
    | 0x020 => b.irq.st
    | 0x024 => b.irqEn
    | _ => 0

/-- CFG block. -/
def State.cfgReg (s : State) (o : Nat) : Word :=
  let c := s.cfg
  if 0x020 ≤ o ∧ o < 0x030 then tget 0 c.imgId ((o - 0x020) / 4)
  else if 0x040 ≤ o ∧ o < 0x070 then tget 0 c.digest ((o - 0x040) / 4)
  else
    match o with
    | 0x004 => wpack [(0, 1, b2n c.busy), (1, 2, c.op), (4, 4, c.code), (8, 4, c.err)]
    | 0x008 => wpack [(0, 8, c.detail), (16, 16, c.tag)]
    | 0x00C => w32 c.ofs
    | 0x010 => wpack [(0, 8, c.arbVer), (8, 8, c.fmt), (16, 2, c.slot)]
    | 0x014 => w32 c.build
    | 0x018 => w32 c.len
    | 0x030 => w32 c.rtAddr
    | 0x034 => wpack [(0, 16, c.rtN), (16, 4, c.rtSects)]
    | 0x080 => c.irq.st
    | 0x084 => c.irqEn
    | _ => 0

/-! ## CAS, LNK -/

/-- CAS_PORT of a port. -/
def CasPort.word (p : CasPort) : Word := wpack [(0, 2, p.link.code), (8, 8, p.nak), (16, 16, p.err)]

/-- CAS block; "leader only" registers read 0 on a follower. -/
def State.casReg (s : State) (o : Nat) : Word :=
  let c := s.cas
  let lead := s.sys.strap
  if 0x020 ≤ o ∧ o < 0x034 then
    (if (o - 0x020) / 4 < nCasPort s.hw.variant then (tget {} c.ports ((o - 0x020) / 4)).word else 0)
  else if 0x100 ≤ o ∧ o < 0x500 then tget 0 c.pub ((o - 0x100) / 4)
  else
    match o with
    | 0x000 => c.cfg
    | 0x004 => wpack [(0, 3, c.st.code), (3, 1, b2n lead), (4, 3, c.depth), (7, 1, b2n c.pubFull), (16, 9, c.pub.length)]
    | 0x008 => wpack [(0, 12, c.addr), (16, 14, c.path)]
    | 0x00C => wpack [(0, 16, fitSgn 16 c.tbErr), (16, 8, c.delay), (24, 1, b2n c.ahead)]
    | 0x010 => if lead then wpack [(0, 13, c.nDev), (16, 13, c.nLost)] else 0
    | 0x040 => wpack [(4, 4, c.ctrlCode)]
    | 0x050 => wpack [(4, 4, c.domCode)]
    | 0x054 => if lead then wpack [(0, 1, b2n c.domBusy), (1, 1, b2n c.domOff),
        (2, 3, match c.domPhase with | some d => d.phase | none => 0), (8, 13, c.nSkip)] else 0
    | 0x058 => if lead then c.domTo else 0
    | 0x060 => wpack [(4, 4, c.eqxCode)]
    | 0x064 | 0x068 => pairWord (o - 0x064) c.eqxAt
    | 0x06C => if lead then wpack [(0, 1, b2n c.eqxBusy), (1, 1, b2n c.eqxDone), (3, 13, c.nOk), (16, 13, c.nMiss)] else 0
    | 0x070 => c.eqxMiss
    | 0x080 => c.rfault
    | 0x084 => lo32 c.rfaultTs
    | 0x090 => c.irq.st
    | 0x094 => c.irqEn
    | _ => 0

/-- A link-test target that the variant has: 0 and 1 the MCP lanes, 2 the up port, 3 to 6 the down ports. -/
def ltPresent (v : Variant) (t : Nat) : Bool :=
  match v with
  | .dz128 => decide (t < 7)
  | .dz32 => decide (t = 0) || decide (t = 2) || decide (t = 3)

/-- Registers of a link-test target. -/
def Lt.reg (x : Lt) (o : Nat) : Word :=
  match o with
  | 0x0 => wpack [(0, 2, x.mode), (2, 2, x.poly), (8, 4, x.code)]
  | 0x4 => wpack [(0, 1, b2n x.lock), (1, 1, b2n (decide (x.mode ≠ 0)))]
  | 0x8 => w32 x.errs
  | _ => w32 (x.bits / 2 ^ 20)

/-- LNK_MCP_STAT. -/
def Mcp.stat (m : Mcp) : Word :=
  wpack [(0, 2, m.link.code), (2, 2, m.lanes), (4, 1, b2n m.keyed), (5, 1, b2n m.dack), (16, 16, m.ndown)]

/-- LNK_HMP_STAT. -/
def Hmp.stat (h : Hmp) : Word :=
  wpack [(0, 3, match h.session with | some l => l.rank + 1 | none => 0), (3, 1, b2n h.lockEnd.isSome), (4, 3, h.fails),
    (16, 8, h.status), (24, 8, h.detail)]

/-- LNK block. -/
def State.lnkReg (s : State) (o : Nat) : Word :=
  let m := s.mcp
  let h := s.hmp
  let p := s.pmb
  if 0x080 ≤ o ∧ o < 0x0F0 then
    (if ltPresent s.hw.variant ((o - 0x080) / 0x10) then (tget {} s.lt ((o - 0x080) / 0x10)).reg (o % 0x10) else 0)
  else if 0x010 ≤ o ∧ o < 0x018 then
    let l := (o - 0x010) / 4
    if l < nLane s.hw.variant then wpack [(0, 1, b2n (m.lanes.testBit l)), (16, 16, tget 0 m.hdrErr l)] else 0
  else
    match o with
    | 0x000 => m.stat
    | 0x004 => wpack [(0, 16, m.nakTx), (16, 16, m.nakRx)]
    | 0x008 => wpack [(0, 8, m.eTout), (8, 8, m.eType), (16, 3, m.why)]
    | 0x040 => h.stat
    | 0x044 => w32 h.idle
    | 0x048 => wpack [(0, 8, h.eCrc), (8, 8, h.eLen), (16, 8, h.eTout), (24, 8, h.eAbort)]
    | 0x060 => wpack [(0, 1, b2n p.busy), (4, 4, p.code), (8, 8, p.skip), (16, 16, p.nFail)]
    | 0x068 => w32 p.data
    | 0x06C => p.lastErr
    | 0x100 => m.irq.st
    | 0x104 => m.irqEn
    | _ => 0

/-! ## The whole map -/

/-- The register of a block at an offset, view registers aside. -/
def State.blkReg (s : State) (b : Blk) (o : Nat) : Word :=
  match b with
  | .sys => s.sysReg o
  | .pwr => s.pwrReg o
  | .seq => s.seqReg o
  | .ch => s.chBlock o
  | .flt => s.fltReg o
  | .wdg => s.wdgReg o
  | .gpio => s.gpioReg o
  | .cnt => s.cntReg o
  | .hld => s.hldReg o
  | .sec => s.secReg o
  | .env => s.envReg o
  | .cfg => s.cfgReg o
  | .cas => s.casReg o
  | .lnk => s.lnkReg o
  | .bbx => s.bbxReg o

/-- What the register at address `a` shows: the held view for a register of the coherent view, else the live state. A channel not
in use reads 0 in its view registers too. -/
def State.regWord (s : State) (a : Nat) : Word :=
  match blkOf a with
  | none => 0
  | some b =>
    if b = .ch ∧ a < 0x18000 ∧ !s.inUse ((a - 0x10000) / 0x100) then 0
    else s.blkReg b (a - b.base) ||| tget 0 s.sys.view a

end Sys2Proof.Machine
end

