-- ==== Sys2Proof/Machine/System.lean ====
section
/-! DEFINITION. The coherent view (01), lost islands and the islands' timebase copies (01), start-up up to S3 and every reset
(02). -/

namespace Sys2Proof.Machine

/-! ## The coherent view (R35 to R50) -/

/-- A register of the coherent view: its address, the island that publishes it, the bits of its fields. -/
structure ViewReg where
  addr : Nat
  isl : Nat
  mask : Word
  deriving DecidableEq, Repr

/-- The low `n` bits. -/
def lowBits (n : Nat) : Word := w32 (2 ^ n - 1)

/-- The view registers of a variant, by ascending address, those of the counters aside (R35). -/
def viewRegs (v : Variant) : List ViewReg :=
  let words (base n isl : Nat) : List ViewReg := (List.range n).map fun k => { addr := base + 4 * k, isl := isl, mask := lowBits 32 }
  [{ addr := 0x1030, isl := 19, mask := lowBits 3 }, { addr := 0x1034, isl := 19, mask := lowBits 32 }]
    ++ words 0x2080 8 16 ++ [{ addr := 0x20A0, isl := 16, mask := lowBits 20 }]
    ++ (List.range (3 * nCh v)).map (fun k => { addr := 0x10060 + 0x100 * (k / 3) + 4 * (k % 3), isl := islOf (k / 3), mask := lowBits 12 })
    ++ [{ addr := 0x18060, isl := 16, mask := 0x0FFF01FF#32 }]
    ++ (List.range (nHvs v)).map (fun k => { addr := 0x1810C + 0x10 * k, isl := 16, mask := lowBits 12 })
    ++ words 0x20200 40 16 ++ [{ addr := 0x202A0, isl := 16, mask := lowBits 32 }, { addr := 0x202A4, isl := 16, mask := lowBits 19 }]
    ++ [{ addr := 0x30060, isl := 16, mask := lowBits 29 }]
    ++ words 0x50090 1 16 ++ [{ addr := 0x50094, isl := 16, mask := lowBits 24 }, { addr := 0x50098, isl := 16, mask := lowBits 24 }]
    ++ words 0x5009C 1 16 ++ [{ addr := 0x500A0, isl := 16, mask := lowBits 17 }]
    ++ [{ addr := 0x601E0, isl := 18, mask := 0x37#32 }] ++ words 0x60200 8 18
    ++ [{ addr := 0x900A0, isl := 17, mask := lowBits 13 }, { addr := 0xA0110, isl := 17, mask := lowBits 4 }]

/-- WDG_VIEW. -/
def State.wdgView (s : State) : Word :=
  wpack [(0, 19, s.wdgElapsed), (19, 1, b2n s.wdg.qa), (20, 1, b2n (s.wdg.isOpen s.sys.taken.win s.now)), (21, 8, s.wdg.checked)]

/-- CAS_VIEW. -/
def State.casView (s : State) : Word :=
  wpack (((List.range 5).map fun p => (2 * p, 2, (tget {} s.cas.ports p).link.code)) ++ [(10, 3, s.cas.st.code)])

/-- What a view register publishes now, before its mask. -/
def State.viewLive (s : State) (a : Nat) : Word :=
  if 0x10000 ≤ a ∧ a < 0x18000 then
    let c := s.chan ((a - 0x10000) / 0x100)
    match a % 0x100 with
    | 0x60 => c.stateWord s.now &&& lowBits 11
    | 0x64 => w32 c.sense.v
    | _ => w32 c.sense.i
  else if 0x2080 ≤ a ∧ a < 0x20A0 then s.seqReg (a - 0x2080 + 0x10)
  else if 0x20200 ≤ a ∧ a < 0x202A0 then s.pendMap ((a - 0x20200) / 4)
  else if 0x60200 ≤ a ∧ a < 0x60220 then keyWord s.sec.permit ((a - 0x60200) / 4)
  else if 0x18100 ≤ a ∧ a < 0x18140 then w32 (tget {} s.hs.hvs ((a - 0x18100) / 0x10)).code
  else
    match a with
    | 0x1030 => wpack [(0, 2, s.pwr.rung.code), (2, 1, b2n s.pwr.vinLoss)]
    | 0x1034 => w32 s.gpio.wakeNow
    | 0x20A0 => s.seqStat
    | 0x18060 => s.hsState ||| wpack [(16, 12, s.hs.meas)]
    | 0x202A0 => s.flt.ffWord
    | 0x202A4 => s.fltStat
    | 0x30060 => s.wdgView
    | 0x50090 => s.hld.occ
    | 0x50094 => s.hldReg 0x28
    | 0x50098 => s.hldReg 0x2C
    | 0x5009C => w32 s.hld.persist
    | 0x500A0 => s.hld.stat
    | 0x601E0 => s.secStat
    | 0x900A0 => s.casView
    | 0xA0110 => s.mcp.stat
    | _ => 0

/-- Every island's published state on the present tick. -/
def State.viewWords (s : State) : Tab Word :=
  ((viewRegs s.hw.variant).map fun r => (r.addr, s.viewLive r.addr &&& r.mask)).filter fun e => !decide (e.2 = 0)

/-- The code of SYS_VIEW_STAT that a request by a register write meets, 0 for none. Where several hold the manual gives no order: the
model takes BUSY, RUNG, LATE, FAR (DESIGN CHOICE, notes/assumptions/93). -/
def State.viewRefusal (s : State) (mode : Bool) : Nat :=
  if s.viewBusy then 1
  else if !s.rungOk then 4
  else if mode && decide (s.sys.viewAt < s.now + 16) then 2
  else if mode && decide (s.now + 0x1000000 < s.sys.viewAt) then 3
  else 0

/-- A view with capture tick `t` is accepted. One that includes counters drops a pending CNT_SNAP (R526). CODE is the outcome of the
last local request: an equinox capture leaves it, ABORTED of a request it drops included (R47). -/
def State.viewAccept (s : State) (t : Nat) (cnt eqx : Bool) : State :=
  { s with
    sys := { s.sys with viewReq := some { at_ := t, cnt := cnt, eqx := eqx }, viewDone := false
                        viewCode := if eqx then s.sys.viewCode else 0 }
    cnt := if cnt then { s.cnt.dropSnap s.now with servedAt := some s.now } else s.cnt }

/-- SYS_VIEW_REQ with GO = 1 (R36, R37, R43, R44). -/
def State.viewGo (s : State) (cnt mode : Bool) : State :=
  match s.viewRefusal mode with
  | 0 => s.viewAccept (if mode then s.sys.viewAt else s.now + 16) cnt false
  | k => { s with sys := { s.sys with viewCode := k, irq := Irq.set s.sys.irq 1 } }

/-- SYS_VIEW_REQ is written. In Winter and Midwinter, where the session has ended, the request is refused with RUNG by whatever way it
comes (R44, notes/assumptions/94). -/
def State.viewReq (s : State) (cnt mode : Bool) : State :=
  if !s.rungOk && (s.configured || s.sys.phase == .recovery) && !s.sys.vauxDown then s.viewGo cnt mode
  else s.byHost 0x20 .operator fun _ => s.viewGo cnt mode

/-- SYS_VIEW_REQ with MODE = 0. -/
def execViewReqNow (cnt : Bool) (s : State) : Host.Outcome State Fault Refusal := .next (s.viewReq cnt false)

/-- SYS_VIEW_REQ with MODE = 1. -/
def execViewReqAt (cnt : Bool) (s : State) : Host.Outcome State Fault Refusal :=
  .next (s.viewReq cnt true)

/-- The device is LOCKED on the present tick: an absence of TIME frames that ends on it has ended the lock (R413, R428). -/
def State.lockedNow (s : State) : Bool := s.cas.st == .locked && decide (s.now < s.cas.timeAt + 100 * tUs)

/-- The capture of a view whose tick has come by `t`: every island captures its state, and the counters where they are included
(R38, R42). A counter snapshot not yet delivered is delivered first. A device that is not locked then takes no equinox view and
answers UNLOCKED (R425); CODE then reads ABORTED (DESIGN CHOICE, notes/assumptions/95). -/
def State.viewTakeBy (s : State) (t : Nat) : State :=
  match s.sys.viewReq with
  | none => s
  | some r =>
    if decide (r.at_ ≤ t) && s.ctrlUp && s.rungOk then
      if r.eqx && !(s.sys.strap || s.lockedNow) then
        ({ s with sys := { s.sys with viewReq := none, viewCode := 5, irq := Irq.set s.sys.irq 1 } }).eqxReply false 1
      else
        let s1 := { s with sys := { s.sys with viewReq := none, shadow := some (r, s.viewWords) } }
        if r.cnt then s1.cntDeliver.cntCapture (if r.eqx then 2 else 1) r.at_ else s1
    else s

/-- The capture tick of a view has come. -/
def State.viewTake (s : State) : State := s.viewTakeBy s.now

/-- The capture tick of a view. -/
def execViewCapture (s : State) : Host.Outcome State Fault Refusal := .next s.viewTake

/-- The held view after a delivery: an island lost before it delivered reads all ones across its fields (R48). -/
def State.viewHeld (s : State) (ws : Tab Word) : Tab Word :=
  ((viewRegs s.hw.variant).map fun r => (r.addr, if s.islLost r.isl then r.mask else tget 0 ws r.addr)).filter
    fun e => !decide (e.2 = 0)

/-- SYS_VIEW_MISS: rail islands, then link, security, always-on. -/
def State.viewMissed (s : State) : Nat :=
  ((List.range (nIsl s.hw.variant)).foldl (fun a i => a + b2n (s.islLost i) * 2 ^ i) 0)
    + b2n (s.islLost 17) * 2 ^ 16 + b2n (s.islLost 18) * 2 ^ 17 + b2n (s.islLost 19) * 2 ^ 18

/-- What was captured on the present tick is captured again from its end: every event stamped with it has taken effect (R31, R38). A
device whose lock ended on the tick after its equinox capture takes no view (R428). -/
def State.recapture (s : State) : State :=
  let s := match s.sys.shadow with
    | some (r, _) =>
      if r.at_ = s.now then
        if r.eqx && !(s.sys.strap || s.lockedNow) then
          { s with sys := { s.sys with shadow := none, viewCode := 5, irq := Irq.set s.sys.irq 1 }
                   cnt := { s.cnt with shadow := s.cnt.shadow.filter fun x => decide (x.1 = 0) } }.eqxReply false 1
        else { s with sys := { s.sys with shadow := some (r, s.viewWords) } }
      else s
    | none => s
  match s.cnt.shadow with
  | some (src, t, _) => if t = s.now then { s with cnt := { s.cnt with shadow := some (src, t, s.cntWords) } } else s
  | none => s

/-- The drain frame, and the end of a drain for which it has come (R260, R262, R269). -/
def State.drainJudge (s : State) : State :=
  let s := s.drainFrame
  if s.drainCode = 0 then s else (s.drainTick).settle s.now

/-- What the sequencer does of itself on the present tick is done, and the entry tests of SPRING are judged with it, until nothing more of
the stamp is to come. -/
def State.rounds : Nat → State → State
  | 0, s => s
  | fuel + 1, s => if (s.firstItem (s.now + 1) 0).isNone then s else State.rounds fuel (s.upTo (s.now + 1) 0).springPass

/-- What is judged at the end of a tick, over everything that carries its stamp: first what raises events, reactions and off requests,
those of a drain's end among them (R137, R262, R269, R552), SAFE_CLR (R298, R306), on requests kept behind them (R154), then entry tests
of SPRING (R172, R184) and the timers that yield to all of these. -/
def State.judgeTick (s : State) : State :=
  let s := s.upTo s.now SeqItem.spec.rank
  let s := (s.drainJudge.safeGoes.upTo s.now SeqItem.spec.rank).safeLeave
  let s := if s.seq.onWait.isEmpty then s else (s.onLast).settle s.now
  State.rounds (s.rails.length + 1) s.springPass

/-- The shadows are delivered once the capture tick is settled: the view registers of all blocks change together, those of the counters
included (R34, R39 to R42, R46, R48, R50). -/
def State.viewEnd (s : State) : State :=
  match s.sys.shadow with
  | none => s
  | some (r, ws) =>
    if s.settledBy r.at_ then
      let s1 := { s with sys := { s.sys with
        shadow := none, view := s.viewHeld ws, viewMiss := s.viewMissed, viewTick := r.at_, viewDone := true, viewSrc := r.eqx
        irq := Irq.set s.sys.irq 0 } }
      let s2 := if r.cnt then s1.cntDeliver else s1
      if r.eqx then s2.eqxReply true 0 else s2
    else s

/-- The view is delivered. -/
def execViewDone (s : State) : Host.Outcome State Fault Refusal := .next s.viewEnd

/-! ## Islands (R17, R18, R24) -/

/-- A source that arises in start-up is raised at READY or on entry to recovery mode (R55, R69), later at once. -/
def State.raiseOrDefer (s : State) (i : Nat) : State :=
  if s.active then (s.report i s.now).settle s.now else { s with sys := s.sys.deferSrc i }

/-- An island that can be lost: one of the variant, the control island aside. -/
def State.hasIsl (s : State) (i : Nat) : Bool := decide (i < nIsl s.hw.variant) || decide (17 ≤ i ∧ i < 20)

/-- 64 requests unanswered: the island is lost until the next device reset. -/
def State.loseIsl (s : State) (i : Nat) : State :=
  if s.hasIsl i && !s.islLost i && s.ctrlUp && s.rungOk then
    ({ s with sys := { s.sys with lost := Nat.lor s.sys.lost (2 ^ i), irq := Irq.set s.sys.irq 2 } }).raiseOrDefer 1038
  else s

/-- An island is declared lost. -/
def execIslandLost (isl : Nat) (s : State) : Host.Outcome State Fault Refusal := .next (s.loseIsl isl)

/-- The control island sends the full timebase value with every 256th strobe (R23). An island that receives it, and whose own copy had
slipped from it by `slip`, loads it (R24, notes/assumptions/45). -/
def State.fullValue (s : State) (i : Nat) (slip : Int) : State :=
  if decide (s.sys.strobe % 256 = 0) && s.hasIsl i && !s.islLost i && s.ctrlUp && s.rungOk && !decide (slip = 0) then
    ({ s with sys := { s.sys with irq := Irq.set s.sys.irq 3 } }).raiseOrDefer 1039
  else s

/-- An island receives the full timebase value. -/
def execTimebaseFullValue (isl : Nat) (slip : Int) (s : State) : Host.Outcome State Fault Refusal := .next (s.fullValue isl slip)

/-! ## Device reset (R22, R78, R79, R549) -/

/-- The ENV store over a reset: a line whose write had begun has completed or not (R268, R549), the rest stays. -/
def Env.survive (e : Env) (v : Variant) (t : Nat) : Env :=
  let e1 := match e.writing with
    | some w => if Config.lineSurvives (2 * t) then e.putLine (logAddr v w.line) (recLine e.run w.seq w.rec_) else e
    | none => e
  let e2 := match e.acc with
    | some o => if Config.lineSurvives (2 * t + 1) then e1.putLine o.line o.bytes else e1.clearLines o.line (o.line + 64)
    | none => e1
  { cells := e2.cells, marked := e2.marked }

/-- A channel over a reset: the level of its power-good pin is the outside world's. -/
def Chan.survive (c : Chan) : Chan := { sense := { pgPin := c.sense.pgPin } }

/-- A port over a reset: the levels at its pads are the outside world's. -/
def Port.survive (x : Port) : Port := { inp := x.inp, pad := x.pad }

/-- The bits of SYS_RST_CAUSE of requests that wait: each cause sets its own bit, whichever of them the reset follows (R79). -/
def State.pendCause (s : State) : Nat :=
  Nat.lor (match s.sys.pend with | some p => p.cause | none => 0) (if s.sys.softAt.isSome then 16 else 0)

/-- A device reset with the bits `cause` of SYS_RST_CAUSE: every register at its reset value, S1 begins. Hardware, fuses, the
timebase, the cells of the store, and what the always-on island keeps stay. -/
def State.devReset (s : State) (cause : Nat) : State :=
  let r := State.resetOf s.hw.variant
  { r with
    hw := { s.hw with fuses := s.fusesLeft }
    pending := s.pending
    sys := { r.sys with phase := .s1, tb := s.sys.tb, settled := s.sys.settled, haltHold := s.sys.haltHold
                        rstCause := Nat.lor (Nat.lor s.sys.rstCause cause) s.pendCause }
    chans := tmap {} (fun _ c => c.survive) s.chans
    env := s.env.survive s.hw.variant s.now
    flt := { r.flt with priv := s.flt.priv, privFirst := s.flt.privFirst, privTs := s.flt.privTs, selfEnd := s.flt.selfEnd }
    wdg := { r.wdg with wdoEnd := s.wdg.wdoEnd, expEnd := s.wdg.expEnd, clkCause := s.wdg.clkCause }
    sec := { r.sec with rnd := s.sec.rnd, tamperN := s.sec.tamperN, tamperLast := s.sec.tamperLast, tamperEnd := s.sec.tamperEnd }
    pwr := { r.pwr with vinLoss := s.pwr.vinLoss, hotEnd := s.pwr.hotEnd }
    gpio := { r.gpio with ports := tmap {} (fun _ x => x.survive) s.gpio.ports }
    jtag := { r.jtag with ir := s.jtag.ir, pads := s.jtag.pads } }

/-- The release of the power-on reset: S1 begins, the timebase at 0, everything but hardware, fuses and the store's cells as new. -/
def State.powerOn (s : State) : State :=
  let r := State.resetOf s.hw.variant
  { r with
    hw := { s.hw with fuses := s.fusesLeft }
    pending := s.pending
    sys := { r.sys with phase := .s1 }
    chans := tmap {} (fun _ c => c.survive) s.chans
    env := s.env.survive s.hw.variant s.now
    sec := { r.sec with rnd := s.sec.rnd }
    pwr := { r.pwr with vinLoss := s.pwr.vinLoss }
    gpio := { r.gpio with ports := tmap {} (fun _ x => x.survive) s.gpio.ports } }

/-- VAUX has been in range for 200 µs after it was below its power-on level. -/
def execPowerOnResetRelease (s : State) : Host.Outcome State Fault Refusal :=
  .next (if s.sys.phase == .por || s.sys.vauxDown then s.powerOn else s)

/-- VAUX falls below its collapse floor: drives are released, the privileged event is recorded, no journal line is begun (R267). -/
def State.vauxFalls (s : State) : State :=
  if s.sys.phase == .por || s.sys.vauxDown then s
  else
    let s := s.release
    ({ s with sys := { s.sys with vauxDown := true, mainClock := false, rstCause := Nat.lor s.sys.rstCause 2 } }).privEvent 4 s.now

/-- VAUX collapses. -/
def execVauxCollapse (s : State) : Host.Outcome State Fault Refusal := .next s.vauxFalls

/-- VAUX recovers without having fallen below its power-on level. -/
def execVauxRecover (s : State) : Host.Outcome State Fault Refusal := .next (if s.sys.vauxDown then s.devReset 2 else s)

/-- The question register has been seeded: S2 has completed. -/
def State.s2Done (s : State) : Bool := decide (s.wdg.q ≠ 0)

/-- The main clock restarts after a main-clock loss: the device reset of cause CLK. -/
def execMainClockRestart (s : State) : Host.Outcome State Fault Refusal :=
  .next (if !s.sys.mainClock && s.rungOk && s.s2Done && !s.sys.vauxDown then s.devReset 4 else s)

/-! ## Orderly and soft resets (R76, R77, R551) -/

/-- A request for an orderly reset with the bit `cause`. With a rail not OFF, admission closes and a drain begins; the shut-down
follows it. -/
def State.orderly (s : State) (cause : Nat) : State :=
  if s.sys.phase == .por || s.sys.vauxDown then s
  else
    let p : ResetPend := match s.sys.pend with
      | some p => { p with cause := Nat.lor p.cause cause }
      | none => { cause := cause, since := s.now }
    let s1 := { s with sys := { s.sys with pend := some p } }
    if s.running && !s.railsOff && s.sys.pend.isNone then
      let s2 := s1.setCause fun c => { c with reset := true }
      ((s2.admission s.now []).drainStart 4 s.now).settle s.now
    else s1

/-- RESET_N has been low for 10 µs. -/
def execResetNFilterExpiry (s : State) : Host.Outcome State Fault Refusal := .next (s.orderly 8)

/-- A reset waits: for its drain and shut-down, and for the journal records queued before it (R549). A store that cannot take
them, in HALT or with the main clock stopped, is not waited for. -/
def State.resetWaits (s : State) : Bool :=
  (s.running && (s.hld.drain.isSome || !s.railsDown))
    || ((s.env.writing.isSome || !s.env.queue.isEmpty) && s.sys.mainClock && s.sys.phase != .halt)

/-- The pending reset takes effect once nothing holds it back. -/
def State.resetActs (s : State) : State :=
  match s.sys.pend with
  | none => s
  | some p => if s.resetWaits then s else s.devReset p.cause

/-- The pending reset takes effect. -/
def execOrderlyResetComplete (s : State) : Host.Outcome State Fault Refusal := .next s.resetActs

/-- SYS_RST_CTRL with SOFT = 1, from a session of level `l`. -/
def State.softReq (s : State) (l : Level) (key : Nat) : State :=
  let code (c : Nat) := { s with sys := { s.sys with rstCode := c } }
  if !l.ge .owner then code 3
  else if key ≠ 0x5D1E then code 1
  else if !s.railsOff then code 2
  else { s with sys := { s.sys with rstCode := 0, softAt := some (s.now + 100 * tUs) } }

/-- SYS_RST_CTRL is written. -/
def execSysRstCtrlSoft (key : BitVec 16) (s : State) : Host.Outcome State Fault Refusal :=
  .next (s.byHost 0x64 .user fun l => s.softReq l key.toNat)

/-- An accepted soft reset acts when HMP_CS_N rises, or 100 µs on; it waits for the journal like an orderly one. -/
def State.softActs (s : State) (csRise : Bool) : State :=
  match s.sys.softAt with
  | none => s
  | some t =>
    if csRise || decide (t ≤ s.now) then
      let s := { s with sys := { s.sys with softAt := none, pend := some { cause := Nat.lor 16 s.pendCause, since := s.now } } }
      s.resetActs
    else s

/-- An accepted soft reset takes effect. -/
def execSoftResetTakeEffect (csRise : Bool) (s : State) : Host.Outcome State Fault Refusal := .next (s.softActs csRise)

/-! ## S1 and S2 (R54 to R61) -/

/-- A fuse field as S1 takes it: its value where one copy is sound, none where it causes HALT. -/
def Fuse.take (f : Fuse) (badA badB : Bool) : Option Nat :=
  if badA then (if badB then none else some f.b)
  else if badB then some f.a
  else if f.a = f.b then some f.a
  else none

/-- The fields of R62 in their order, as S1 takes them. -/
def Fuses.taken (f : Fuses) (badA badB : BitVec 8) : List (Option Nat) :=
  let get (x : Fuse) (i : Nat) := x.take (badA.getLsbD i) (badB.getLsbD i)
  [get f.step 0, get f.hwStart 1, get f.win 2, get f.arb 3, get f.uid 4, get f.lcs 5, get f.root 6, get f.trim 7]

/-- The values taken, a field that causes HALT by R61. -/
def takenOf (l : List (Option Nat)) (aBad : Nat) : Taken :=
  let get (i d : Nat) := (l[i]?.getD none).getD d
  { step := get 0 0, hwStart := decide (get 1 1 = 1), win := get 2 0, arb := popCount (get 3 0) 64, uid := get 4 0
    lcs := get 5 0, root := get 6 0, aBad := aBad }

/-- S1 completes: S2 follows, or HALT, which completes S2 too. The strap fixes the cascade role (R398, R410). -/
def State.fuseRead (s : State) (badA badB : BitVec 8) (strap : Bool) : State :=
  if s.sys.phase == .s1 && !s.sys.vauxDown then
    let l := s.hw.fuses.taken badA badB
    let sound := l.all Option.isSome
    { s with
      sys := { s.sys with
        phase := if sound then .s2 else .halt
        taken := takenOf l badA.toNat
        fuseDis := !decide (badA ^^^ badB = 0)
        haltHold := s.sys.haltHold || !sound
        strap := strap }
      cas := if strap then { s.cas with st := .leader, addr := 0, depth := 0, path := 0 } else s.cas }
  else s

/-- The fuses are read. -/
def execFuseReadDone (badA badB : BitVec 8) (strap : Bool) (s : State) : Host.Outcome State Fault Refusal :=
  .next (s.fuseRead badA badB strap)

/-- S2 completes: the main clock runs, the clock monitor is armed, the question register is seeded, the watchdog begins under hardware
start (R58, R318, R330). In S3 the HMP answers, a follower's up port trains, and a leader, whose down ports no configuration has
enabled, ends its first enumeration at once (R407, R399). A tamper that came before enters the safe state with its stamp (R487). -/
def State.s2Ends (s : State) (vio33 : Bool) : State :=
  if (s.sys.phase == .s2 || s.sys.phase == .halt) && !s.s2Done && !s.sys.vauxDown then
    let (bs, s) := s.draw 2
    let s := s.rcEdge
    let q := leNat bs
    let w := { s.wdg with q := if q = 0 then 1 else q, armed := true }
    let halt := s.sys.phase == .halt
    let tam := s.pwr.tamperWake
    let s := { s with
      pwr := { s.pwr with tamperWake := none }
      sys := { s.sys with phase := if halt then .halt else .s3, mainClock := true, vio33 := vio33 }
      wdg := if s.sys.taken.hwStart then { w with run := true }.period s.now else w
      cas := if halt then s.cas else if s.sys.strap then { s.cas with enumDone := true } else s.cas.train 0 }
    match tam with
    | some u => (s.safeEnter 2047 u).settle s.now
    | none => s
  else s

/-- S2 completes. -/
def execBootS2Done (vio33 : Bool) (s : State) : Host.Outcome State Fault Refusal := .next (s.s2Ends vio33)

end Sys2Proof.Machine
end

