-- ==== Sys2Proof/Machine/Image.lean ====
section
/-! DEFINITION. The configuration bitstream as bytes of the ENV store (R367 to R371, R377 to R386), what each section loads into
the state (R389), and the checks of R375 in ascending DETAIL order. A content check judges the state that the image's sections
would make (`c`) beside the present one (`s`), so a run-time image is judged with the sections already loaded (R373). -/

namespace Sys2Proof.Machine

/-! ## Bytes of an image (R367 to R371) -/

/-- An image at an address of the store. -/
structure Img where
  env : Env
  base : Nat
  deriving DecidableEq, Repr

/-- The little-endian number of `len` bytes at offset `i`. -/
def Img.n (m : Img) (i len : Nat) : Nat := leNat (m.env.bytes (m.base + i) len)

/-- The word at offset `i`. -/
def Img.w (m : Img) (i : Nat) : Word := w32 (m.n i 4)

/-- TOTAL_LEN. -/
def Img.len (m : Img) : Nat := m.n 8 4

/-- ARB_VER. -/
def Img.arb (m : Img) : Nat := m.n 6 1

/-- BUILD. -/
def Img.build (m : Img) : Nat := m.n 12 4

/-- Offset of the trailer. -/
def Img.trailer (m : Img) : Nat := m.len - 200

/-- A section: tag, offset of its header, LEN. -/
structure Sec369 where
  tag : Nat
  at_ : Nat
  len : Nat
  deriving DecidableEq, Repr

/-- Offset of the body. -/
def Sec369.body (x : Sec369) : Nat := x.at_ + 8

/-- LEN breaks R370. -/
def Sec369.lenBad (x : Sec369) (lim : Nat) : Bool :=
  decide (x.len % 4 ≠ 0) || decide (x.len < 4) || decide (x.len = 0xFFFFFFFF) || decide (lim < x.at_ + 8 + x.len)

/-- The sections from offset `i`, at most `k` of them; none is looked for behind one whose LEN breaks R370. -/
def Img.walkSecs (m : Img) (lim : Nat) : Nat → Nat → List Sec369
  | 0, _ => []
  | k + 1, i =>
    let x : Sec369 := { tag := m.n i 2, at_ := i, len := m.n (i + 4) 4 }
    if x.lenBad lim then [x] else x :: m.walkSecs lim k (i + 8 + x.len)

/-- The sections NSECT counts. -/
def Img.secs (m : Img) : List Sec369 := m.walkSecs m.trailer (m.n 16 2) 64

/-- The signed digest (R371). -/
def Img.digest (m : Img) : List Byte := Config.sha384 (m.env.bytes m.base (m.trailer + 104))

/-- The addresses of the image's lines but the first. -/
def Img.restLines (m : Img) : List Nat := (List.range ((m.len + 63) / 64 - 1)).map fun k => m.base + 64 * (k + 1)

/-! ## Records of the sections (R377 to R386) -/

/-- Offsets of `n` records of `size` bytes from offset `i`. -/
def recsAt (i size n : Nat) : List Nat := (List.range n).map fun k => i + size * k

/-- Channels whose CHMAP bit is set. -/
def Img.chmap (m : Img) (b : Nat) : List Nat := (List.range 128).filter fun n => (m.n b 16).testBit n

/-- PINMAP entries. -/
def Img.pins (m : Img) (b : Nat) : List Nat := recsAt (b + 20) 4 (m.n (b + 16) 2)
/-- Channel records of RAILS. -/
def Img.railRecs (m : Img) (b : Nat) : List Nat := recsAt (b + 64) 16 (m.n (b + 52) 2)
/-- NPMB. -/
def Img.nPmb (m : Img) (b : Nat) : Nat := m.n (b + 54) 2
/-- PMBus device records of RAILS. -/
def Img.pmbRecs (m : Img) (b : Nat) : List Nat := recsAt (b + 64 + 16 * m.n (b + 52) 2) 4 (m.nPmb b)
/-- Records of DEPGRAPH. -/
def Img.graphRecs (m : Img) (b : Nat) : List Nat := recsAt (b + 4) 24 (m.n b 2)
/-- Channel records of THRESH. -/
def Img.thrRecs (m : Img) (b : Nat) : List Nat := recsAt (b + 36) 56 (m.n b 2)
/-- Source records of REACT. -/
def Img.srcRecs (m : Img) (b : Nat) : List Nat := recsAt (b + 268) 12 (m.n (b + 264) 2)
/-- Remote records of CASCADE. -/
def Img.remRecs (m : Img) (b : Nat) : List Nat := recsAt (b + 8) 4 (m.n (b + 2) 2)
/-- Leaf records of COUNTERS. -/
def Img.leafRecs (m : Img) (b : Nat) : List Nat := recsAt (b + 40) 4 (m.n (b + 36) 2)
/-- Records of KEYPOLICY. -/
def Img.keyRecs (m : Img) (b : Nat) : List Nat := recsAt (b + 4) 8 (m.n b 2)

/-- The body length that the count field of a section describes, with the offset of that field (R370); sections of fixed
length count as a field does. -/
def Img.wantLen (m : Img) (x : Sec369) : Nat × Nat :=
  let b := x.body
  match x.tag with
  | 1 => (20 + 4 * m.n (b + 16) 2, b + 16)
  | 2 => (64 + 16 * m.n (b + 52) 2 + 4 * m.nPmb b, b + 52)
  | 3 => (4 + 24 * m.n b 2, b)
  | 4 => (36 + 56 * m.n b 2, b)
  | 5 => (268 + 12 * m.n (b + 264) 2, b + 264)
  | 6 => (36, x.at_ + 4)
  | 7 => (16, x.at_ + 4)
  | 8 => (8 + 4 * m.n (b + 2) 2, b + 2)
  | 9 => (40 + 4 * m.n (b + 36) 2, b + 36)
  | _ => (4 + 8 * m.n b 2, b)

/-! ## What the sections load (R389) -/

/-- Bits of port `p` claimed by the channels of a map (R497, R498). -/
def claimOf (v : Variant) (ch : List Nat) (p : Nat) : Nat :=
  let top := match v with | .dz128 => 120 | .dz32 => 24
  if p + 1 = nGpio v then (List.range 16).foldl (fun a i => if ch.contains (top + i / 2) then a + 2 ^ i else a) 0 else 0

/-- FUNC and PAD of a pin: its entry's, or those of a pin that no entry names; a claimed pin has none (R498, R500, R501). -/
def Img.pinSet (m : Img) (b p i : Nat) (claimed : Bool) : Nat × Nat :=
  if claimed then (0, 0)
  else
    match (m.pins b).find? fun e => decide (m.n e 1 = p) && decide (m.n (e + 1) 1 = i) with
    | some e => (m.n (e + 2) 1, m.n (e + 3) 1)
    | none => (0, 1)

/-- A number made of `w` bits for each of 16 pins. -/
def pinBits (w : Nat) (f : Nat → Nat) : Nat := (List.range 16).foldl (fun a i => a + f i % 2 ^ w * 2 ^ (w * i)) 0

/-- Port `p` set up by PINMAP; its levels and locks stay. -/
def Img.port (m : Img) (v : Variant) (b p : Nat) (x : Port) : Port :=
  let claim := claimOf v (m.chmap b) p
  let set (i : Nat) := m.pinSet b p i (claim.testBit i)
  { x with
    dir := pinBits 1 fun i => b2n (decide ((set i).1 = 1 ∨ (set i).1 = 2))
    out := pinBits 1 fun i => b2n (decide ((set i).1 = 2))
    od := pinBits 1 fun i => (set i).2 / 4
    pull := w32 (pinBits 2 fun i => (set i).2)
    claim := claim }

/-- A channel before an image is loaded into it: its cfg fields are 0. -/
def Chan.clearCfg (c : Chan) : Chan := { c with ch := {}, rcfg := {}, sense := { c.sense with act := {}, stg := {} } }

/-- PINMAP: claims and pins. CH_CFG.USE comes with the channel records of RAILS, which are one per CHMAP bit. -/
def State.loadPinmap (s : State) (m : Img) (b : Nat) : State :=
  let v := s.hw.variant
  let g := s.gpio
  let set (i : Nat) := m.pinSet b 0 i ((claimOf v (m.chmap b) 0).testBit i)
  { s with
    chans := tmap {} (fun _ c => c.clearCfg) s.chans
    gpio := { g with
      ports := (List.range (nGpio v)).foldl (fun t p => tmod {} t p (m.port v b p)) g.ports
      pen := pinBits 1 fun i => b2n (decide ((set i).1 = 3))
      wakePol := pinBits 1 fun i => (set i).2 / 8 } }

/-- RAILS. -/
def State.loadRails (s : State) (m : Img) (b : Nat) : State :=
  { s with
    seq := { s.seq with auto := wbit (m.w b) 0 }
    hs := { s.hs with
      cfg := m.w (b + 4), brk := m.w (b + 8), capWin := m.w (b + 12), capCfg := m.w (b + 16), capLim := m.w (b + 20)
      hvs := (List.range (nHvs s.hw.variant)).foldl (fun t k => tmod {} t k fun x => { x with role := m.n (b + 48 + k) 1, fresh := true }) s.hs.hvs }
    hld := { s.hld with
      cfg := m.w (b + 24), energy := m.w (b + 28), rsv := m.w (b + 32), hyst := m.w (b + 36), volt := m.w (b + 40)
      admCfg := m.w (b + 44) }
    chans := (m.railRecs b).foldl (fun t e => tmod {} t (m.n e 1) fun c =>
      { c with ch := { c.ch with cfg := m.w (e + 4), igain := m.w (e + 8), pmb := m.w (e + 12) } }) s.chans
    pmb := { s.pmb with
      nDev := m.nPmb b
      devs := (List.range (m.nPmb b)).foldl (fun t j => tset 0 t j (m.w (b + 64 + 16 * m.n (b + 52) 2 + 4 * j))) [] } }

/-- The high part of SEQ_RFLAG and the predecessors and spring image of a DEPGRAPH record. -/
def Img.graph (m : Img) (e : Nat) (c : RailCfg) : RailCfg :=
  let ok := m.n (e + 2) 1 % 2
  { c with
    rflag := wpack [(0, 16, fld c.rflag 0 16), (16, 4, m.n (e + 1) 1), (20, 1, ok)]
    p01 := m.w (e + 4), p23 := m.w (e + 8), p45 := m.w (e + 12), p67 := m.w (e + 16)
    spring := if ok = 1 then m.w (e + 20) else 0 }

/-- DEPGRAPH. -/
def State.loadGraph (s : State) (m : Img) (b : Nat) : State :=
  { s with chans := (m.graphRecs b).foldl (fun t e => tmod {} t (m.n e 1) fun c => { c with rcfg := m.graph e c.rcfg }) s.chans }

/-- The timers of a rail from three words of THRESH. -/
def Img.timers (m : Img) (i : Nat) (c : RailCfg) : RailCfg :=
  { c with time0 := m.w i, time1 := m.w (i + 4), rflag := wpack [(0, 16, m.n (i + 8) 2), (16, 16, fld c.rflag 16 16)] }

/-- The threshold set of a THRESH record. -/
def Img.thr (m : Img) (e : Nat) : Thr :=
  { ov := m.w (e + 4), uv := m.w (e + 8), oc := m.w (e + 12), good := m.w (e + 16), nom := m.w (e + 20), vdis := m.w (e + 24) }

/-- The words of a THRESH record outside the threshold set. -/
def Img.thrRest (m : Img) (e : Nat) (c : Chan) : Chan :=
  { c with
    rcfg := m.timers (e + 28) c.rcfg
    ch := { c.ch with mgnCfg := m.w (e + 40), mgnTgt := m.w (e + 44), prbCfg := m.w (e + 48), prbLim := m.w (e + 52) } }

/-- THRESH; `put` makes a threshold set active. -/
def State.loadThresh (s : State) (m : Img) (b : Nat) (put : Chan → Thr → Chan) : State :=
  let chans := (m.thrRecs b).foldl (fun t e => tmod {} t (m.n e 1) fun c => put (m.thrRest e c) (m.thr e)) s.chans
  { s with
    hs := { s.hs with
      goodThr := m.w (b + 20)
      hvs := (List.range (nHvs s.hw.variant)).foldl (fun t k => tmod {} t k fun x =>
        { x with thr := m.w (b + 4 + 4 * k), fresh := x.fresh || !decide (x.thr = m.w (b + 4 + 4 * k)) }) s.hs.hvs }
    chans := tmod {} chans HS fun c => { c with rcfg := m.timers (b + 24) c.rcfg } }

/-- A threshold set made active with nothing running on it. -/
def Chan.setThr (c : Chan) (t : Thr) : Chan := { c with sense := { c.sense with act := t, stg := t } }

/-- The words a source without a record takes (R381). -/
def dfltScfg : Word := 0x00010105#32
/-- FLT_SWIN of a source without a record. -/
def dfltSwin : Word := 0xFFFF03E8#32

/-- REACT. -/
def State.loadReact (s : State) (m : Img) (b : Nat) : State :=
  { s with flt := { s.flt with
    grace0 := m.w b, grace1 := m.w (b + 4)
    groups := (List.range 64).foldl (fun t k => tset 0 t k (m.w (b + 8 + 4 * k))) []
    scfg := (m.srcRecs b).foldl (fun t e => tset dfltScfg t (m.n e 2) (m.w (e + 4))) []
    swin := (m.srcRecs b).foldl (fun t e => tset dfltSwin t (m.n e 2) (m.w (e + 8))) [] } }

/-- WDG: in force from the next period (R308). -/
def State.loadWdg (s : State) (m : Img) (b : Nat) : State :=
  { s with wdg := { s.wdg with
    nextCfg := some (m.w b, (List.range 8).foldl (fun t i => tset 0 t i (m.w (b + 4 + 4 * i))) []) } }

/-- LADDER. -/
def State.loadLadder (s : State) (m : Img) (b : Nat) : State :=
  { s with pwr := { s.pwr with policy := m.w b, wakeWinter := m.w (b + 4), wakeMid := m.w (b + 8) } }

/-- A remote reference from its image. -/
def remoteOf (w : Word) : Remote := { addr := fld w 0 12, rail := fld w 12 8, valid := true }

/-- CASCADE. -/
def State.loadCascade (s : State) (m : Img) (b : Nat) : State :=
  { s with
    cas := { s.cas with cfg := m.w (b + 4), subsSent := false }
    seq := { s.seq with
      remote := (List.range (m.n (b + 2) 2)).foldl (fun t r => tset {} t r (remoteOf (m.w (b + 8 + 4 * r)))) [] } }

/-- The default event of leaf `j` (R519). -/
def leafDflt (j : Nat) : Nat := [1, 2, 3, 0x10, 0x11, 0x12, 0x23, 0x24].getD j 0

/-- The event of every leaf: the defaults of the channels in use, then the records. -/
def Img.leafEvs (m : Img) (b : Nat) (uses : List Nat) : Tab Nat :=
  let t := uses.foldl (fun t n => (List.range 8).foldl (fun t j => tset 0 t (8 * n + j) (leafDflt j)) t) []
  (m.leafRecs b).foldl (fun t e => tset 0 t (8 * m.n e 1 + m.n (e + 1) 1) (m.n (e + 2) 2)) t

/-- The channels in use. -/
def State.uses (s : State) : List Nat := (List.range (nCh s.hw.variant)).filter s.inUse

/-- COUNTERS; a leaf of a channel that was in use, whose event changes, is cleared (R392, R395), and the windows wait. -/
def State.loadCounters (s : State) (m : Img) (b : Nat) (was : List Nat) : State :=
  let ev := m.leafEvs b s.uses
  let gone := (was.flatMap fun n => (List.range 8).map (8 * n + ·)).filter fun k => s.inUse (k / 8) && decide (tget 0 ev k ≠ tget 0 s.cnt.ev k)
  { s with
    env := { s.env with jcfg := m.w b, countDirty := gone.foldl (fun t k => tset false t (k / 8) true) s.env.countDirty }
    cnt := { s.cnt with
      ev := ev
      leaf := gone.foldl (fun t k => tset 0 t k 0) s.cnt.leaf
      inv := gone.foldl (fun t k => tset false t k false) s.cnt.inv
      tp := (List.range 8).foldl (fun t p => tmod {} t p fun x => { x with nextWin := some (m.n (b + 4 + 4 * p) 4) }) s.cnt.tp } }

/-- KEYPOLICY. -/
def State.loadKeys (s : State) (m : Img) (b : Nat) : State :=
  { s with sec := { s.sec with
    kpol := (m.keyRecs b).foldl (fun t e => tset {} t (m.n e 1)
      { cond := m.n (e + 2) 2, line := (m.n (e + 4) 4 - s.secBase) / 64, valid := true }) [] } }

/-- One section loaded; `was` are the channels in use before the image. -/
def State.loadSec (m : Img) (was : List Nat) (put : Chan → Thr → Chan) (s : State) (x : Sec369) : State :=
  match x.tag with
  | 1 => s.loadPinmap m x.body
  | 2 => s.loadRails m x.body
  | 3 => s.loadGraph m x.body
  | 4 => s.loadThresh m x.body put
  | 5 => s.loadReact m x.body
  | 6 => s.loadWdg m x.body
  | 7 => s.loadLadder m x.body
  | 8 => s.loadCascade m x.body
  | 9 => s.loadCounters m x.body was
  | _ => s.loadKeys m x.body

/-- The configuration that the image's sections make of the present one. -/
def State.loadSecs (s : State) (m : Img) (put : Chan → Thr → Chan) : State := m.secs.foldl (State.loadSec m s.uses put) s

/-! ## Rejections (R374, R375) -/

/-- A rejection: DETAIL, section tag, offset of the failing field. -/
structure Rej where
  detail : Nat
  tag : Nat
  ofs : Nat
  deriving DecidableEq, Repr

/-- The rejection code of a DETAIL (R374, R375). -/
def rejCode (d : Nat) : Nat :=
  if d = 0x02 ∨ d = 0x15 then 1
  else if d ≤ 0x06 then 2
  else if d = 0x07 then 3
  else if d = 0x08 ∨ d = 0x13 ∨ d = 0x14 ∨ d = 0x1C then 4
  else if d ≤ 0x0A then 5
  else if d ≤ 0x12 then 6
  else if d ≤ 0x19 then 7
  else if d = 0x1A then 8
  else if d = 0x1B then 9
  else if d ≤ 0x22 then 0xA
  else if d ≤ 0x2B then 0xB
  else if d ≤ 0x37 then 0xC
  else if d ≤ 0x46 then 0xD
  else if d ≤ 0x5A then 0xE
  else 0xF

/-- The first field of a list of (offset, fails) that fails. -/
def badAt (d tag : Nat) (l : List (Nat × Bool)) : Option Rej := (l.find? (·.2)).map fun e => { detail := d, tag := tag, ofs := e.1 }

/-- The first rejection of a list of checks. -/
def firstRej (l : List (Option Rej)) : Option Rej := l.findSome? id

/-- Bytes that must be 0. -/
def Img.zeros (m : Img) (i len : Nat) : List (Nat × Bool) := (List.range len).map fun k => (i + k, decide (m.n (i + k) 1 ≠ 0))

/-- A word with bits outside its fields. -/
def Img.rsv (m : Img) (i : Nat) (mask : Word) : Nat × Bool := (i, !decide (m.w i &&& ~~~mask = 0))

/-- A number outside a range. -/
def notIn (lo hi n : Nat) : Bool := decide (n < lo) || decide (hi < n)

/-! ## Header and frame (0x02 to 0x1C) -/

/-- Checks 0x02 to 0x09 of a header, and 0x0A of a run-time one. `room` is the longest image its place holds. -/
def State.headRej (s : State) (m : Img) (rt : Bool) (room : Nat) : Option Rej :=
  firstRej
    [badAt 0x02 0 [(0, decide (m.n 0 4 ≠ 0x53425A44))],
     badAt 0x03 0 [(4, decide (m.n 4 1 ≠ 1))],
     badAt 0x04 0 (m.zeros 18 2 ++ m.zeros 36 28),
     badAt 0x05 0 [(7, decide (m.n 7 1 ≠ b2n rt))],
     badAt 0x06 0 [(6, decide (64 < m.arb))],
     badAt 0x07 0 [(5, decide (m.n 5 1 ≠ s.hw.variant.code))],
     badAt 0x08 0 [(8, decide (m.len % 4 ≠ 0) || decide (m.len = 0xFFFFFFFF) || decide (m.len < if rt then 276 else 384)
       || decide (room < m.len))],
     badAt 0x09 0 [(6, decide (m.arb < s.sys.taken.arb))],
     badAt 0x0A 0 [(6, rt && decide (m.arb ≠ s.cfg.arbVer)), (12, rt && decide (m.build ≠ s.cfg.build))]]

/-- A tag is not known, or not allowed in a run-time image (R369). -/
def tagBad (rt : Bool) (t : Nat) : Bool := if rt then !(t == 4 || t == 5 || t == 6 || t == 9) else notIn 1 10 t

/-- Each section with the one before it. -/
def secPairs (l : List Sec369) : List (Sec369 × Sec369) := l.zip l.tail

/-- The checks from 0x10 to 0x1C but 0x1B, with the section-header part of 0x04. -/
def State.frameRej (s : State) (m : Img) (rt : Bool) : Option Rej :=
  let l := m.secs
  let t := m.trailer
  let key := m.env.bytes (m.base + t + 8) 96
  let tagged (d : Nat) (f : Sec369 → List (Nat × Bool)) := firstRej (l.map fun x => badAt d x.tag (f x))
  firstRej
    [tagged 0x04 fun x => m.zeros (x.at_ + 2) 2,
     badAt 0x10 0 [(16, if rt then notIn 1 4 (m.n 16 2) else decide (m.n 16 2 ≠ 10))],
     tagged 0x11 fun x => [(x.at_, tagBad rt x.tag)],
     firstRej ((secPairs l).map fun p => badAt 0x12 p.2.tag [(p.2.at_, decide (p.2.tag ≤ p.1.tag))]),
     tagged 0x13 fun x => [(x.at_ + 4, x.lenBad t)],
     match l.getLast? with
     | some x => badAt 0x14 x.tag [(x.at_ + 4, decide (x.at_ + 8 + x.len ≠ t))]
     | none => none,
     badAt 0x15 0xFFFF ((t, decide (m.n t 4 ≠ 0x52545A44)) :: m.zeros (t + 4) 4),
     badAt 0x18 0xFFFF [(t + 8, !s.rootSet)],
     badAt 0x19 0xFFFF [(t + 8, decide (leNat (Config.sha384 key) ≠ s.sys.taken.root))],
     badAt 0x1A 0xFFFF [(t + 104, !Config.ecdsaOk key m.digest (m.env.bytes (m.base + t + 104) 96))],
     tagged 0x1C fun x => [((m.wantLen x).2, decide (x.len ≠ (m.wantLen x).1))]]

/-! ## Content checks (0x20 to 0x80) -/

/-- Lists of record keys: the first record, or the count field where one is missing, that differs from what is wanted. -/
def Img.keysBad (m : Img) (d tag cnt : Nat) (recs want : List Nat) : Option Rej :=
  if recs.map (fun e => m.n e 1) = want then none
  else
    match (recs.zip (want ++ List.replicate recs.length 256)).find? fun p => decide (m.n p.1 1 ≠ p.2) with
    | some p => some { detail := d, tag := tag, ofs := p.1 }
    | none => some { detail := d, tag := tag, ofs := cnt }

/-- Record keys do not rise strictly. -/
def Img.notRising (m : Img) (len : Nat) (recs : List Nat) : List (Nat × Bool) :=
  (recs.zip recs.tail).map fun p => (p.2, decide (m.n p.2 len ≤ m.n p.1 len))

/-- A PAD value is undefined on its pin (R501). -/
def padBad (port pin pad : Nat) : Bool :=
  decide (pad % 4 = 3) || decide (16 ≤ pad) || (pad.testBit 3 && !(decide (port = 0) && decide (pin < 8)))

/-- The set-up of a pin that a lock freezes (R516) differs between two states. -/
def pinMoved (s c : State) (p i : Nat) : Bool :=
  let a := s.port p
  let b := c.port p
  a.dir.testBit i != b.dir.testBit i || a.od.testBit i != b.od.testBit i || a.claim.testBit i != b.claim.testBit i
    || decide (fld a.pull (2 * i) 2 ≠ fld b.pull (2 * i) 2)
    || (decide (p = 0) && (s.gpio.pen.testBit i != c.gpio.pen.testBit i || s.gpio.wakePol.testBit i != c.gpio.wakePol.testBit i))

/-- PINMAP: 0x20 to 0x22. -/
def State.pinRej (s c : State) (m : Img) (b : Nat) : Option Rej :=
  let v := s.hw.variant
  let ch := m.chmap b
  let pins := m.pins b
  let at_ (e : Nat) := (m.n e 1, m.n (e + 1) 1)
  let all := (List.range (nGpio v)).flatMap fun p => (List.range 16).map fun i => (p, i)
  firstRej
    [badAt 0x20 1 (ch.map fun n => (b + n / 8, decide (nCh v ≤ n))),
     badAt 0x21 1 (m.zeros (b + 18) 2 ++ pins.flatMap fun e =>
       [(e, decide (nGpio v ≤ m.n e 1)), (e + 1, decide (15 < m.n (e + 1) 1)),
        (e + 2, decide (3 < m.n (e + 2) 1) || (decide (m.n (e + 2) 1 = 3) && decide (m.n e 1 ≠ 0))),
        (e + 3, padBad (m.n e 1) (m.n (e + 1) 1) (m.n (e + 3) 1))]),
     badAt 0x22 1 (pins.map (fun e =>
         (e, pins.any (fun x => decide (x < e) && at_ x == at_ e) || (claimOf v ch (m.n e 1)).testBit (m.n (e + 1) 1)))
       ++ all.map fun q =>
         ((pins.find? fun e => at_ e == q).getD (b + 16), (s.port q.1).locked.testBit q.2 && pinMoved s c q.1 q.2))]

/-- RAILS: 0x28 to 0x2B. -/
def State.railRej (s : State) (m : Img) (b : Nat) (uses : List Nat) : Option Rej :=
  let v := s.hw.variant
  let recs := m.railRecs b
  let devs := m.pmbRecs b
  let role (k : Nat) := m.n (b + 48 + k) 1
  let roles := List.range (nHvs v)
  firstRej
    [m.keysBad 0x28 2 (b + 52) recs uses,
     badAt 0x29 2 (
       [m.rsv b 1#32, m.rsv (b + 4) 0x03FF00FF#32, (b + 4, decide (m.n (b + 4) 1 = 0)), m.rsv (b + 8) 0x000F03FF#32,
        m.rsv (b + 12) 0x0FFF0FFF#32, (b + 16, decide (m.n (b + 16) 2 = 0)), (b + 20, decide (m.n (b + 22) 2 < m.n (b + 20) 2)),
        m.rsv (b + 24) 0xFFFF03FF#32, (b + 24, notIn 1 1000 (fld (m.w (b + 24)) 0 10)), (b + 24, notIn 10 100 (fld (m.w (b + 24)) 16 7)),
        m.rsv (b + 32) 0x000FFFFF#32, m.rsv (b + 36) 0x000FFFFF#32, m.rsv (b + 40) 0x0FFF0FFF#32, m.rsv (b + 44) 0x00003FFF#32,
        (b + 44, decide (nLedger v ≤ fld (m.w (b + 44)) 0 14))]
       ++ (List.range 4).map (fun k => (b + 48 + k, decide (3 < role k)))
       ++ m.zeros (b + 56) 8
       ++ recs.flatMap (fun e => m.zeros (e + 1) 3 ++
         [m.rsv (e + 4) 0x00FF7FFF#32, (e + 4, !wbit (m.w (e + 4)) 0), m.rsv (e + 8) 0x0000FFFF#32, m.rsv (e + 12) 0x1FFFFF1F#32])
       ++ devs.flatMap (fun e => [(e, decide (128 ≤ m.n e 1)), (e + 1, decide (16 ≤ m.n (e + 1) 1))] ++ m.zeros (e + 2) 2)),
     badAt 0x2A 2 ([(b + 48, decide (role 0 ≠ 0)), (b + 48, decide ((roles.filter fun k => role k == 1).length ≠ 1))]
       ++ (List.range 4).map fun k => (b + 48 + k, decide (nHvs v ≤ k) && decide (role k ≠ 3))),
     badAt 0x2B 2 ([(b + 54, decide (32 < m.nPmb b))]
       ++ devs.map (fun e => (e, devs.any fun x => decide (x < e) && decide (m.n x 1 = m.n e 1)))
       ++ recs.map fun e => (e + 12, wbit (m.w (e + 4)) 11 && decide (m.nPmb b ≤ fld (m.w (e + 12)) 0 5)))]

/-- The eight predecessor slots of a DEPGRAPH record. -/
def Img.slots (m : Img) (e : Nat) : List Nat := (List.range 8).map fun k => m.n (e + 4 + 2 * k) 2

/-- The references a record names. -/
def Img.refs (m : Img) (e : Nat) : List Nat := (m.slots e).filter (· ≠ 0xFFFF)

/-- Rails reached from those of `l` by local references, `fuel` times over. -/
def reach (preds : Nat → List Nat) : Nat → List Nat → List Nat
  | 0, l => l
  | fuel + 1, l => reach preds fuel (l ++ (l.flatMap preds).eraseDups.filter fun x => !l.contains x)

/-- The local references of the record of rail `r` in an image. -/
def Img.localPreds (m : Img) (b r : Nat) : List Nat :=
  match (m.graphRecs b).find? fun e => decide (m.n e 1 = r) with
  | some e => (m.refs e).filter fun p => !isRemote p
  | none => []

/-- SPRING_OK on a rail that breaks R166, by the words loaded. -/
def State.springBad (c : State) (r : Nat) : Bool :=
  let x := (c.chan r).rcfg
  let ps := predSlots x
  springOk x && (decide (r = HS) || ps.isEmpty || ps.contains HS || ps.any isRemote || notIn 1 500 (fld x.spring 0 10)
    || notIn 1 200 (fld x.spring 16 8) || decide (fld x.time1 0 16 * 10 ≤ fld x.spring 0 10))

/-- DEPGRAPH: 0x30 to 0x37. -/
def State.graphRej (c : State) (m : Img) (b : Nat) (uses : List Nat) (nrem : Nat) : Option Rej :=
  let recs := m.graphRecs b
  let fits (e : Nat) (f : Nat → Bool) := (m.slots e).zipIdx.map fun p => (e + 4 + 2 * p.2, decide (p.1 ≠ 0xFFFF) && f p.1)
  let isRail (p : Nat) := decide (p = HS) || uses.contains p
  firstRej
    [m.keysBad 0x30 3 b recs (uses ++ [HS]),
     badAt 0x31 3 (m.zeros (b + 2) 2 ++ recs.flatMap fun e =>
       [(e + 1, decide (m.n (e + 1) 1 ≠ (m.refs e).length)), (e + 4, !decide ((m.slots e).take (m.refs e).length = m.refs e)),
        (e + 2, decide (1 < m.n (e + 2) 1)), (e + 3, decide (m.n (e + 3) 1 ≠ 0)), m.rsv (e + 20) 0x00FF03FF#32]),
     badAt 0x32 3 (recs.map fun e => (e, (reach (m.localPreds b) recs.length (m.localPreds b (m.n e 1))).contains (m.n e 1))),
     badAt 0x33 3 (recs.flatMap fun e => fits e fun p => !isRemote p && !isRail p),
     badAt 0x34 3 (recs.flatMap fun e => fits e fun p => isRemote p && decide (nrem ≤ p % 0x8000)),
     badAt 0x35 3 (recs.flatMap fun e => fits e fun p => decide (m.n e 1 = HS) && !isRemote p),
     badAt 0x36 3 (recs.map fun e => (e + 4, !decide ((m.refs e).eraseDups = m.refs e))),
     badAt 0x37 3 (recs.map fun e => (e + 20, c.springBad (m.n e 1)))]

/-- The values of a threshold record that lie outside their ranges. -/
def Img.thrFields (m : Img) (e : Nat) : List (Nat × Bool) :=
  let cfg := m.w (e + 40)
  m.zeros (e + 1) 3
    ++ [m.rsv (e + 4) 0x000F73FF#32, m.rsv (e + 8) 0x000F73FF#32, m.rsv (e + 12) 0x000F73FF#32, m.rsv (e + 16) 0x0FFF0FFF#32,
        m.rsv (e + 20) 0x00000FFF#32, m.rsv (e + 24) 0x03FF0FFF#32, (e + 4, (m.thr e).rangeBad), m.rsv (e + 36) 0x0000FFFF#32,
        m.rsv (e + 40) 0x00FFFFF7#32, (e + 40, decide (fld cfg 12 4 = 0)), (e + 40, decide (fld cfg 16 8 = 0)),
        m.rsv (e + 44) 0x01FFFFFF#32, (e + 44, decide (fld (m.w (e + 44)) 16 9 = 0)), m.rsv (e + 48) 0xFFFF1FFF#32,
        (e + 48, decide (fld (m.w (e + 48)) 0 9 = 0)), (e + 48, decide (4 < fld (m.w (e + 48)) 10 3))]

/-- A locked channel that the image changes (R110, R189), or no longer uses. -/
def lockMoved (s c : State) (n : Nat) : Bool :=
  let a := s.chan n
  let b := c.chan n
  a.sense.locked && s.inUse n && (!c.inUse n || !decide (a.sense.act = b.sense.act) || !decide (a.ch.mgnCfg = b.ch.mgnCfg)
    || !decide (a.ch.mgnTgt = b.ch.mgnTgt))

/-- THRESH: 0x37 for a run-time image, and 0x40 to 0x46. -/
def State.threshRej (s c : State) (m : Img) (b : Nat) (uses : List Nat) (rt : Bool) : Option Rej :=
  let recs := m.thrRecs b
  let zero (i : Nat) (hs : Bool) : List (Nat × Bool) :=
    [(i, decide (m.n (i + 2) 2 = 0)), (i + 4, decide (m.n (i + 4) 2 = 0)), (i + 4, !hs && decide (m.n (i + 6) 2 = 0)),
     (i + 8, decide (m.n (i + 8) 2 = 0))]
  let ofs (n : Nat) := ((recs.find? fun e => decide (m.n e 1 = n)).getD b)
  firstRej
    [badAt 0x37 4 (recs.map fun e => (e + 32, rt && c.springBad (m.n e 1))),
     m.keysBad 0x40 4 b recs uses,
     badAt 0x41 4 (m.zeros (b + 2) 2 ++ (List.range 4).map (fun k => m.rsv (b + 4 + 4 * k) 0x0FFF0FFF#32)
       ++ [m.rsv (b + 20) 0x00000FFF#32, m.rsv (b + 32) 0x0000FFFF#32] ++ recs.flatMap m.thrFields),
     badAt 0x42 4 (recs.map fun e => (e + 4, (m.thr e).orderBad)),
     badAt 0x43 4 (zero (b + 24) true ++ recs.flatMap fun e => zero (e + 28) false),
     badAt 0x44 4 (recs.map fun e => (e + 40, decide (fld (m.w (e + 40)) 0 2 = 3) && !wbit (c.chan (m.n e 1)).ch.cfg 11)),
     badAt 0x45 4 [(b + 20, decide (fld c.hs.capWin 16 12 ≤ fld c.hs.capWin 0 12) || decide (fld c.hs.goodThr 0 12 ≤ fld c.hs.capWin 16 12))],
     badAt 0x46 4 ((List.range (nCh s.hw.variant)).map fun n => (ofs n, lockMoved s c n))]

/-- A group names a channel not in use. -/
def Img.groupBad (m : Img) (b k : Nat) (uses : List Nat) : Bool :=
  (List.range 32).any fun i => wbit (m.w (b + 8 + 4 * k)) i && !uses.contains (32 * (k % 4) + i)

/-- REACT: 0x50 to 0x5A. -/
def State.reactRej (s : State) (m : Img) (b : Nat) (uses : List Nat) : Option Rej :=
  let recs := m.srcRecs b
  let id (e : Nat) := m.n e 2
  let f (e lo len : Nat) := fld (m.w (e + 4)) lo len
  let each (d ofs : Nat) (p : Nat → Bool) := badAt d 5 (recs.map fun e => (e + ofs, p e))
  let tie (e : Nat) := m.n (e + 10) 2
  firstRej
    [badAt 0x50 5 ([m.rsv (b + 4) 0x0000FFFF#32] ++ m.zeros (b + 266) 2 ++ m.notRising 2 recs
       ++ recs.flatMap fun e => m.zeros (e + 2) 2 ++ [m.rsv (e + 4) 0x00FFF37F#32]),
     each 0x51 0 fun e => !srcNamed s.hw.variant (id e),
     each 0x52 4 fun e => decide (f e 2 2 < f e 0 2),
     each 0x53 4 fun e => decide (f e 16 8 = 0) || decide (m.n (e + 8) 2 = 0),
     badAt 0x54 5 [(b, decide (10000 < m.n b 2)), (b + 2, decide (10000 < m.n (b + 2) 2)), (b + 4, decide (10000 < m.n (b + 4) 2))],
     each 0x55 4 fun e => decide (f e 4 3 ≠ 0) && decide (f e 8 2 = 0),
     each 0x56 4 fun e => decide (f e 4 3 = 1) && !isChSrc (id e),
     each 0x57 4 fun e => decide (f e 4 3 = 2) && decide (m.n (b + 8 + 16 * f e 12 4) 16 = 0),
     each 0x58 4 fun e => decide (id e = 1052) && decide (f e 0 2 ≠ 1),
     each 0x59 8 fun e => isChSrc (id e) && decide (tie e ≠ 0xFFFF),
     badAt 0x5A 5 (recs.flatMap (fun e =>
         [(e + 4, decide (4 < f e 4 3)), (e + 4, decide (f e 4 3 = 1) && decide (f e 12 4 = 0)),
          (e + 8, !isChSrc (id e) && !(tie e == 0xFFFF || tie e == HS || uses.contains (tie e)))])
       ++ (List.range 64).map fun k => (b + 8 + 4 * k, m.groupBad b k uses))]

/-- WDG: 0x60 and 0x61. -/
def Img.wdgRej (m : Img) (b : Nat) : Option Rej :=
  let w := m.w b
  firstRej
    [badAt 0x60 6 [(b + 4, !(List.range 8).any fun i => wbit (m.w (b + 4 + 4 * i)) 16)],
     badAt 0x61 6 ([m.rsv b 0x01FF1FFF#32, (b, notIn 1 4096 (fld w 0 13)), (b, decide (fld w 16 8 = 0))]
       ++ (List.range 8).map fun i => m.rsv (b + 4 + 4 * i) 0x0001FFFF#32)]

/-- LADDER: 0x68. -/
def Img.ladderRej (m : Img) (b : Nat) : Option Rej :=
  badAt 0x68 7 ([(b, decide (fld (m.w b) 0 2 = 1)), (b, decide (fld (m.w b) 4 4 < 2)), m.rsv (b + 4) 0x1F#32, m.rsv (b + 8) 0x1B#32]
    ++ m.zeros (b + 12) 4)

/-- CASCADE: 0x70 and 0x71. -/
def State.casRej (s : State) (m : Img) (b : Nat) : Option Rej :=
  let role := m.n b 1
  let w := m.w (b + 4)
  firstRej
    [badAt 0x70 8 [(b, (decide (role = 1) && !s.sys.strap) || (decide (role = 2) && s.sys.strap))],
     badAt 0x71 8 ([(b, decide (2 < role)), (b + 1, decide (m.n (b + 1) 1 ≠ 0)), m.rsv (b + 4) 0xFFFF0F3F#32,
       (b + 4, decide (1 < fld w 4 2)), (b + 4, decide (fld w 16 8 = 0)), (b + 4, s.hw.variant == .dz32 && decide (fld w 9 3 ≠ 0)),
       (b + 2, decide (256 < m.n (b + 2) 2))]
       ++ (m.remRecs b).flatMap fun e => [m.rsv e 0x800FFFFF#32, (e, decide (0x80 < fld (m.w e) 12 8))])]

/-- An event code of R519. -/
def isEvent (e : Nat) : Bool := decide (e ≤ 3) || (decide (0x10 ≤ e) && decide (e ≤ 0x14)) || (decide (0x20 ≤ e) && decide (e ≤ 0x24))
  || (decide (0x30 ≤ e) && decide (e ≤ 0x32))

/-- COUNTERS: 0x78. -/
def State.cntRej (s : State) (m : Img) (b : Nat) (uses : List Nat) : Option Rej :=
  badAt 0x78 9 ([m.rsv b 0xFF#32, (b, decide (m.n b 1 = 0))]
    ++ (List.range 8).map (fun p => let w := m.n (b + 4 + 4 * p) 4
        (b + 4 + 4 * p, decide (1000000 < w) || (decide (3 + nCasPort s.hw.variant ≤ p) && decide (w ≠ 0))))
    ++ m.zeros (b + 38) 2
    ++ (m.leafRecs b).flatMap fun e =>
      let j := m.n (e + 1) 1
      let ev := m.n (e + 2) 2
      [(e, !uses.contains (m.n e 1)), (e + 1, decide (7 < j)), (e + 2, !isEvent ev || (decide (j < 3) && decide (ev ≠ j + 1)))])

/-- KEYPOLICY: 0x80. -/
def State.keyRej (s : State) (m : Img) (b : Nat) : Option Rej :=
  let recs := m.keyRecs b
  badAt 0x80 10 (m.zeros (b + 2) 2 ++ m.notRising 1 recs ++ recs.flatMap fun e =>
    let a := m.n (e + 4) 4
    [(e + 1, decide (m.n (e + 1) 1 ≠ 0)), (e + 2, decide (32 ≤ m.n (e + 2) 2)),
     (e + 4, decide (a % 64 ≠ 0) || !decide (s.secBase ≤ a ∧ a < regionEnd s.hw.variant .security))])

/-- The content checks of an image, by the sections it has. -/
def State.contentRej (s : State) (m : Img) (rt : Bool) : Option Rej :=
  let c := s.loadSecs m Chan.setThr
  let body (t : Nat) := (m.secs.find? fun x => decide (x.tag = t)).map Sec369.body
  let uses := match body 1 with | some b => m.chmap b | none => s.uses
  let nrem := match body 8 with | some b => m.n (b + 2) 2 | none => 256
  firstRej
    [(body 1).bind fun b => s.pinRej c m b, (body 2).bind fun b => s.railRej m b uses,
     (body 3).bind fun b => c.graphRej m b uses nrem, (body 4).bind fun b => s.threshRej c m b uses rt,
     (body 5).bind fun b => s.reactRej m b uses, (body 6).bind m.wdgRej, (body 7).bind m.ladderRej, (body 8).bind fun b => s.casRej m b,
     (body 9).bind fun b => s.cntRej m b uses, (body 10).bind fun b => s.keyRej m b]

/-! ## Verification (R373) -/

/-- The first line of a list that fails a check of R334, with the lines read up to it. -/
def linesUpTo (e : Env) (f : LineFlaws) : List Nat → List Nat × Option Nat
  | [] => ([], none)
  | a :: r => if (e.check f a).isSome then ([a], some a) else let t := linesUpTo e f r; (a :: t.1, t.2)

/-- Verification from check 0x10 on: the lines it reads, and the rejection it ends with. -/
def State.verify (s : State) (m : Img) (f : LineFlaws) (rt : Bool) : List Nat × Option Rej :=
  let t := linesUpTo s.env f m.restLines
  (t.1, match t.2 with
    | some a => some { detail := 0x1B, tag := 0, ofs := a - m.base }
    | none => firstRej [s.frameRej m rt, s.contentRej m rt])

/-- The read and the checks of a header. -/
def State.readHead (s : State) (m : Img) (f : LineFlaws) (rt : Bool) (room : Nat) : Option Rej :=
  if (s.env.check f m.base).isSome then some { detail := 0x1B, tag := 0, ofs := 0 } else s.headRej m rt room

end Sys2Proof.Machine
end

