-- ==== Sys2Proof/Machine/Load.lean ====
section
/-! DEFINITION. Choosing and loading an image at start-up (R54, R69, R387, R389), the reload (R390 to R392), and the replacement
of sections at run time (R394 to R397). -/

namespace Sys2Proof.Machine

/-! ## Trying slots (R387) -/

/-- The image of slot `k`: 1 A, 2 B. -/
def State.slotImg (s : State) (k : Nat) : Img :=
  { env := s.env, base := regionBase s.hw.variant (if k = 1 then .slotA else .slotB) }

/-- Bytes of a slot (R370). -/
def slotRoom : Variant → Nat
  | .dz128 => 0x200000
  | .dz32 => 0x80000

/-- A line is read: its source raised at once, or kept until start-up ends. -/
def State.readImg (s : State) (f : LineFlaws) (early : Bool) (a : Nat) : State := if early then s.readEarly f a else s.readLine f a

/-- A rejection of an image in CFG_STAT.ERR and CFG_ERR; KEY and SIG raise CFG_AUTH (R376). -/
def State.reject (s : State) (r : Rej) (early : Bool) : State :=
  let k := rejCode r.detail
  let s := { s with cfg := { s.cfg with err := k, detail := r.detail, tag := r.tag, ofs := r.ofs, irq := Irq.set s.cfg.irq 2 } }
  if k = 7 ∨ k = 8 then (if early then { s with sys := s.sys.deferSrc 1053 } else s.report 1053 s.now) else s

/-- Slot `k` is rejected. -/
def State.rejectSlot (s : State) (k : Nat) (r : Rej) (early : Bool) : State :=
  let c := rejCode r.detail
  (if k = 1 then { s with sys := { s.sys with errA := c } } else { s with sys := { s.sys with errB := c } }).reject r early

/-- The header of slot `k` is read and checked; a slot that passes joins the candidates. -/
def State.tryHead (f : LineFlaws) (early : Bool) (a : State × List Nat) (k : Nat) : State × List Nat :=
  let m := a.1.slotImg k
  let s := a.1.readImg f early m.base
  match s.readHead m f false (slotRoom s.hw.variant) with
  | some r => (s.rejectSlot k r early, a.2)
  | none => (s, a.2 ++ [k])

/-- Candidates by ARB_VER, then BUILD, descending, A before B. -/
def State.candidates (s : State) (l : List Nat) : List Nat :=
  let a := s.slotImg 1
  let b := s.slotImg 2
  if decide (l = [1, 2]) && (decide (a.arb < b.arb) || (decide (a.arb = b.arb) && decide (a.build < b.build))) then [2, 1] else l

/-- Slots verified in turn until one passes. -/
def State.trySlots (f : LineFlaws) (early : Bool) : List Nat → State → State × Option Nat
  | [], s => (s, none)
  | k :: rest, s =>
    let v := s.verify (s.slotImg k) f false
    let s := v.1.foldl (fun s a => s.readImg f early a) s
    match v.2 with
    | some r => State.trySlots f early rest (s.rejectSlot k r early)
    | none => (if k = 1 then { s with sys := { s.sys with okA := true } } else { s with sys := { s.sys with okB := true } }, some k)

/-- A slot is chosen among those of a list. -/
def State.chooseSlot (s : State) (f : LineFlaws) (early : Bool) (l : List Nat) : State × Option Nat :=
  let h := l.foldl (State.tryHead f early) (s, [])
  State.trySlots f early (h.1.candidates h.2) h.1

/-! ## Loading (R389) -/

/-- The words of a byte string. -/
def wordsOf (n : Nat) (bs : List Byte) : Tab Word := (List.range n).foldl (fun t k => tset 0 t k (w32 (leAt bs (4 * k) 4))) []

/-- CFG_IMG and the registers beside it describe the loaded image. -/
def State.describe (s : State) (m : Img) (k : Nat) : State :=
  { s with cfg := { s.cfg with
    arbVer := m.arb, fmt := m.n 4 1, slot := k, build := m.build, len := m.len
    imgId := wordsOf 4 (m.env.bytes (m.base + 20) 16), digest := wordsOf 12 m.digest } }

/-- The image of slot `k` is loaded. -/
def State.loadImg (s : State) (k : Nat) : State := (s.loadSecs (s.slotImg k) Chan.setThr).describe (s.slotImg k) k

/-! ## What a first load begins (READY after start-up, or after recovery mode) -/

/-- C_EST at READY (R226): the last measured value of the journal, else FLOOR. -/
def Hs.restore (h : Hs) : Hs :=
  match h.capSaved with
  | some c => { h with cEst := c, cSrc := 2 }
  | none => { h with cEst := fld h.capLim 0 16, cSrc := 0 }

/-- A throughput window that waits begins where none runs (R527). -/
def Tp.start (x : Tp) (now : Nat) : Tp :=
  match x.endAt, x.nextWin with
  | none, some w => { x with win := w, nextWin := none, endAt := if w = 0 then none else some (now + w * 100), bytes := 0, frames := 0, errs := 0 }
  | _, _ => x

/-- A load gives WIN its new value (R389): a window of another length begins on the tick the value takes effect (R527), and the one that
runs is given up (notes/assumptions/145). -/
def Tp.load (x : Tp) (now : Nat) : Tp :=
  if x.nextWin.any (· ≠ x.win) then { x with endAt := none }.start now else { x with nextWin := none }

/-- The recorders of the islands with a channel in use run (R355). -/
def State.recorders (s : State) : State :=
  let used (i : Nat) := s.uses.any fun n => decide (islOf n = i)
  let recs := (List.range (nIsl s.hw.variant)).foldl (fun t i => tmod {} t i fun r =>
    if used i then (if r.on then r else { r with on := true, e := s.bbx.e, bound := s.now + 6400 }) else { r with on := false }) s.bbx.recs
  { s with bbx := { s.bbx with recs := recs } }

/-- The pairing key is read from its line (R472). -/
def State.readPair (s : State) : State :=
  match s.keyAt (s.secBase + 0xC0) 4 with
  | some k => { s with sec := { s.sec with paired := true, kp := k } }
  | none => s

/-- The period of the epoch records: it begins where the image has one and none runs, and stops where it has none (R256). -/
def State.epochStart (s : State) : State :=
  let per := fld s.hld.cfg 24 8
  { s with hld := { s.hld with epochNext :=
      if per = 0 then none else some (s.hld.epochNext.getD (s.now + per * 100 * tMs)) } }

/-- The epochs, periods and capacitance that the first load starts. -/
def State.firstLoad (s : State) : State :=
  let t := s.now
  let cnt := fld s.env.jcfg 0 8
  let s := { s with
    hs := s.hs.restore
    hld := { s.hld with sealed_ := s.hld.persist, durable := s.hld.persist, lastEpochRec := s.hld.persist }
    env := { s.env with cntNext := some (t + cnt * 60 * tSec) } }
  s.epochStart.readPair

/-- The PMBus set-up of each device with OOC set (R458), by the polarity of its bound channel and on that channel's page; a PAGED device
is set up for each channel bound to it, and one without pages once, for the first of them; one without a channel by a free polarity
(notes/assumptions/111). -/
def State.pmbSetup (s : State) : State :=
  let txns (d : Nat) : List PmbTxn :=
    if s.pmb.option d 3 then
      let bound := s.uses.filter fun n => wbit (s.chan n).ch.cfg 11 && decide (fld (s.chan n).ch.pmb 0 5 = d)
      let setup (page : Nat) (low : Bool) : List PmbTxn :=
        [{ dev := d, page := page, cmd := pmbOnOff, data := some (if low then 0x14 else 0x16), use := .setup },
         { dev := d, page := page, cmd := pmbClear, data := none, use := .setup }]
      if bound.isEmpty then setup (Config.passPage d) (Config.unboundLow d)
      else (if s.pmb.option d 2 then bound else bound.take 1).flatMap fun n =>
        setup (fld (s.chan n).ch.pmb 8 8) (wbit (s.chan n).ch.cfg 6)
    else []
  { s with pmb := s.pmb.push ((List.range s.pmb.nDev).flatMap txns) s.now }

/-- The polls of PMBus channels begin (R121): the first falls due one POLL after READY (DESIGN CHOICE, notes/assumptions/108). -/
def Chan.pollStart (c : Chan) (now : Nat) : Chan :=
  let per := fld c.ch.pmb 16 8
  { c with sense := { c.sense with pollNext := if wbit c.ch.cfg 11 && decide (per ≠ 0) then some (now + per * tMs) else none } }

/-- SUB frames for the remote references, once the device is configured and joined (R415). -/
def State.casSubs (s : State) : State :=
  let joined := if s.sys.strap then s.cas.enumDone else s.cas.st == .joined || s.cas.st == .locked
  if s.cas.subsSent || !s.configured || !joined then s
  else
    let s := { s with cas := { s.cas with subsSent := true } }
    s.seq.remote.foldl (fun s e => if e.2.valid then s.casTo e.2.addr (.sub e.2.addr e.2.rail true) else s) s

/-- Down ports whose DN_EN bit is 0 are disabled, and what lies beyond them is lost (R399, R417). -/
def State.casDrop (s : State) : State :=
  let ports := (List.range (nCasPort s.hw.variant - 1)).foldl (fun t k =>
    if wbit s.cas.cfg (8 + k) then t
    else tmod {} t (k + 1) fun q => q.clear .disabled) s.cas.ports
  { s with cas := { s.cas with ports := ports } }.portsLost fun k => !wbit s.cas.cfg (8 + k)

/-- A follower whose up port is down as its first configuration takes effect is an orphan from then on (R418, R540). -/
def State.orphaned (s : State) : State :=
  if !s.sys.strap && s.cas.st == .down && s.cas.orphanEnd.isNone then
    { s with cas := { s.cas with orphanEnd := some (s.now + fld s.cas.cfg 24 8 * 10 * tMs) } }
  else s

/-- The pins whose function a load changed are parked (R73, R503): all of them where they stood parked before. -/
def State.parkPins (s old : State) (all : Bool) : State :=
  (List.range (nGpio s.hw.variant)).foldl (fun s p =>
    let a := old.port p
    let b := s.port p
    let moved := Nat.lor (Nat.lor (a.claim ^^^ b.claim) (lessBits b.dir a.dir)) (if p = 0 then s.gpio.pen ^^^ old.gpio.pen else 0)
    s.modPort p fun x => x.park (if all then 0xFFFF else moved) s.now) s

/-- What the end of S5 and of a reload have in common: parked pins, DIS, good results, the PMBus, recorders, windows, keys,
cascade ports; the pins and the arming of OV follow the new CH_CFG. `old` is the state before the load ended. -/
def State.configure (s old : State) (all : Bool) : State :=
  let t := s.now
  let tp := (List.range 8).foldl (fun x p => tmod {} x p fun y => y.load t) s.cnt.tp
  let s := { s with
    cnt := { s.cnt with tp := tp }
    chans := tmap {} (fun _ c => { c.pollStart t with sense := { (c.pollStart t).sense with pinCfg := c.ch.cfg } }) s.chans }
  let s := (s.parkPins old all).disAll t
  let s := s.uses.foldl (fun s n =>
    let s := s.modChan n fun c => { c with sense := { c.sense with meas := !c.sense.vh.isEmpty && c.measGood c.sense.v } }
    let c := s.chan n
    let s := s.setGood n (goodOf (fld c.ch.cfg 2 2) c.pg c.sense.meas) t
    if wbit (old.chan n).sense.pinCfg 9 then s else s.armRaise n .ov t) s
  let s := ((((s.pmbSetup).recorders).unwrapAll).casDrop.casRetrain).casSubs
  if all then s.orphaned else s

/-- READY is entered: sources that waited are raised, the energy account and the sequence state follow, and the image's automatic
start is requested (R149). -/
def State.enterReady (s : State) : State :=
  let t := s.now
  let l := s.sys.deferred
  let s := ({ s with sys := { s.sys with deferred := [] } }).reports l t
  let s := (s.energy s.holdup).settle t
  (if s.seq.auto then (s.onReq 1 t).settle t else s)

/-! ## Start-up (R54, R69, R73, R387) -/

/-- No slot is valid: recovery mode. -/
def State.enterRecovery (s : State) : State :=
  let l := s.sys.deferred
  let s := { s with sys := { s.sys with phase := .recovery, deferred := [] }, cfg := { s.cfg with op := 3, code := 6 } }
  ((s.reports l s.now).wdgMode).settle s.now

/-- S4 completes: a slot is chosen and its load begins, or recovery mode is entered. -/
def State.slotChoice (s : State) (f : LineFlaws) : State :=
  if s.sys.phase == .s4 && !s.reloading && s.ctrlUp then
    let r := s.chooseSlot f true [1, 2]
    match r.2 with
    | some k => let s := r.1.loadImg k; { s with sys := { s.sys with phase := .s5, slot := k } }
    | none => r.1.enterRecovery
  else s

/-- S4 completes. -/
def execSlotChoiceDone (flaws : LineFlaws) (s : State) : Host.Outcome State Fault Refusal := .next (s.slotChoice flaws)

/-- A run-time set on a channel whose values it changes: applied as under R106, with APPLY_DONE and CODE (R395). -/
def Chan.rtThr (c : Chan) (t : Thr) (now : Nat) (safe : Bool) : Chan :=
  let moved := !decide (c.sense.act = t)
  let c := c.applyThr t now safe
  if moved then { c with sense := { c.sense with applyCode := 0, irq := Irq.set c.sense.irq 4 } } else c

/-- Every channel in use has taken its first sample; a lost island takes none. -/
def State.sampled (s : State) : Bool := s.uses.all fun n => !(s.chan n).sense.vh.isEmpty || s.islLost (islOf n)

/-- S5 of start-up completes: READY. -/
def State.s5Ends (s : State) : State :=
  if s.sys.phase == .s5 && !s.reloading && s.ctrlUp && s.sampled then
    let s1 := { s with
      sys := { s.sys with phase := .ready, bootTime := s.now }
      cfg := { s.cfg with op := 3, code := 0, loaded := true } }
    (s1.firstLoad.configure s true).enterReady
  else s

/-! ## Reload (R390 to R392) -/

/-- A refused LOAD or APPLY. -/
def State.cfgRefuse (s : State) (c : Nat) : State := { s with cfg := { s.cfg with code := c, irq := Irq.set s.cfg.irq 3 } }

/-- An on request of the cascade leader falls due on the present tick: it is acted on, and LOAD is refused with STATE (R397). -/
def State.leaderOnNow (s : State) : Bool := s.active && s.cas.domActs.any fun a => a.1 && decide (a.2 ≤ s.now)

/-- The refusal code of CFG_CTRL.LOAD, 0 where it is accepted. -/
def State.loadCheck (s : State) (l : Level) (force : Nat) (both : Bool) : Nat :=
  if !l.ge .owner then 1
  else if s.cfg.busy then 2
  else if both then 7
  else if force = 3 then 8
  else if !(s.railsOff || s.sys.phase == .recovery) || s.leaderOnNow then 3
  else if s.flt.anyPend || s.safeNow then 4
  else 0

/-- CFG_CTRL.LOAD from a session of level `l`: while the reload runs, the phase shows S4 again. -/
def State.loadReq (s : State) (l : Level) (force : Nat) (both : Bool) : State :=
  match s.loadCheck l force both with
  | 0 =>
    { s with
      sys := { s.sys with phase := .s4, okA := false, okB := false, errA := 0, errB := 0 }
      cfg := { s.cfg with busy := true, op := 1, force := force, fromRecovery := s.sys.phase == .recovery, code := 0 } }
  | c => s.cfgRefuse c

/-- CFG_CTRL.LOAD is written. -/
def execCfgLoad (force : BitVec 2) (s : State) : Host.Outcome State Fault Refusal :=
  .next (s.byHost 0x80000 .user fun l => s.loadReq l force.toNat false)

/-- Every source takes its new BASE with a count of 0. -/
def Src.rebase (x : Src) : Src := { x with up := 0, cnt := 0 }

/-- The pins take the functions that the image of a slot gives them (R73, R389). -/
def State.loadPins (s : State) (k : Nat) : State :=
  let m := s.slotImg k
  m.secs.foldl (fun s x => if x.tag = 1 then { s with gpio := (s.loadPinmap m x.body).gpio } else s) s

/-- A slot has passed: S5 runs again with its image (R70, R391). The pins keep their functions until S5 ends. -/
def State.reloadS5 (s : State) (k : Nat) : State :=
  let c := s.loadImg k
  { c with
    sys := { c.sys with phase := .s5, slot := k }
    gpio := s.gpio
    flt := { c.flt with srcs := tmap {} (fun _ x => x.rebase) c.flt.srcs }
    hs := if c.hs.cSrc = 0 then { c.hs with cEst := fld c.hs.capLim 0 16 } else c.hs }

/-- S5 of a reload completes: READY. -/
def State.reloadOk (s : State) : State :=
  let first := !s.cfg.loaded
  let c := { s with
    sys := { s.sys with phase := .ready, bootTime := if first then s.now else s.sys.bootTime }
    cfg := { s.cfg with busy := false, code := 0, loaded := true, fromRecovery := false, rtN := 0, rtSects := 0, irq := Irq.set s.cfg.irq 0 } }
  let c := if first then c.firstLoad else c.epochStart
  (((c.loadPins c.sys.slot).configure s first).wdgMode).enterReady

/-- No slot passes: the configuration already loaded stays in force, or recovery mode goes on. Keys are unwrapped at the end of each
reload (R481). -/
def State.reloadFails (s : State) : State :=
  (({ s with
    sys := { s.sys with phase := if s.cfg.fromRecovery then .recovery else .ready }
    cfg := { s.cfg with busy := false, fromRecovery := false, code := 6 } }).unwrapAll).settle s.now

/-- S5 of a reload ends once every channel in use has taken its first sample (R54, R70). -/
def State.reloadReady (s : State) : State :=
  if s.reloading && s.sys.phase == .s5 && s.ctrlUp && s.sampled then s.reloadOk else s

/-- The verification of a reload ends: the image is loaded, and READY entered at once where no channel has yet to take its first
sample; where no slot passes, the old configuration stays. -/
def State.reloadEnds (s : State) (f : LineFlaws) : State :=
  if s.reloading && s.sys.phase == .s4 && s.ctrlUp then
    let r := s.chooseSlot f false (match s.cfg.force with | 1 => [1] | 2 => [2] | _ => [1, 2])
    match r.2 with
    | some k => r.1.reloadS5 k
    | none => r.1.reloadFails
  else s.reloadReady

/-- S5 completes, of start-up or of a reload (R54, R389, R391). -/
def execConfigLoadDone (s : State) : Host.Outcome State Fault Refusal := .next (if s.reloading then s.reloadReady else s.s5Ends)

/-- The verification of a reload ends, or, in its S5, the reload as a whole (notes/assumptions/96). -/
def execReloadDone (flaws : LineFlaws) (s : State) : Host.Outcome State Fault Refusal := .next (s.reloadEnds flaws)

/-! ## Replacement at run time (R394 to R397) -/

/-- The refusal code of CFG_CTRL.APPLY, 0 where it is accepted. -/
def State.applyCheck (s : State) (l : Level) (both : Bool) : Nat :=
  let a := s.cfg.rtAddr
  if !l.ge .owner then 1
  else if s.cfg.busy then 2
  else if both then 7
  else if s.sys.phase != .ready then 3
  else if a % 64 ≠ 0 ∨ envSize s.hw.variant ≤ a ∨ regionOf s.hw.variant a ≠ .user then 8
  else 0

/-- CFG_CTRL.APPLY from a session of level `l`. -/
def State.applyReq (s : State) (l : Level) (both : Bool) : State :=
  match s.applyCheck l both with
  | 0 => { s with cfg := { s.cfg with busy := true, op := 2, code := 0, rtBase := s.cfg.rtAddr } }
  | c => s.cfgRefuse c

/-- CFG_CTRL.APPLY is written. -/
def execCfgApply (s : State) : Host.Outcome State Fault Refusal := .next (s.byHost 0x80000 .user fun l => s.applyReq l false)

/-- Some rail is transitional (R129). -/
def State.anyTransitional (s : State) : Bool := s.rsts.any RailState.transitional

/-- The sources whose words a replacement changes start again from BASE. -/
def State.rebaseMoved (s old : State) : State :=
  { s with flt := { s.flt with srcs := tmap {} (fun i x =>
      if s.flt.cfgOf i = old.flt.cfgOf i ∧ s.flt.winOf i = old.flt.winOf i then x else x.rebase) s.flt.srcs } }

/-- The sections a run-time image carries: bit 0 THRESH, 1 REACT, 2 WDG, 3 COUNTERS. -/
def Img.rtSects (m : Img) : Nat :=
  let has (t : Nat) := b2n (m.secs.any fun x => decide (x.tag = t))
  has 4 + 2 * has 5 + 4 * has 6 + 8 * has 9

/-- New watchdog values that an apply finds at the start of a period apply to that period (R397). -/
def Wdg.takeNow (w : Wdg) (t : Nat) : Wdg :=
  match w.nextCfg with
  | some c =>
    if w.run ∧ w.start = t then
      { w with cfg := c.1, tasks := c.2, nextCfg := none, wdoMs := fld c.1 16 8, len := fld c.1 0 13 * tMs }
    else w
  | none => w

/-- The sections of a run-time image take effect (R395). -/
def State.rtTake (s : State) (m : Img) : State :=
  let t := s.now
  let c := (s.loadSecs m fun c x => c.rtThr x t s.safeNow).rebaseMoved s
  let tp := (List.range 8).foldl (fun x p => tmod {} x p fun y => y.start t) c.cnt.tp
  { c with
    wdg := c.wdg.takeNow t
    cnt := { c.cnt with tp := tp }
    cfg := { c.cfg with
      busy := false, code := 0, rtImg := none, rtN := incTo 0xFFFF c.cfg.rtN, rtSects := m.rtSects, irq := Irq.set c.cfg.irq 1 } }

/-- The end of an apply tick, behind what carries its stamp, reactions and expiries included, which take effect under the words in
force: the replacement takes effect, or is refused with STATE where a rail is transitional (R395, R397). The servo updates of the tick,
which waited for it, use the new bands (R202, R223). -/
def State.rtTick (s : State) : State :=
  match s.cfg.rtImg with
  | none => s
  | some e =>
    let s := if s.anyTransitional then (({ s with cfg := { s.cfg with busy := false, rtImg := none } }).cfgRefuse 3).settle s.now
      else (s.rtTake { env := e, base := s.cfg.rtBase }).settle s.now
    s.rails.foldl State.servoDue s

/-- The reports of a campaign whose tick ends (R31, R207). -/
def State.campTick (s : State) : State := s.camp.reportAt.foldl (fun s _ => s.campReport) s

/-- Verification of the run-time image ends: rejected at once, or passed, which makes this the apply tick (`rtTick`). -/
def State.rtEnds (s : State) (f : LineFlaws) : State :=
  if s.cfg.busy && decide (s.cfg.op = 2) && s.cfg.rtImg.isNone && s.ctrlUp then
    let m : Img := { env := s.env, base := s.cfg.rtBase }
    let s := s.readLine f m.base
    let room := regionEnd s.hw.variant .user - m.base
    let v := match s.readHead m f true room with
      | some r => ([], some r)
      | none => s.verify m f true
    let s := v.1.foldl (fun s a => s.readLine f a) s
    match v.2 with
    | some r => (({ s with cfg := { s.cfg with busy := false, code := 5 } }).reject r false).settle s.now
    | none => { s with cfg := { s.cfg with rtImg := some m.env } }
  else s

/-- Verification of the run-time image ends. -/
def execRtApplyVerified (flaws : LineFlaws) (s : State) : Host.Outcome State Fault Refusal := .next (s.rtEnds flaws)

/-! ## The end of a tick -/

/-- The work of the end of a tick: what is judged then, a run-time replacement (R397), the opening of admission (R269), the durable
epoch of a period that ends (R256), a capture that goes on (R360), the steps of a rung entry (R492), a campaign's report (R207), permits
(R480), pin-interrupt lines (R513), the block of frames for the media controller (R453). -/
def State.endWork (s : State) : State :=
  s.judgeTick.rtTick.admitTick.epochTick.bbxTick.entryTick.campTick.permitTick.lineTick.sendTick

/-- The counters at the end of a tick. -/
def State.countTick (s : State) : State := { s with cnt := s.cnt.tickEnd }

/-- The end of a tick: its work, then the captures of a view or a counter snapshot that fall due on it, and those taken earlier on it
brought up to date (R31). -/
def State.endTick (s : State) : State := s.endWork.countTick.viewTake.cntSnapCapture.recapture

/-- A tick with no command left for it: what falls at its end, then the passing of time. -/
def idle (s : State) : State := tickPass s.endTick

end Sys2Proof.Machine
end

