-- ==== Sys2Proof/Machine/Cascade.lean ====
section
/-! DEFINITION. The cascade (12): ports and frames, enumeration, the timebase of the domain, remote rail states, domain
sequencing, faults, equinox snapshots. A frame command stands for a valid frame received; its ACK is part of it. -/

namespace Sys2Proof.Machine

/-! ## Running timers moved by a step of the timebase (R412, R414) -/

/-- A timer moved by `e`. -/
def later (e : Nat) (t : Option Nat) : Option Nat := t.map (· + e)

/-- Timers of a rail. -/
def Rail.shift (r : Rail) (e : Nat) : Rail :=
  { r with due := later e r.due, startEnd := later e r.startEnd, qualEnd := later e r.qualEnd, disEnd := later e r.disEnd
           retryEnd := later e r.retryEnd, dglEnd := later e r.dglEnd, specEnd := later e r.specEnd }

/-- The hold of a comparator. -/
def CmpSt.shift (c : CmpSt) (e : Nat) : CmpSt := { c with holdEnd := later e c.holdEnd }

/-- Timers of sensing; a drive still in its dead time moves too. -/
def Sense.shift (x : Sense) (now e : Nat) : Sense :=
  let ahead (t : Nat) := if now < t then t + e else t
  { x with ov := x.ov.shift e, uv := x.uv.shift e, oc := x.oc.shift e, ocBlankEnd := later e x.ocBlankEnd
           pollNext := later e x.pollNext, lockAt := later e x.lockAt, enAt := ahead x.enAt, armAt := later e x.armAt, disAt := ahead x.disAt }

/-- Timers of a channel. -/
def Chan.shift (c : Chan) (now e : Nat) : Chan :=
  { c with rail := c.rail.shift e, sense := c.sense.shift now e, mgn := { c.mgn with nextAt := c.mgn.nextAt + e }
           prb := { c.prb with phaseEnd := c.prb.phaseEnd + e } }

/-- Timers of a fault source; a count's window and a level's decay move with what they run from. -/
def Src.shift (x : Src) (e : Nat) : Src :=
  { x with openAt := x.openAt + e, last := later e x.last, decayAt := x.decayAt + e, grace := later e x.grace, wireEnd := x.wireEnd + e }

/-- Timers of the watchdog. -/
def Wdg.shift (w : Wdg) (e : Nat) : Wdg :=
  { w with start := w.start + e, keyAt := later e w.keyAt, wdoEnd := later e w.wdoEnd, expEnd := w.expEnd + e }

/-- Timers of the host port. -/
def Hmp.shift (h : Hmp) (e : Nat) : Hmp :=
  { h with lockEnd := later e h.lockEnd, acceptedAt := h.acceptedAt + e, nonce := h.nonce.map fun n => (n.1, n.2.1, n.2.2 + e) }

/-- Timers of the media-controller link. -/
def Mcp.shift (m : Mcp) (e : Nat) : Mcp :=
  { m with keyEnd := later e m.keyEnd, blkAt := m.blkAt + e, heard := m.heard + e
           rxCut := m.rxCut.map fun c => (c.1 + e, c.2), unacked := m.unacked.map fun b => { b with sentAt := b.sentAt + e } }

/-- Timers of the PMBus host. -/
def Pmb.shift (p : Pmb) (e : Nat) : Pmb := { p with startedAt := p.startedAt + e, retryAt := later e p.retryAt }

/-- Timers of the JTAG port. -/
def Jtag.shift (j : Jtag) (e : Nat) : Jtag :=
  { j with nonce := j.nonce.map fun n => (n.1, n.2 + e), lockEnd := later e j.lockEnd }

/-- Timers of a GPIO port. -/
def Port.shift (p : Port) (e : Nat) : Port :=
  { p with lockAt := p.lockAt.map fun l => (l.1 + e, l.2), parkEnd := tmap 0 (fun _ t => t + e) p.parkEnd }

/-- The store's timers: line writes in progress, the COUNT period. -/
def Env.shift (v : Env) (e : Nat) : Env :=
  { v with cntNext := later e v.cntNext, writing := v.writing.map fun w => { w with granted := later e w.granted }
           acc := v.acc.map fun o => { o with granted := later e o.granted } }

/-- A frame that waits at a port carries the value it will have at its SOF by the time it waited: a TIME frame that a follower passes on
knows nothing of the step. -/
def CasPort.later (q : CasPort) (e : Nat) : CasPort :=
  { q with waiting := q.waiting.map fun w => match w.2 with | .time _ => (w.1 + e, w.2) | _ => w }

/-- The chunk boundaries of the recorders. -/
def Bbx.shift (b : Bbx) (e : Nat) : Bbx := { b with recs := tmap {} (fun _ r => { r with bound := r.bound + e }) b.recs }

/-- Timers of the cascade; act ticks and capture ticks are named ticks, not timers. -/
def Cas.shift (c : Cas) (e : Nat) : Cas :=
  { c with ports := tmap {} (fun _ p => { p with sentAt := if p.unacked.isEmpty then p.sentAt else p.sentAt + e }) c.ports
           orphanEnd := later e c.orphanEnd, timeAt := c.timeAt + e, timeSent := c.timeSent + e
           offer := c.offer.map fun o => { o with at_ := o.at_ + e }
           domPhase := c.domPhase.map fun d => { d with act := d.act + e } }

/-- The timebase is stepped forward by `e`, and every running timer's expiry with it; the settled tick keeps its distance (R33). A capture
tick that the step passes over finds the state as it is, which every event of an earlier stamp has made (R31, R38). -/
def State.shift (s : State) (e : Nat) : State :=
  let s := (s.viewTakeBy (s.now + e - 1)).cntSnapBy (s.now + e - 1)
  { s with
    sys := { s.sys with tb := s.sys.tb + e, settled := s.sys.settled + e, softAt := later e s.sys.softAt }
    chans := tmap {} (fun _ c => c.shift s.now e) s.chans
    hs := { s.hs with goodLossAt := later e s.hs.goodLossAt }
    camp := { s.camp with reportAt := s.camp.reportAt.map (· + e) }
    hld := { s.hld with epochNext := later e s.hld.epochNext, rejHeld := s.hld.rejHeld.map fun g => (g.1, g.2 + e) }
    flt := { s.flt with srcs := tmap {} (fun _ x => x.shift e) s.flt.srcs, selfEnd := s.flt.selfEnd + e }
    wdg := s.wdg.shift e
    env := s.env.shift e
    bbx := s.bbx.shift e
    cas := (if s.sys.strap then s.cas else { s.cas with ports := tmap {} (fun _ q => q.later e) s.cas.ports }).shift e
    hmp := s.hmp.shift e
    mcp := s.mcp.shift e
    pmb := s.pmb.shift e
    jtag := s.jtag.shift e
    sec := { s.sec with tamperEnd := s.sec.tamperEnd + e }
    pwr := { s.pwr with hotEnd := s.pwr.hotEnd + e }
    gpio := { s.gpio with ports := tmap {} (fun _ p => p.shift e) s.gpio.ports }
    cnt := { s.cnt with tp := tmap {} (fun _ x => { x with endAt := later e x.endAt }) s.cnt.tp } }

/-! ## Ports (R401 to R403) -/

/-- The link island's cascade logic runs: from S3 on but not in HALT, main clock running or Winter. -/
def State.casAlive (s : State) : Bool :=
  (match s.sys.phase with | .s3 | .s4 | .s5 | .ready | .recovery => true | _ => false)
    && !s.sys.vauxDown && !s.islLost 17 && (s.sys.mainClock || s.pwr.rung == .winter)

/-- A cascade port. -/
def State.casPort (s : State) (p : Nat) : CasPort := tget {} s.cas.ports p

/-- The state with port `p` changed. -/
def State.modPortC (s : State) (p : Nat) (f : CasPort → CasPort) : State :=
  { s with cas := { s.cas with ports := tmod {} s.cas.ports p f } }

/-- Port `p` is present and UP. -/
def State.portUp (s : State) (p : Nat) : Bool :=
  s.casAlive && decide (p < nCasPort s.hw.variant) && (s.casPort p).link == .up

/-- The device has joined as a follower. -/
def State.joinedF (s : State) : Bool := !s.sys.strap && (s.cas.st == .joined || s.cas.st == .locked)

/-- A frame that has waited `w` ticks for its SOF: its timebase is that of the SOF (R406). -/
def CasFrame.aged (f : CasFrame) (w : Nat) : CasFrame :=
  match f with
  | .time v => .time (v + w)
  | .hello u v tb d x n ph ps r => .hello u v (tb + w) d x n ph ps r
  | f => f

/-- The frames of the waiting list go out while fewer than eight are unacknowledged. -/
def CasPort.pump (now : Nat) : Nat → CasPort → CasPort
  | 0, p => p
  | fuel + 1, p =>
    match p.waiting with
    | [] => p
    | w :: r => if p.unacked.length < 8 then CasPort.pump now fuel ({ p with waiting := r }.push (w.2.aged (now - w.1)) now) else p

/-- A port goes down (R401). One that was UP raises CAS_LINK and PORT_DOWN, and what lay beyond it is lost; one in training reads
DOWN. -/
def State.portDown (s : State) (p : Nat) : State :=
  if s.casAlive && decide (p < nCasPort s.hw.variant) && (s.casPort p).link == .training then s.modPortC p fun q => q.clear .down
  else if !s.portUp p then s
  else
    let s := (s.prior.modPortC p fun q => { q.clear .down with fell := true }).irqCas 2
    let s := if p = 0 then s.upLost else s.subtreeLost p
    let s := if s.active then s.report 1047 s.now else { s with sys := s.sys.deferSrc 1047 }
    (if s.active then s.settle s.now else s)

/-- 20 µs have passed since the port last sent or heard of its unacknowledged frames. -/
def execCasAckTimeout (p : Nat) (s : State) : Host.Outcome State Fault Refusal :=
  .next (if !(s.casPort p).unacked.isEmpty && decide ((s.casPort p).sentAt + 20 * tUs ≤ s.now) then s.portDown p else s)

/-- Symbol lock has been lost for 1 µs. -/
def execCasLockLoss (p : Nat) (s : State) : Host.Outcome State Fault Refusal := .next (s.portDown p)

/-- An ACK of frame `l`: it and the frames before it are released, waiting ones follow. -/
def CasPort.acked (q : CasPort) (l now : Nat) : CasPort :=
  match q.unacked.findIdx? fun u => decide (u.1 = l) with
  | none => q
  | some i =>
    ({ q with unacked := q.unacked.drop (i + 1), nakRow := 0, nakLast := none, sentAt := now }).pump now (q.waiting.length + 1)

/-- The 20 µs within which the ACK timeout wins over a control pair of the same stamp. -/
def CasPort.late (q : CasPort) (now : Nat) : Bool := !q.unacked.isEmpty && decide (q.sentAt + 20 * tUs ≤ now)

/-- An ACK arrives (R403). -/
def State.casAck (s : State) (p l : Nat) : State :=
  if !s.portUp p then s
  else if (s.casPort p).late s.now then s.portDown p
  else s.modPortC p fun q => q.acked l s.now

/-- An ACK arrives. -/
def execCasLinkAck (p lseq : Nat) (s : State) : Host.Outcome State Fault Refusal := .next (s.casAck p lseq)

/-- A NAK of frame `l`: the frames before it are released, and it and those after it are sent again (R403). -/
def CasPort.naked (q : CasPort) (i l now : Nat) : CasPort :=
  ({ q with unacked := q.unacked.drop i, sentAt := now
            nakRow := if q.nakLast = some l then q.nakRow + 1 else 1, nakLast := some l }).pump now (q.waiting.length + 1)

/-- A NAK arrives; the third in a row of one frame takes the port down (R401). -/
def State.casNak (s : State) (p l : Nat) : State :=
  if !s.portUp p then s
  else if (s.casPort p).late s.now then s.portDown p
  else
    match (s.casPort p).unacked.findIdx? fun u => decide (u.1 = l) with
    | none => s
    | some i =>
      let s := s.modPortC p fun q => q.naked i l s.now
      if 3 ≤ (s.casPort p).nakRow then s.portDown p else s

/-- A NAK arrives. -/
def execCasLinkNak (p lseq : Nat) (s : State) : Host.Outcome State Fault Refusal := .next (s.casNak p lseq)

/-- A partial frame is discarded 2 µs after its last byte (R404): an error of the port's throughput. -/
def execCasInterbyteTimeout (p : Nat) (s : State) : Host.Outcome State Fault Refusal :=
  .next (if s.portUp p then s.tpAdd (3 + p) 0 0 1 else s)

/-- A NAK is sent for frame `l`. -/
def CasPort.nakSent (q : CasPort) (l : Nat) : CasPort :=
  { q with nak := incTo 0xFF q.nak, ackOut := [(false, l)]
           rxNakRow := if q.rxNakLast = some l then q.rxNakRow + 1 else 1, rxNakLast := some l }

/-- A frame is discarded (R403, R406): `why` 0 bad LEN, 1 bad CRC, 2 abort, each NAKed; 3 an unknown type, counted only. ERR
counts CRC and type errors. A frame NAKed three times in a row takes the port down. -/
def State.frameBad (s : State) (p why l : Nat) : State :=
  if !s.portUp p then s
  else
    let s := s.tpAdd (3 + p) 0 0 1
    let s := if why = 1 ∨ why = 3 then s.modPortC p fun q => { q with err := incTo 0xFFFF q.err } else s
    if why = 3 then s
    else
      let s := s.modPortC p fun q => q.nakSent l
      if 3 ≤ (s.casPort p).rxNakRow then s.portDown p else s

/-- A frame that is not taken. -/
def execCasFrameInvalid (p : Nat) (why : BitVec 2) (lseq : Nat) (s : State) : Host.Outcome State Fault Refusal :=
  .next (s.frameBad p why.toNat lseq)

/-! ## Reception -/

/-- The type code of a frame (R406). -/
def CasFrame.code : CasFrame → Nat
  | .enum .. => 1
  | .hello .. => 2
  | .time .. => 3
  | .rail .. => 4
  | .sub .. => 5
  | .fault .. => 6
  | .state .. => 7
  | .dom .. => 8
  | .eqx .. => 9
  | .eqxRep .. => 10
  | .mgn .. => 11
  | .mgnRep .. => 12
  | .reset .. => 13
  | .lost .. => 14
  | .join .. => 15
  | .fwd _ f => f.code

/-- A priority frame (R406). -/
def CasFrame.pri : CasFrame → Bool
  | .time .. | .rail .. | .fault .. | .dom .. | .eqx .. | .mgn .. | .reset .. | .lost .. => true
  | .fwd _ f => f.pri
  | _ => false

/-- What a frame's payload says, in the order of R406. -/
def CasFrame.content : CasFrame → List Nat
  | .enum x d a => [x, d, a]
  | .hello u v tb w x d ph ps r => [u, v, tb, w, x, d, ph, ps, b2n r]
  | .time v => [v]
  | .rail _ r c => [r, c]
  | .sub _ r on => [r, b2n on]
  | .fault _ k v z tb => [k, v, b2n z, tb]
  | .state q => [q]
  | .dom on ph a => [b2n on, ph, a]
  | .eqx tb c => [tb, b2n c]
  | .eqxRep _ ok why => [b2n ok, why]
  | .mgn c tb a => [c, tb, b2n a]
  | .mgnRep _ n np nf r why => [n, np, nf, r, why]
  | .reset _ => []
  | .lost l => l
  | .join a => [a]
  | .fwd _ f => f.content

/-- The destination address of a frame that leaves through a port (R402): a named one, else the leader upward and every device
downward. -/
def CasFrame.dst (up : Bool) : CasFrame → Nat
  | .rail d _ _ => d
  | .sub d _ _ => d
  | .reset d => d
  | .fwd _ f => f.dst up
  | _ => if up then 0 else 0xFFF

/-- The origin address of a frame that a device of address `own` sends on. -/
def CasFrame.org (own : Nat) : CasFrame → Nat
  | .fault o _ _ _ _ => o
  | .eqxRep o _ _ => o
  | .mgnRep o _ _ _ _ _ => o
  | .fwd o _ => o
  | _ => own

/-- Payload bytes of a frame: those the manual gives (8 for TIME, 2 for each address of LOST, none for RESET), else free. -/
def CasFrame.len : CasFrame → Nat
  | .time _ => 8
  | .lost l => 2 * l.length
  | .reset _ => 0
  | .fwd _ f => f.len
  | f => Config.casLen f.code % 49

/-- The bytes of a frame between its K27.7 and its K29.7 (R402), as a device of address `own` sends it. -/
def CasFrame.bytes (f : CasFrame) (own lseq : Nat) (up : Bool) : List Byte :=
  let body := leBytes 1 (f.code + 64 * b2n f.pri + 128 * b2n up) ++ leBytes 1 lseq ++ leBytes 2 (f.dst up) ++ leBytes 2 (f.org own)
    ++ leBytes 1 f.len ++ leBytes 1 0 ++ (List.range f.len).map fun k => Config.casByte f.code f.content k
  body ++ leBytes 4 (crc32c body).toNat

/-- The byte after K28.3 in the link-control pair a port last sent (R403). -/
def CasPort.ctl (q : CasPort) : List Byte := q.ackOut.flatMap fun a => leBytes 1 ((if a.1 then 0 else 0x10) + a.2)

/-- The frames that stand sent and unacknowledged at port `p`, as they go over the wire. -/
def State.casWire (s : State) (p : Nat) : List (List Byte) :=
  (tget {} s.cas.ports p).unacked.map fun u => u.2.bytes s.cas.addr u.1 (decide (p = 0))

/-- A valid frame arrives on port `p` (R403, R527): it is ACKed and counted, and the rows of NAKs end; then it does `f`. A port
that is not UP takes nothing. -/
def State.rxFrame (s : State) (p l : Nat) (fr : CasFrame) (f : State → State) : State :=
  if !s.portUp p then s
  else f ((s.modPortC p fun q => { q with ackOut := [(true, l)], rxNakRow := 0, rxNakLast := none }).tpAdd (3 + p)
    (12 + fr.len) 1 0)

/-- A frame that the rungs with stopped clock only forward: in Summer and Autumn `act`, else the state as it is (R493). A REFUSED
device acts on nothing (R409). -/
def State.acts (s : State) (act : State → State) : State :=
  if s.rungOk && !(s.cas.st == .refused) then act s else s

/-- A device settles after what a frame did to it, where its engines run. -/
def State.settleIf (s : State) : State := if s.active then s.settle s.now else s

/-! ## Enumeration (R407 to R411, R414) -/

/-- The address the leader's table holds for a path of depth `d`. -/
def Cas.addrOf (c : Cas) (path d : Nat) : Option Nat := (c.devs.find? fun e => e.2.path = path && e.2.depth = d).map (·.1)

/-- The lowest address that is not in use (R407): one that no path of the table holds, else that of a device declared LOST; none where
4,096 devices have joined (R400). -/
def Cas.lowestFree (c : Cas) : Option Nat :=
  let l := (List.range 4096).filter (· ≠ 0)
  (l.find? fun a => !c.devs.any fun e => e.1 = a).or (l.find? fun a => (tget {} c.devs a).lost)

/-- The place of a path in a depth-first visit that takes ports in ascending order. -/
def dfsKey (path d : Nat) : Nat := (List.range 8).foldl (fun a i => 5 * a + if i < d then 1 + hopAt path i else 0) 0

/-- A place joins those still to be enumerated, depth first (R407). -/
def todoIns (path d : Nat) : List (Nat × Nat) → List (Nat × Nat)
  | [] => [(path, d)]
  | x :: r =>
    if x = (path, d) then x :: r
    else if dfsKey path d < dfsKey x.1 x.2 then (path, d) :: x :: r
    else x :: todoIns path d r

/-- A place where a device has been found is to be enumerated, unless it is, or its ENUM frame is out. -/
def Cas.found (c : Cas) (path d : Nat) : Cas :=
  let known := match c.addrOf path d with
    | some a => let x := tget {} c.devs a; x.joined && !x.lost
    | none => false
  if known || c.offer.any (fun o => decide (o.path = path ∧ o.depth = d)) then c else { c with todo := todoIns path d c.todo }

/-- With no ENUM frame unanswered the leader sends the next: with the address the table holds for the path, or the lowest that is not in
use (R407). Address 0, the leader's own, refuses the device: where none is left, or 8 hops deep (R400, R409, notes/assumptions/70). -/
def State.enumNext (s : State) : State :=
  match s.cas.todo with
  | [] => s
  | (path, d) :: r =>
    if s.cas.offer.isSome then s
    else
      let a := if 7 < d then 0 else (((s.cas.addrOf path d).filter (· ≠ 0)).or s.cas.lowestFree).getD 0
      { s with cas := { s.cas.out (1 + hopAt path 0) (.enum path d a) s.now with
          todo := r, offer := some { path := path, depth := d, addr := a, at_ := s.now } } }

/-- The down ports of a device that are UP, as a mask. -/
def State.portsUp (s : State) : Nat :=
  (List.range (nCasPort s.hw.variant - 1)).foldl (fun a k => a + b2n (s.portUp (k + 1)) * 2 ^ k) 0

/-- The device's own HELLO (R406, R414): its state names its place, its PHASE, its down ports that are UP, and whether it is refused. -/
def State.helloOf (s : State) (path depth : Nat) (refused : Bool) : CasFrame :=
  .hello s.sys.taken.uid s.hw.variant.code s.now s.cas.delay path depth (fld s.cas.cfg 1 3) s.portsUp refused

/-- A port comes UP (R401): a follower's up port reads LINKED, news of a down port goes to the leader in a HELLO, the leader
enumerates (R409, R410). An orphan delay that ends on the tick has made its request (R137). -/
def State.portRises (s : State) (p : Nat) : State :=
  let q := s.casPort p
  if !(s.casAlive && decide (p < nCasPort s.hw.variant) && !(s.sys.strap && decide (p = 0))
      && decide ((tget {} s.lt (p + 2)).mode = 0) && (q.link == .training || q.link == .down)) then s
  else if p = 0 then
    let s := (s.itemNow .orphan HS).modPortC p fun q => q.clear .up
    { s with cas := { s.cas with st := if s.cas.st = .down then .linked else s.cas.st, orphanEnd := none } }
  else
    let s := s.modPortC p fun q => q.clear .up
    if s.sys.strap then ({ s with cas := s.cas.found (p - 1) 1 }).enumNext
    else if s.joinedF then s.casUp (s.helloOf s.cas.path s.cas.depth false)
    else s

/-- A port comes UP. -/
def execCasPortUp (p : Nat) (s : State) : Host.Outcome State Fault Refusal := .next (s.portRises p)

/-- An ENUM frame for `path` (R407, R409): a device that has not joined, or whose path it is, takes the address or is refused, and
answers HELLO; one for a deeper path is passed on. A device that joins reports its SEQ, which the manual gives no occasion for (DESIGN
CHOICE, notes/assumptions/75). -/
def State.casEnumed (s : State) (path depth addr delay : Nat) : State :=
  let mine := s.cas.path = path && s.cas.depth = depth
  if s.joinedF && !mine then { s with cas := s.cas.out (1 + hopAt path s.cas.depth) (.enum path depth addr) s.now }
  else if !s.rungOk then s
  else if 7 < depth ∨ addr = 0 then
    let s := { s with cas := { s.cas with st := .refused } }
    s.casUp (s.helloOf path depth true)
  else
    let st := if s.joinedF then s.cas.st else .joined
    let irq := if s.joinedF then s.cas.irq else Irq.set s.cas.irq 0
    let s := { s with cas := { s.cas with st := st, addr := addr, path := path, depth := depth, delay := delay, irq := irq } }
    ((s.casUp (s.helloOf path depth false)).casUp (.state s.seqCode)).casSubs

/-- An ENUM frame arrives on the up port. -/
def execCasEnum (p lseq : Nat) (path : BitVec 16) (depth : Nat) (addr : BitVec 12) (delay : BitVec 8) (s : State) :
    Host.Outcome State Fault Refusal :=
  .next (if p = 0 ∧ s.sys.strap = false then
    s.rxFrame 0 lseq (.enum path.toNat depth addr.toNat) fun s =>
      s.casEnumed path.toNat depth addr.toNat delay.toNat
  else s)

/-- Down ports of a follower by its variant code; an unknown variant has none. -/
def downPorts (variant : Nat) : Nat := if variant = 1 then 4 else if variant = 2 then 1 else 0

/-- SUB frames to one device for every reference to it (R415). -/
def State.subsTo (s : State) (a : Nat) : State :=
  let joined := if s.sys.strap then s.cas.enumDone else s.joinedF
  if s.configured && joined then
    s.seq.remote.foldl (fun s e =>
      if e.2.valid && decide (e.2.addr = a) then s.casTo a (.sub a e.2.rail true) else s) s
  else s

/-- A device has joined, as another device hears of it: its LOST references go to UNKNOWN, and SUB is sent (R415, R428). -/
def State.hearJoin (s : State) (a : Nat) : State :=
  ({ s with seq := { s.seq with
      remote := tmap {} (fun _ r => if r.valid && decide (r.addr = a) && decide (r.state = 4) then { r with state := 0 } else r)
        s.seq.remote } }).subsTo a

/-- A HELLO of the device at a path has answered its ENUM frame; one that has found no answer for 10 ms, in which the whole tree is
enumerated (R411), is given up. -/
def Cas.answered (c : Cas) (path d now : Nat) : Cas :=
  { c with offer := c.offer.filter fun o => !decide (o.path = path ∧ o.depth = d) && decide (now < o.at_ + 10 * tMs) }

/-- The places below a device as its HELLO names them: where a port is UP one to enumerate, elsewhere none. -/
def Cas.foundBelow (c : Cas) (variant path depth ports : Nat) : Cas :=
  (List.range (downPorts variant)).foldl (fun c k =>
    let path' := path + k * 4 ^ depth
    if ports.testBit k then c.found path' (depth + 1) else c.forget path' (depth + 1)) c

/-- The leader takes a HELLO: a timebase ahead of its own steps it (R414); a refused device, or one that joins (R409), of which no STATE
is known yet; the subtree below the device is enumerated. -/
def State.leaderHello (s : State) (addr variant time delay path depth phase ports : Nat) (refused : Bool) : State :=
  let s := s.prior
  let s : State := { s with cas := s.cas.answered path depth s.now }
  let s := if s.now < time + delay then s.shift (time + 1000 - s.now) else s
  if refused then (s.irqCas 7).enumNext
  else
    let d := tget {} s.cas.devs addr
    let new := !d.joined || d.lost
    let devs := tset {} s.cas.devs addr
      { joined := true, lost := false, path := path, depth := depth, phase := phase, seq := if new then none else d.seq }
    let c := { s.cas with
      devs := devs, irq := if new then Irq.set s.cas.irq 0 else s.cas.irq
      nDev := if new then s.cas.nDev + 1 else s.cas.nDev, nLost := if d.lost then s.cas.nLost - 1 else s.cas.nLost }
    let s := { s with cas := c }
    let s := if new then (s.casDown (.join addr)).hearJoin addr else s
    ({ s with cas := s.cas.foundBelow variant path depth ports }).enumNext

/-- A HELLO arrives on a down port; a device on the way notes where the device lies and passes it on, its own link's delay added to the
path delay, or in Winter as it came (R493). -/
def execCasHello (p lseq : Nat) (addr : BitVec 12) (uid : BitVec 64) (variant : BitVec 4) (time : Nat) (delay : Nat)
    (path : BitVec 16) (depth : Nat) (state : HelloState) (refused : Bool) (s : State) :
    Host.Outcome State Fault Refusal :=
  .next (if p = 0 then s
  else
    let hello (d : Nat) : CasFrame :=
      .hello uid.toNat variant.toNat time d path.toNat depth state.phase.toNat state.ports.toNat refused
    s.rxFrame p lseq (hello delay) fun s =>
      if s.sys.strap then
        s.acts fun s => s.leaderHello addr.toNat variant.toNat time delay path.toNat depth state.phase.toNat state.ports.toNat refused
      else
        let devs := if refused then s.cas.devs
          else tset {} s.cas.devs addr.toNat { joined := true, path := path.toNat, depth := depth, phase := state.phase.toNat }
        ({ s with cas := { s.cas with devs := devs } }).casUp (.fwd addr.toNat (hello (if s.rungOk then delay + s.cas.delay else delay))))

/-! ## The timebase of the domain (R412, R413) -/

/-- The leader sends TIME every 1,000 ticks. An ENUM frame that has gone unanswered too long is given up then. -/
def State.timeSend (s : State) : State :=
  if s.sys.strap && s.casAlive && s.rungOk && decide (s.cas.timeSent + 1000 ≤ s.now) then
    let s := s.casDown (.time s.now)
    ({ s with cas := { s.cas.answered 0 0 s.now with timeSent := s.now } }).enumNext
  else s

/-- TIME is due. -/
def execCasTimeSend (s : State) : Host.Outcome State Fault Refusal := .next s.timeSend

/-- A joined follower's lock after an error `e`. -/
def Cas.lockOn (c : Cas) (e : Int) : Cas :=
  let good := if -2 ≤ e ∧ e ≤ 2 then c.goodTimes + 1 else 0
  let c := { c with goodTimes := min good 4 }
  if e < -8 ∨ 8 < e then c.setLock .joined
  else if 4 ≤ good then c.setLock .locked
  else c

/-- No TIME frame for 100 µs: the follower leaves LOCKED (R413). -/
def State.timeGone (s : State) : State :=
  if s.casAlive && s.cas.st == .locked && decide (s.cas.timeAt + 100 * tUs ≤ s.now) then
    ({ s with cas := { s.cas.setLock .joined with goodTimes := 0 } }).settleIf
  else s

/-- A TIME frame with value `v`, whose SOF came at tick `at_` of the own timebase. An absence that has lasted its 100 µs by this tick
has ended the lock first (R137). -/
def State.timeTaken (s : State) (v at_ : Nat) : State :=
  let s := s.timeGone
  let e : Int := (v : Int) - at_
  let s := if 64 < e then s.prior.shift e.toNat else s
  let c := { s.cas with tbErr := e, ahead := decide (e < -64), slew := if 64 < e then 0 else e, slewCnt := 0, timeAt := s.now }
  { s with cas := c.lockOn e }

/-- A TIME frame arrives on the up port: a joined follower measures its error, and the frame goes on with the link's delay
added, or in Winter as it came (R493). -/
def execCasTime (lseq value atSof : Nat) (s : State) : Host.Outcome State Fault Refusal :=
  .next (if s.sys.strap then s
  else
    s.rxFrame 0 lseq (.time value) fun s =>
      (s.acts fun s => if s.joinedF then (s.timeTaken value atSof).settleIf else s).casDown (.time (if s.rungOk then value + s.cas.delay else value)))

/-- TIME frames are absent. -/
def execCasTimeAbsence (s : State) : Host.Outcome State Fault Refusal := .next s.timeGone

/-! ## Remote rail states (R415 to R418) -/

/-- A RAIL frame's code taken by the references to that rail (R416, R161); LOST of the same stamp stays (R428). A reference that has the
code already keeps its stamp: it does not become what it is (DEDUCED, notes/assumptions/104). -/
def State.railTaken (s : State) (org rail code : Nat) : State :=
  let s := s.prior
  let hit (r : Remote) : Bool :=
    r.valid && decide (r.addr = org) && decide (r.rail = rail) && !decide (r.state = code)
      && !(decide (r.state = 4) && decide (r.stamp = s.now))
  let s := { s with seq := { s.seq with
    remote := tmap {} (fun _ r => if hit r then { r with state := code, stamp := s.now } else r) s.seq.remote } }
  if s.running then (s.graphPass s.now).settle s.now else s

/-- A frame from `org` to one device: this one does `act`, another one's goes on along the tree, away from the port it came by
(R405). -/
def State.toward (s : State) (p dst org : Nat) (f : CasFrame) (act : State → State) : State :=
  if dst = s.cas.addr then s.acts act
  else if s.cas.portTo s.sys.strap dst = some p then s
  else s.casTo dst (.fwd org f)

/-- A RAIL frame arrives. A code R160 does not define changes nothing. -/
def execCasRail (p lseq : Nat) (ends : FrameEnds) (rail : BitVec 8) (code : BitVec 3) (s : State) :
    Host.Outcome State Fault Refusal :=
  .next (let f := CasFrame.rail ends.dst.toNat rail.toNat code.toNat
    s.rxFrame p lseq f fun s =>
      s.toward p ends.dst.toNat ends.org.toNat f fun s => if code.toNat ≤ 4 then s.railTaken ends.org.toNat rail.toNat code.toNat else s)

/-- A CAS_PUB entry. -/
def pubWord (org rail : Nat) : Word := wpack [(0, 12, org), (12, 8, rail), (31, 1, 1)]

/-- A SUB frame for this device (R415): the entry is added or withdrawn, and a subscription is answered with RAIL. -/
def State.subTaken (s : State) (org rail : Nat) (on : Bool) : State :=
  let w := pubWord org rail
  let held := s.cas.pub.any fun e => e.2 = w
  let answer (s : State) := s.casTo org (.rail org rail (s.pubCode rail))
  if !on then
    { s with cas := { s.cas with pub := s.cas.pub.filter fun e => !decide (e.2 = w) } }
  else if held then answer s
  else
    match (List.range 256).find? fun k => tget 0 s.cas.pub k = 0 with
    | none => { s with cas := { s.cas with pubFull := true } }
    | some k => answer { s with cas := { s.cas with pub := tset 0 s.cas.pub k w } }

/-- A SUB frame arrives. -/
def execCasSub (p lseq : Nat) (ends : FrameEnds) (rail : BitVec 8) (subscribe : Bool) (s : State) :
    Host.Outcome State Fault Refusal :=
  .next (let f := CasFrame.sub ends.dst.toNat rail.toNat subscribe
    s.rxFrame p lseq f fun s => s.toward p ends.dst.toNat ends.org.toNat f fun s => s.subTaken ends.org.toNat rail.toNat subscribe)

/-- A LOST frame: references to the addresses become LOST. The leader declares the devices LOST and broadcasts it; another device
passes the frame on its way (R417). -/
def State.lostTaken (s : State) (p : Nat) (l : List Nat) : State :=
  if s.sys.strap then s.acts fun s => s.leaderLostAll l
  else
    let s := s.acts fun s => { s with
      seq := s.seq.lose (fun r => l.contains r.addr) s.now
      cas := { s.cas with devs := l.foldl (fun t a => tdel t a) s.cas.devs } }
    if p = 0 then s.casDown (.lost l) else s.casUp (.lost l)

/-- A LOST frame arrives. -/
def execCasLost (p lseq : Nat) (addrs : List (BitVec 12)) (s : State) : Host.Outcome State Fault Refusal :=
  .next (let l := addrs.map BitVec.toNat
    s.rxFrame p lseq (.lost l) fun s => s.lostTaken p l)

/-- A JOIN frame arrives on the up port. -/
def execCasJoin (lseq : Nat) (addr : BitVec 12) (s : State) : Host.Outcome State Fault Refusal :=
  .next (if s.sys.strap then s
  else s.rxFrame 0 lseq (.join addr.toNat) fun s => (s.acts fun s => s.hearJoin addr.toNat).casDown (.join addr.toNat))

/-- The orphan delay ends (R418): with ORPHAN = OFF its off request, else nothing. -/
def State.orphanRow (s : State) : State :=
  let s := s.rowEnds .orphan HS
  if !s.orphanOff && (dueAt s.cas.orphanEnd s.now).isSome then { s with cas := { s.cas with orphanEnd := none } } else s

/-- The orphan delay ends. -/
def execOrphanDelayExpiry (s : State) : Host.Outcome State Fault Refusal := .next s.orphanRow

/-! ## Domain sequencing (R419 to R421) -/

/-- A DOM frame: in the rungs that run it schedules the act, in Winter a DOM on frame that includes the device wakes it (R493). -/
def State.domTaken (s : State) (on : Bool) (phase act : Nat) : State :=
  let mine := s.joinedF && (if on then wbit s.cas.cfg 0 else decide (fld s.cas.cfg 1 3 = phase))
  if !mine then s
  else if s.rungOk then { s with cas := { s.cas with domActs := s.cas.domActs ++ [(on, act)] } }
  else if on then s.wakeEvent 3
  else s

/-- A DOM frame arrives on the up port. -/
def execCasDom (lseq : Nat) (on : Bool) (phase : BitVec 3) (actTick : Nat) (s : State) : Host.Outcome State Fault Refusal :=
  .next (if s.sys.strap then s
  else
    s.rxFrame 0 lseq (.dom on phase.toNat actTick) fun s =>
      (s.domTaken on phase.toNat actTick).casDown (.dom on phase.toNat actTick))

/-- An act tick is reached: off requests first (R428, R154). -/
def execDomAct (s : State) : Host.Outcome State Fault Refusal :=
  .next ((s.rowEnds .domOff HS).rowEnds .domOn HS)

/-- A phase times out PHASE_TO × 10 ms after its act tick: the devices still waited for are skipped, the lowest is named the first
time, and the next phase begins (R421). It acts once its tick is over: a last report of that tick counts (R428). -/
def State.domTimeout (s : State) : State :=
  match s.cas.domPhase with
  | none => s
  | some d =>
    if s.rungOk && s.ctrlUp && decide (d.act + fld s.cas.cfg 16 8 * 10 * tMs < s.now) then
      let low := d.waiting.foldl min (d.waiting.headD 0)
      let c := { s.cas with
        nSkip := s.cas.nSkip + d.waiting.length
        domTo := if wbit s.cas.domTo 31 then s.cas.domTo else wpack [(0, 12, low), (31, 1, 1)] }
      if d.phase = 0 then { s with cas := { c with domPhase := none, domBusy := false, irq := Irq.set c.irq 4 } }
      else State.domBegin 8 (d.phase - 1) { s with cas := { c with domPhase := none } }
    else s

/-- The phase times out. -/
def execDomPhaseTimeout (s : State) : Host.Outcome State Fault Refusal := .next s.domTimeout

/-- A STATE frame: the leader takes the device's SEQ, and a device that is OFF leaves the phase in progress, uncounted even where it was
declared LOST on the same tick (R428); others pass it on. -/
def State.stateTaken (s : State) (org seq : Nat) : State :=
  if s.sys.strap then
    s.acts fun s =>
      let s := s.domTimeout
      let skipped := seq = 0 ∧ (tget {} s.cas.devs org).skipAt = some s.now
      let s := { s with cas := { s.cas with
        devs := tmod {} s.cas.devs org fun d => { d with seq := some seq, skipAt := none }
        nSkip := if skipped then s.cas.nSkip - 1 else s.cas.nSkip } }
      if seq = 0 then s.domLeave org false else s
  else s.casUp (.fwd org (.state seq))

/-- A STATE frame arrives on a down port. -/
def execCasState (p lseq : Nat) (org : BitVec 12) (seq : BitVec 3) (s : State) : Host.Outcome State Fault Refusal :=
  .next (if p = 0 then s else s.rxFrame p lseq (.state seq.toNat) fun s => s.stateTaken org.toNat seq.toNat)

/-- CAS_DOM_CTRL written with ON or OFF, by a session of level `l` (R420, R421). -/
def State.domCtl (s : State) (l : Level) (on off : Bool) : State :=
  let code (c : Nat) := { s with cas := { s.cas with domCode := c } }
  if !on && !off then s
  else if !l.ge .operator then code 1
  else if !s.sys.strap then code 2
  else if s.cas.domBusy then code 3
  else if on && off then code 4
  else if on then
    let s := s.casDown (.dom true 0 (s.now + 500))
    { s with cas := { s.cas with domCode := 0, domOff := false, domActs := s.cas.domActs ++ [(true, s.now + 500)] } }
  else
    let top := s.cas.devs.foldl (fun m e => if e.2.joined && !e.2.lost then max m e.2.phase else m) (fld s.cas.cfg 1 3)
    State.domBegin 8 top { s with cas := { s.cas with domCode := 0, domBusy := true, domOff := true, nSkip := 0, domTo := 0 } }

/-- CAS_DOM_CTRL.ON is written. -/
def execCasDomOn (s : State) : Host.Outcome State Fault Refusal := .next (s.byHost 0x90050 .user fun l => s.domCtl l true false)

/-- CAS_DOM_CTRL.OFF is written. -/
def execCasDomOff (s : State) : Host.Outcome State Fault Refusal := .next (s.byHost 0x90050 .user fun l => s.domCtl l false true)

/-! ## Faults across the tree (R423) -/

/-- A FAULT frame: recorded, a safe-state report raises CAS_REMOTE, and it goes on toward the leader. -/
def State.faultTaken (s : State) (org src level : Nat) (safe : Bool) (stamp : Nat) : State :=
  let s := s.acts fun s =>
    let c := { s.cas with
      rfault := wpack [(0, 12, org), (12, 11, src), (23, 2, level), (25, 1, b2n safe), (31, 1, 1)], rfaultTs := stamp % 2 ^ 32
      irq := if safe then Irq.set s.cas.irq 3 else s.cas.irq }
    let s := { s with cas := c }
    if safe then s.raiseOrDefer 1048 else s
  s.casUp (.fault org src level safe stamp)

/-- A FAULT frame arrives on a down port. -/
def execCasFault (p lseq : Nat) (org : BitVec 12) (src : BitVec 11) (level : BitVec 2) (safe : Bool) (stamp : BitVec 64)
    (s : State) : Host.Outcome State Fault Refusal :=
  .next (if p = 0 then s
  else
    s.rxFrame p lseq (.fault org.toNat src.toNat level.toNat safe stamp.toNat) fun s =>
      s.faultTaken org.toNat src.toNat level.toNat safe stamp.toNat)

/-! ## Equinox snapshots and campaigns (R424 to R426, R205 to R209) -/

/-- An equinox view is taken up: a local request pending is dropped, and a capture is set for the named tick (R425, R428). -/
def State.eqxView (s : State) (t : Nat) (cnt : Bool) : State := s.dropView.viewAccept t cnt true

/-- An EQX frame on a follower (R425, R493): one that has not joined by the capture tick is not LOCKED then. A refused device answers
nothing (R409). -/
def State.eqxTaken (s : State) (t : Nat) (cnt : Bool) : State :=
  if s.cas.st == .refused then s
  else if !s.rungOk then s.eqxReply false 2
  else if t < s.now then s.eqxReply false 3
  else s.eqxView t cnt

/-- An EQX frame arrives on the up port. -/
def execCasEqx (lseq capTick : Nat) (cnt : Bool) (s : State) : Host.Outcome State Fault Refusal :=
  .next (if s.sys.strap then s
  else s.rxFrame 0 lseq (.eqx capTick cnt) fun s => (s.eqxTaken capTick cnt).casDown (.eqx capTick cnt))

/-- An EQX_REP frame arrives on a down port: the leader counts it. -/
def execCasEqxRep (p lseq : Nat) (org : BitVec 12) (ok : Bool) (why : BitVec 4) (s : State) :
    Host.Outcome State Fault Refusal :=
  .next (if p = 0 then s
  else
    s.rxFrame p lseq (.eqxRep org.toNat ok why.toNat) fun s =>
      if s.sys.strap then s.acts fun s => { s with cas := s.cas.eqxCount org.toNat ok why.toNat }
      else s.casUp (.eqxRep org.toNat ok why.toNat))

/-- CAS_EQX_CTRL.GO by a session of level `l` (R424). -/
def State.eqxGo (s : State) (l : Level) (cnt : Bool) : State :=
  let code (c : Nat) := { s with cas := { s.cas with eqxCode := c } }
  if !l.ge .operator then code 5
  else if !s.sys.strap then code 4
  else if s.cas.eqxBusy then code 1
  else if s.cas.eqxAt < s.now + 500 then code 2
  else if s.now + 0x1000000 < s.cas.eqxAt then code 3
  else
    let t := s.cas.eqxAt
    let c := { s.cas with eqxCode := 0, eqxBusy := true, eqxDone := false, nOk := 0, nMiss := 0, eqxCounted := [], eqxMiss := 0 }
    (({ s with cas := c }).casDown (.eqx t cnt)).eqxView t cnt

/-- CAS_EQX_CTRL.GO is written. -/
def execCasEqxGo (cnt : Bool) (s : State) : Host.Outcome State Fault Refusal :=
  .next (s.byHost 0x90060 .user fun l => s.eqxGo l cnt)

/-- An MGN frame arrives on the up port: the corner waits for its tick (R206). A corner the register does not define is passed on
without effect (notes/assumptions/21). -/
def execCasMgn (lseq : Nat) (corner : BitVec 2) (tick : Nat) (abort : Bool) (s : State) : Host.Outcome State Fault Refusal :=
  .next (if s.sys.strap then s
  else
    s.rxFrame 0 lseq (.mgn corner.toNat tick abort) fun s =>
      (s.acts fun s => if s.joinedF && decide (corner.toNat ≠ 3) then
          { s with camp := { s.camp with pendAt := s.camp.pendAt ++ [(tick, corner.toNat)] } } else s).casDown (.mgn corner.toNat tick abort))

/-- An MGN_REP frame arrives on a down port: the leader counts it (R208, R209). -/
def execCasMgnRep (p lseq : Nat) (org : BitVec 12) (nmember npass nfail : BitVec 8) (rail : BitVec 8) (why : BitVec 4)
    (s : State) : Host.Outcome State Fault Refusal :=
  .next (if p = 0 then s
  else
    s.rxFrame p lseq (.mgnRep org.toNat nmember.toNat npass.toNat nfail.toNat rail.toNat why.toNat) fun s =>
      if s.sys.strap then s.acts fun s => s.campCount org.toNat (decide (nfail.toNat ≠ 0)) rail.toNat why.toNat s.now
      else s.casUp (.mgnRep org.toNat nmember.toNat npass.toNat nfail.toNat rail.toNat why.toNat))

/-! ## RESET (R427) -/

/-- A RESET frame: the target performs an orderly reset with cause CAS, in Winter too (R493), on 0xFFF every follower but a refused one
(R409, R427); the frame goes on to what it names below. -/
def State.resetTaken (s : State) (dst : Nat) : State :=
  let all := dst = 0xFFF
  let own := s.joinedF && decide (dst = s.cas.addr)
  let s := if all then s.casDown (.reset dst)
    else if !own && (tget {} s.cas.devs dst).joined then s.casTo dst (.reset dst) else s
  if (all && !(s.cas.st == .refused)) || own then s.orderly 32 else s

/-- A RESET frame arrives on the up port. -/
def execCasReset (lseq : Nat) (dst : BitVec 12) (s : State) : Host.Outcome State Fault Refusal :=
  .next (if s.sys.strap then s else s.rxFrame 0 lseq (.reset dst.toNat) fun s => s.resetTaken dst.toNat)

/-- CAS_CTRL.RESET for `t` by a session of level `l`. -/
def State.casCtl (s : State) (l : Level) (t : Nat) : State :=
  let code (c : Nat) := { s with cas := { s.cas with ctrlCode := c } }
  let d := tget {} s.cas.devs t
  if !l.ge .owner then code 1
  else if !s.sys.strap then code 2
  else if t ≠ 0xFFF ∧ !(d.joined && !d.lost) then code 3
  else
    let s := { s with cas := { s.cas with ctrlCode := 0 } }
    if t = 0xFFF then s.casDown (.reset t) else s.casTo t (.reset t)

/-- CAS_CTRL.RESET is written. -/
def execCasCtrlReset (target : BitVec 12) (s : State) : Host.Outcome State Fault Refusal :=
  .next (s.byHost 0x90040 .user fun l => s.casCtl l target.toNat)

end Sys2Proof.Machine
end

