-- ==== Sys2Proof/Machine/Registers.lean ====
section
/-! DEFINITION. What a write of a word to any register does (R10, and the register tables of each chapter), the outcome field a
write records (R440), reads that have an effect (R13, R165, R305), and the link test (R463, R464). The commands of the table that
name a register write do what such a write does. -/

namespace Sys2Proof.Machine

/-! ## Link test (R463, R464) -/

/-- A cascade port may train: not a leader's up port, nor a down port whose DN_EN bit is 0 (R398, R399). -/
def State.portEnabled (s : State) (p : Nat) : Bool :=
  if p = 0 then !s.sys.strap else decide (p < nCasPort s.hw.variant) && wbit s.cas.cfg (7 + p)

/-- The conditions of a test mode on target `t`; a cascade port that comes UP on the tick does not meet them (R465). -/
def State.ltMay (s : State) (t : Nat) : Bool :=
  if t < 2 then s.sec.dbg == .factory || (s.hld.entries.isEmpty && s.hld.cause.host)
  else
    ((s.casPort (t - 2)).link == .disabled || (s.casPort (t - 2)).link == .down)
      && !s.thisTick.any fun i => match i with | .casPortUp p => decide (p = t - 2) | _ => false

/-- A lane that goes into test leaves service; with the last one the link goes down, and MCP_LINK is not raised. -/
def State.laneTest (s : State) (lane : Nat) : State :=
  if !s.mcp.lanes.testBit lane then s
  else
    let left := s.mcp.lanes - 2 ^ lane
    if left = 0 then (s.mcpGone 1 s.now true).settle s.now
    else
      let m := { s.mcp with lanes := left, irq := Irq.set s.mcp.irq 2 }
      { s with mcp := { m with link := if m.up then linkOf s.hw.variant left else m.link } }

/-- A target goes into a test mode, or back to training. -/
def State.ltMove (s : State) (t : Nat) (off : Bool) : State :=
  if t < 2 then (if off then s else s.laneTest t)
  else
    let p := t - 2
    s.modPortC p fun q => q.clear (if !off then .down else if s.portEnabled p then .training else .disabled)

/-- A link-test target changed. -/
def State.modLt (s : State) (t : Nat) (f : Lt → Lt) : State := { s with lt := tmod {} s.lt t f }

/-- MODE and POLY of a target become `mode`, `poly`; a change of the pattern or of the mode unlocks the checker. -/
def State.ltMode (s : State) (t mode poly : Nat) : State :=
  let old := tget {} s.lt t
  let s := s.modLt t fun x =>
    let same := decide (x.mode = mode ∧ x.poly = poly)
    { x with
      mode := mode, poly := poly, code := 0, lock := x.lock && same
      inj := if x.mode = mode then x.inj else 0, recent := if same then x.recent else [] }
  if (old.mode = 0) = (mode = 0) then s else s.ltMove t (decide (mode = 0))

/-- INJ inverts one bit of what the target sends: it is known to the target's own checker in NEAR (R464). -/
def Lt.inject (x : Lt) (now : Nat) : Lt :=
  { x with inj := if x.mode = 2 then x.inj + 1 else x.inj, injAt := (now, if x.injAt.1 = now then x.injAt.2 + 1 else 1) }

/-- LNK_LT_CTRL[t] is written by a session of level `l` (R463). MODE = OFF needs no condition. -/
def State.ltWrite (s : State) (l : Level) (t mode poly : Nat) (inj clr : Bool) : State :=
  let code (c : Nat) := s.modLt t fun x => { x with code := c }
  if !l.ge .owner then code 1
  else if !ltPresent s.hw.variant t then code 3
  else if mode ≠ 0 ∧ !s.ltMay t then code 2
  else
    (s.ltMode t mode poly).modLt t fun x =>
      let x := if inj && decide (x.mode ≠ 0) then x.inject s.now else x
      if clr then { x with errs := 0, bits := 0 } else x

/-- Address of LNK_LT_CTRL[t]. -/
def ltReg (t : Nat) : Nat := 0xA0080 + 0x10 * t

/-- MODE = OFF is written. -/
def execLtModeOff (t : Nat) (s : State) : Host.Outcome State Fault Refusal :=
  .next (s.byHost (ltReg t) .user fun l => s.ltWrite l t 0 (tget {} s.lt t).poly false false)
/-- MODE = PRBS is written. -/
def execLtModePrbs (t : Nat) (poly : BitVec 2) (s : State) : Host.Outcome State Fault Refusal :=
  .next (s.byHost (ltReg t) .user fun l => s.ltWrite l t 1 poly.toNat false false)
/-- MODE = NEAR is written. -/
def execLtModeNear (t : Nat) (s : State) : Host.Outcome State Fault Refusal :=
  .next (s.byHost (ltReg t) .user fun l => s.ltWrite l t 2 (tget {} s.lt t).poly false false)
/-- MODE = FAR is written. -/
def execLtModeFar (t : Nat) (s : State) : Host.Outcome State Fault Refusal :=
  .next (s.byHost (ltReg t) .user fun l => s.ltWrite l t 3 (tget {} s.lt t).poly false false)
/-- INJ is written with the mode as it is. -/
def execLtInj (t : Nat) (s : State) : Host.Outcome State Fault Refusal :=
  .next (s.byHost (ltReg t) .user fun l => s.ltWrite l t (tget {} s.lt t).mode (tget {} s.lt t).poly true false)
/-- CLR is written with the mode as it is. -/
def execLtClr (t : Nat) (s : State) : Host.Outcome State Fault Refusal :=
  .next (s.byHost (ltReg t) .user fun l => s.ltWrite l t (tget {} s.lt t).mode (tget {} s.lt t).poly false true)

/-- The findings, latest first, that lie within the last `b` bits, each a window of bits with its errors. -/
def ltWithin (b : Nat) : List (Nat × Nat) → List (Nat × Nat)
  | [] => []
  | e :: r => if e.1 ≤ b then e :: ltWithin (b - e.1) r else []

/-- What a checker finds: a run of error-free bits, and errors within a window of bits, those of bits that the target inverted for its
own checker among them. An unlocked one locks after 1,024 error-free bits; a locked one counts bits and errors, and loses lock on 16
errors within 1,024 bits, over several findings where these lie within them (R464). FAR checks nothing. -/
def Lt.checked (x : Lt) (good errors window : Nat) : Lt :=
  let errors := errors + x.inj
  let recent := ltWithin 1024 ((window, errors) :: x.recent)
  if !(decide (x.mode = 1) || decide (x.mode = 2)) then x
  else if !x.lock then { x with lock := decide (1024 ≤ good), inj := 0, recent := [] }
  else
    { x with errs := addTo 0xFFFFFFFF x.errs errors, bits := addTo (0xFFFFFFFF * 2 ^ 20) x.bits window, inj := 0
             recent := recent, lock := !decide (16 ≤ (recent.map (·.2)).foldl (· + ·) 0) }

/-- A checker's finding; a locked one that counts an error sets LT_ERR. -/
def State.ltCheck (s : State) (t good errors window : Nat) : State :=
  let x := tget {} s.lt t
  let s1 := s.modLt t fun x => x.checked good errors window
  if x.lock && (decide (x.mode = 1) || decide (x.mode = 2)) && decide (errors + x.inj ≠ 0) then s1.irqLnk 7 else s1

/-- The checker of target `t` locks or loses lock. -/
def execLtCheckerLock (t goodRun errors window : Nat) (s : State) : Host.Outcome State Fault Refusal :=
  .next (if ltPresent s.hw.variant t then s.ltCheck t goodRun errors window else s)

/-! ## Register writes (R10) -/

/-- A W1C word after a write. -/
def w1c (x w : Word) : Word := x &&& ~~~ w

/-- A number with its 32-bit word `k` replaced. -/
def putWord (n k : Nat) (w : Word) : Nat := n % 2 ^ (32 * k) + w.toNat * 2 ^ (32 * k) + n / 2 ^ (32 * (k + 1)) * 2 ^ (32 * (k + 1))

/-- A 64-bit quantity with its low or high word replaced, by the offset from its _LO. -/
def putPair (n ofs : Nat) (w : Word) : Nat := putWord n (ofs / 4 % 2) w

/-- SYS block. -/
def State.putSys (s : State) (l : Level) (o : Nat) (w : Word) : State :=
  match o with
  | 0x020 => if wbit w 0 then s.viewGo (wbit w 1) (wbit w 2) else s
  | 0x024 | 0x028 => { s with sys := { s.sys with viewAt := putPair s.sys.viewAt (o - 0x024) w } }
  | 0x050 => { s with sys := { s.sys with irq := s.sys.irq.w1c w } }
  | 0x054 => { s with sys := { s.sys with irqEn := w &&& 0xF#32 } }
  | 0x060 => { s with sys := { s.sys with rstCause := (w1c (w32 s.sys.rstCause) w).toNat } }
  | 0x064 => if wbit w 0 then s.softReq l (fld w 16 16) else s
  | _ => s

/-- PWR block. -/
def State.putPwr (s : State) (l : Level) (o : Nat) (w : Word) : State :=
  let p := s.pwr
  match o with
  | 0x004 =>
    if wbit w 2 then
      s.pwrReq (match fld w 0 2 with | 0 => .summer | 1 => .autumn | 2 => .winter | _ => .midwinter) l
    else s
  | 0x020 => { s with pwr := { p with irq := p.irq.w1c w } }
  | 0x024 => { s with pwr := { p with irqEn := w &&& 0x7#32 } }
  | _ => s

/-- SEQ block. -/
def State.putSeq (s : State) (l : Level) (o : Nat) (w : Word) : State :=
  let q := s.seq
  match o with
  | 0x000 => s.seqCtl l (wbit w 0) (wbit w 1)
  | 0x050 => { s with seq := { q with irq := q.irq.w1c w } }
  | 0x054 => { s with seq := { q with irqEn := w &&& 0xFF#32 } }
  | 0x068 => if wbit w 31 then s.tlogClr else s
  | 0x0B0 => s.springCtl l (wbit w 0)
  | 0x0B8 => { s with seq := { q with springIrq := q.springIrq.w1c w } }
  | 0x0BC => { s with seq := { q with springIrqEn := w &&& 0x3#32 } }
  | _ => s

/-- CH_MGN_CTRL; a CMD that the mode does not accept, one the register does not define among them, is refused with MODE (R185). -/
def State.putMgn (s : State) (n : Nat) (l : Level) (w : Word) : State :=
  match fld w 0 3 with
  | 0 => s.mgnReq n 0 0 0 l
  | 1 => s.mgnReq n 1 ((s.chan n).corner 1) 0 l
  | 2 => s.mgnReq n 2 ((s.chan n).corner 2) 0 l
  | 3 => s.mgnReq n 3 (sgn 8 (fld w 8 8)) 0 l
  | 4 => s.mgnReq n 4 0 (sgn 10 (fld w 16 10)) l
  | k => s.mgnReq n k 0 0 l

/-- The registers of channel `n`, CH_LOCK aside. CH_MGN_CFG and CH_MGN_TGT are locked with the thresholds (R189). -/
def State.putChan (s : State) (n : Nat) (l : Level) (o : Nat) (w : Word) : State :=
  let modCh (f : ChCfg → ChCfg) := s.modChan n fun c => if c.sense.locked then c else { c with ch := f c.ch }
  match o with
  | 0x004 | 0x008 | 0x00C | 0x010 | 0x014 | 0x018 => s.stageThr n ((o - 4) / 4) w
  | 0x020 =>
    let s := if wbit w 0 then s.chApplyServo n else s
    if wbit w 1 then s.chDiscard n else s
  | 0x044 => s.modChan n fun c => { c with sense := { c.sense with irq := c.sense.irq.w1c w } }
  | 0x048 => s.modChan n fun c => { c with sense := { c.sense with irqEn := w &&& 0x7F#32 } }
  | 0x080 => modCh fun c => { c with mgnCfg := w &&& 0x00FFFFF7#32 }
  | 0x084 => modCh fun c => { c with mgnTgt := w &&& 0x01FFFFFF#32 }
  | 0x088 => s.putMgn n l w
  | 0x098 =>
    let s := if wbit w 0 then s.prbReq n l else s
    if wbit w 1 then s.prbReset n l else s
  | 0x0B8 => s.modChan n fun c => { c with mgn := { c.mgn with irq := c.mgn.irq.w1c w } }
  | 0x0BC => s.modChan n fun c => { c with mgn := { c.mgn with irqEn := w &&& 0x3F#32 } }
  | _ => s

/-- CH block: channels, HVS_STAT, the campaign. -/
def State.putCh (s : State) (l : Level) (o : Nat) (w : Word) : State :=
  if o < 0x8000 then
    let n := o / 0x100
    if !s.inUse n then s
    else if o % 0x100 = 0x024 then s.chLock n (fld w 0 16)
    else (s.chTouch n).putChan n l (o % 0x100) w
  else
    match o with
    | 0x8140 => { s with hs := { s.hs with hvsStat := s.hs.hvsStat.w1c w } }
    | 0x8200 => if wbit w 0 then s.campGo (fld w 1 2) (wbit w 3) else s
    | 0x8204 | 0x8208 => { s with camp := { s.camp with at_ := putPair s.camp.at_ (o - 0x8204) w } }
    | _ => s

/-- FLT block. -/
def State.putFlt (s : State) (l : Level) (o : Nat) (w : Word) : State :=
  let f := s.flt
  match o with
  | 0x004 => s.fltCmd l (wbit w 12) (wbit w 13) (wbit w 14) (wbit w 15) (fld w 0 11)
  | 0x040 => s.privClear (fld w 0 5)
  | 0x050 => { s with flt := { f with irq := f.irq.w1c w } }
  | 0x054 => { s with flt := { f with irqEn := w &&& 0x1FF#32 } }
  | 0x068 => if wbit w 31 then s.flogClr else s
  | 0x070 => if wbit w 12 then s.inject (fld w 0 11) (wbit w 13) else s
  | _ => s

/-- WDG block. -/
def State.putWdg (s : State) (l : Level) (o : Nat) (w : Word) : State :=
  let x := s.wdg
  match o with
  | 0x004 => s.wdgNext l (fld w 0 13)
  | 0x008 => if wbit w 0 then s.wdgStart l else s
  | 0x014 => s.wdgAns (fld w 16 3) (fld w 0 16)
  | 0x018 => s.wdgSvc (fld w 0 16)
  | 0x01C => s.wdgKey (fld w 0 16)
  | 0x050 => { s with wdg := { x with irq := x.irq.w1c w } }
  | 0x054 => { s with wdg := { x with irqEn := w &&& 0xF#32 } }
  | _ => s

/-- The registers of GPIO port `p`. -/
def State.putPort (s : State) (p o : Nat) (w : Word) : State :=
  let v := fld w 0 16
  match o with
  | 0x04 => s.modPort p fun x => { x with out := mixBits (s.portMask p) x.out v }
  | 0x08 => (s.outBits p v true).outReplay
  | 0x0C => (s.outBits p v false).outReplay
  | 0x10 => s.gpioDir p v
  | 0x14 => s.modPort p fun x => { x with od := mixBits (lessBits (s.portMask p) x.locked) x.od v }
  | 0x18 => s.gpioPull p w.toNat
  | 0x20 => s.gpioLock p (fld w 16 16) v
  | _ => s

/-- GPIO_INT_SEL[k]: a PORT that names an absent port reads back 0x3 (R513). -/
def State.putSel (s : State) (k : Nat) (w : Word) : State :=
  let w := w &&& 0x1F#32
  let w := if nGpio s.hw.variant ≤ fld w 0 2 then w ||| 0x3#32 else w
  { s with gpio := { s.gpio with sel := tset 0x3#32 s.gpio.sel k w } }

/-- GPIO block. -/
def State.putGpio (s : State) (o : Nat) (w : Word) : State :=
  let g := s.gpio
  if o < 0x0C0 then (if o / 0x40 < nGpio s.hw.variant then s.putPort (o / 0x40) (o % 0x40) w else s)
  else if 0x140 ≤ o ∧ o < 0x160 then s.mirSel ((o - 0x140) / 4) w
  else if 0x180 ≤ o ∧ o < 0x1C0 then s.putSel ((o - 0x180) / 4) w
  else
    match o with
    | 0x104 => s.gpioPen (fld w 0 16)
    | 0x108 => { s with gpio := { g with wakePol := mixBits (lessBits 0xFF (s.port 0).locked) g.wakePol (fld w 0 8) } }
    | 0x110 => { s with gpio := { g with irq := g.irq.w1c w } }
    | 0x114 => { s with gpio := { g with irqEn := w &&& 0x3FF#32 } }
    | 0x118 => { s with gpio := { g with intStat := g.intStat.w1c w } }
    | 0x11C => { s with gpio := { g with intEn := fld w 0 16 } }
    | _ => s

/-- CNT_LEAF_EV of leaf `k`. -/
def State.putLeafEv (s : State) (k : Nat) (w : Word) : State :=
  if s.inUse (k / 8) then
    { s with cnt := { s.cnt with pre := tset false s.cnt.pre k (wbit w 16)
                                 ovf := if wbit w 18 then s.cnt.ovfClear k else s.cnt.ovf } }
  else s

/-- CNT block. -/
def State.putCnt (s : State) (o : Nat) (w : Word) : State :=
  let c := s.cnt
  if 0x1000 ≤ o ∧ o < 0x3000 then
    let k := (o - 0x1000) / 8
    if nCh s.hw.variant ≤ k / 8 then s else if o % 8 = 0 then s.leafLo w else s.leafHi k w
  else if 0x6000 ≤ o ∧ o < 0x7000 then s.putLeafEv ((o - 0x6000) / 4) w
  else if 0x480 ≤ o ∧ o < 0x500 then
    { s with cnt := { c with ovf := (List.range 32).foldl (fun t j =>
        if wbit w j && !(c.ovfNow.any fun e => decide (e.1 = 8 * (o - 0x480) + j)) then tset false t (8 * (o - 0x480) + j) false else t) c.ovf } }
  else
    match o with
    | 0x000 => s.cntCtrl w
    | 0x008 => { s with cnt := { c with userEn := wbit w 0 } }
    | 0x010 | 0x014 => { s with cnt := { c with preload := putPair c.preload (o - 0x010) w % 2 ^ 48 } }
    | 0x020 => { s with cnt := { c with irq := c.irq.w1c w } }
    | 0x024 => { s with cnt := { c with irqEn := w &&& 0x7#32 } }
    | _ => s

/-- HLD block. A write of HLD_CTRL with no bit set requests nothing. -/
def State.putHld (s : State) (l : Level) (o : Nat) (w : Word) : State :=
  let h := s.hld
  match o with
  | 0x040 => if wbit w 0 || wbit w 1 || wbit w 2 then s.hldCtl l (wbit w 0) (wbit w 1) (wbit w 2) else s
  | 0x080 => { s with hld := { h with irq := h.irq.w1c w } }
  | 0x084 => { s with hld := { h with irqEn := w &&& 0x7F#32 } }
  | _ => s

/-- SEC_LC_CTRL; an OP that names no operation has no effect. -/
def State.putLc (s : State) (l : Level) (w : Word) : State :=
  let go (o : LcReq) := s.lcReq o l (fld w 16 16) (fld w 9 2) (wbit w 11)
  match fld w 0 4 with
  | 1 => go .prov | 2 => go .depl | 3 => go .ret | 4 => go .retire | 8 => go .root | 9 => go .arb | 10 => go .wdg
  | _ => s

/-- SEC_KEY_CMD (R474). -/
def State.putKey (s : State) (l : Level) (w : Word) : State :=
  let i := fld w 16 8
  match fld w 0 3 with
  | 1 => s.skeyInstall l (fld w 8 2)
  | 2 => s.pairInstall l
  | 3 => s.ckeyInstall l i
  | 4 => s.ckeyErase l i
  | 5 => s.holdRestore l i
  | _ => if l.ge .owner then s.keyRefuse 7 else s.keyRefuse 1

/-- SEC block. -/
def State.putSec (s : State) (l : Level) (o : Nat) (w : Word) : State :=
  let c := s.sec
  if 0x040 ≤ o ∧ o < 0x070 then
    (if s.rootSet then s else { s with sec := { c with rootReg := putWord c.rootReg ((o - 0x040) / 4) w } })
  else if 0x080 ≤ o ∧ o < 0x0A8 then { s with sec := { c with kbuf := tset 0 c.kbuf ((o - 0x080) / 4) w } }
  else if 0x180 ≤ o ∧ o < 0x1A0 then
    ({ s with sec := { c with rel := BitVec.ofNat 256 (putWord c.rel.toNat ((o - 0x180) / 4) w) } }).settleIf
  else
    match o with
    | 0x004 => s.putLc l w
    | 0x010 => s.putKey l w
    | 0x1C0 => { s with sec := { c with irq := c.irq.w1c w } }
    | 0x1C4 => { s with sec := { c with irqEn := w &&& 0x7F#32 } }
    | _ => s

/-- ENV_ACC_CMD; a CMD that names no command has no effect. -/
def State.putAcc (s : State) (l : Level) (w : Word) (f : LineFlaws) : State :=
  match fld w 0 2 with
  | 1 => s.accCmd .read l f
  | 2 => s.accCmd .full l f
  | 3 => s.accCmd .part l f
  | _ => s

/-- ENV block; `f` is what checks of written lines find while the write acts. -/
def State.putEnv (s : State) (l : Level) (o : Nat) (w : Word) (f : LineFlaws) : State :=
  if 0x040 ≤ o ∧ o < 0x080 then
    { s with env := { s.env with buf := (List.range 4).foldl (fun b i =>
        tset 0 b (o - 0x040 + i) (BitVec.ofNat 8 (w.toNat / 2 ^ (8 * i)))) s.env.buf } }
  else
    match o with
    | 0x020 => if wbit w 0 then s.harvestReq l else s
    | 0x028 => { s with env := { s.env with irq := s.env.irq.w1c w } }
    | 0x02C => { s with env := { s.env with irqEn := w &&& 0x1F#32 } }
    | 0x030 => { s with env := { s.env with accAddr := fld w 0 24 } }
    | 0x034 => s.putAcc l w f
    | 0x038 | 0x03C => { s with env := { s.env with accMask := putPair s.env.accMask (o - 0x038) w } }
    | 0x080 => (s.jrdSet w.toNat f).settle s.now
    | 0x084 => if wbit w 0 then (s.jrdLoad f).settle s.now else s
    | _ => s

/-- BBX block. -/
def State.putBbx (s : State) (l : Level) (o : Nat) (w : Word) : State :=
  let b := s.bbx
  match o with
  | 0x000 =>
    if l.ge .operator then
      { s with bbx := { b.setE (fld w 0 2) s.now (s.pwr.rung == .autumn) with
                        trigLev := fld w 2 2, islMask := fld w 16 16 % 2 ^ nIsl s.hw.variant } }
    else s
  | 0x004 =>
    let s := if wbit w 0 then s.bbxTrig l else s
    if wbit w 1 then s.bbxRelease l else s
  | 0x020 => { s with bbx := { b with irq := b.irq.w1c w } }
  | 0x024 => { s with bbx := { b with irqEn := w &&& 0x7#32 } }
  | _ => s

/-- CFG block. -/
def State.putCfg (s : State) (l : Level) (o : Nat) (w : Word) : State :=
  let c := s.cfg
  match o with
  | 0x000 =>
    if wbit w 0 then s.loadReq l (fld w 2 2) (wbit w 1) else if wbit w 1 then s.applyReq l false else s
  | 0x030 => { s with cfg := { c with rtAddr := fld w 0 24 } }
  | 0x080 => { s with cfg := { c with irq := c.irq.w1c w } }
  | 0x084 => { s with cfg := { c with irqEn := w &&& 0xF#32 } }
  | _ => s

/-- CAS block. -/
def State.putCas (s : State) (l : Level) (o : Nat) (w : Word) : State :=
  let c := s.cas
  match o with
  | 0x040 => if wbit w 0 then s.casCtl l (fld w 16 12) else s
  | 0x050 => s.domCtl l (wbit w 0) (wbit w 1)
  | 0x060 => if wbit w 0 then s.eqxGo l (wbit w 1) else s
  | 0x064 | 0x068 => { s with cas := { c with eqxAt := putPair c.eqxAt (o - 0x064) w } }
  | 0x090 => { s with cas := { c with irq := c.irq.w1c w } }
  | 0x094 => { s with cas := { c with irqEn := w &&& 0xFF#32 } }
  | _ => s

/-- LNK block. -/
def State.putLnk (s : State) (l : Level) (o : Nat) (w : Word) : State :=
  if 0x080 ≤ o ∧ o < 0x0F0 then
    (if o % 0x10 = 0 then s.ltWrite l ((o - 0x080) / 0x10) (fld w 0 2) (fld w 2 2) (wbit w 4) (wbit w 5) else s)
  else
    match o with
    | 0x044 => { s with hmp := { s.hmp with idle := fld w 0 8 } }
    | 0x064 => if wbit w 16 then s.pmbGo l (fld w 0 5) (fld w 8 8) else s
    | 0x068 => { s with pmb := { s.pmb with data := fld w 0 16 } }
    | 0x100 => { s with mcp := { s.mcp with irq := s.mcp.irq.w1c w } }
    | 0x104 => { s with mcp := { s.mcp with irqEn := w &&& 0xFF#32 } }
    | _ => s

/-- A word written to the register at address `a` with the rights of a session of level `l`. An address that holds no register, or
one that is read-only, takes no effect (R9, R10). -/
def State.putReg (s : State) (l : Level) (a : Nat) (w : Word) (f : LineFlaws) : State :=
  match blkOf a with
  | none => s
  | some b =>
    let o := a - b.base
    match b with
    | .sys => s.putSys l o w
    | .pwr => s.putPwr l o w
    | .seq => s.putSeq l o w
    | .ch => s.putCh l o w
    | .flt => s.putFlt l o w
    | .wdg => s.putWdg l o w
    | .gpio => s.putGpio o w
    | .cnt => s.putCnt o w
    | .hld => s.putHld l o w
    | .sec => s.putSec l o w
    | .env => s.putEnv l o w f
    | .cfg => s.putCfg l o w
    | .cas => s.putCas l o w
    | .lnk => s.putLnk l o w
    | .bbx => s.putBbx l o w

/-- The least level at which a WRITE to address `a` passes check 5: USER where the chapter of the register states which sessions
it accepts, else OPERATOR (R441). -/
def writeMin (a : Nat) : Level :=
  if 0x10000 ≤ a ∧ a < 0x18000 then (if a % 0x100 = 0x88 ∨ a % 0x100 = 0x98 then .user else .operator)
  else if 0x70030 ≤ a ∧ a < 0x70080 then .user
  else if 0xA0080 ≤ a ∧ a < 0xA00F0 then (if a % 0x10 = 0 then .user else .operator)
  else if [0x64, 0x1004, 0x2000, 0x20B0, 0x20004, 0x30004, 0x30008, 0x30014, 0x30018, 0x3001C, 0x50040, 0x60004, 0x60010, 0x70020,
           0x80000, 0x90040, 0x90050, 0x90060, 0xA0064, 0xB0000, 0xB0004].contains a then .user
  else .operator

/-! ## The outcome a write records (R440) -/

/-- The GPIO registers whose refused writes leave their code in GPIO_ERR_INFO (R501, R502, R509, R515). -/
def gpioTells (a : Nat) : Bool :=
  (decide (0x31000 ≤ a ∧ a < 0x310C0) && (a % 0x40 == 0x18 || a % 0x40 == 0x20)) || a == 0x31104
    || (decide (0x31140 ≤ a ∧ a < 0x31160) && a % 4 == 0)

/-- The field that records the outcome of a write to address `a`, where its chapter names one. -/
def State.outcome (s : State) (a : Nat) : Option Nat :=
  let n := (a - 0x10000) / 0x100
  if 0x10000 ≤ a ∧ a < 0x18000 then
    (match a % 0x100 with
     | 0x20 => some (s.chan n).sense.applyCode
     | 0x88 => some (s.chan n).mgn.code
     | 0x98 => some (s.chan n).prb.outcome
     | _ => none)
  else if 0xA0080 ≤ a ∧ a < 0xA00F0 then (if a % 0x10 = 0 then some (tget {} s.lt ((a - 0xA0080) / 0x10)).code else none)
  else if gpioTells a then some (if wbit s.gpio.err 31 then 0x100 else fld s.gpio.err 0 4)
  else
    match a with
    | 0x20 => some s.sys.viewCode
    | 0x64 => some s.sys.rstCode
    | 0x1004 => some s.pwr.code
    | 0x2000 => some s.seq.code
    | 0x18200 => some s.camp.code
    | 0x20004 => some s.flt.cmdCode
    | 0x20070 => some s.flt.injCode
    | 0x30004 | 0x30008 | 0x30014 | 0x30018 | 0x3001C => some s.wdg.code
    | 0x40000 => some s.cnt.code
    | 0x50040 => some s.hld.code
    | 0x60004 => some s.sec.lcCode
    | 0x60010 => some s.sec.keyCode
    | 0x70020 => some s.env.code
    | 0x70034 => some s.env.accCode
    | 0x80000 => some s.cfg.code
    | 0x90040 => some s.cas.ctrlCode
    | 0x90050 => some s.cas.domCode
    | 0x90060 => some s.cas.eqxCode
    | 0xA0064 => some s.pmb.code
    | 0xB0004 => some s.bbx.code
    | _ => none

/-- The state with the outcome field of address `a` set. -/
def State.setOutcome (s : State) (a v : Nat) : State :=
  let n := (a - 0x10000) / 0x100
  if 0x10000 ≤ a ∧ a < 0x18000 then
    (match a % 0x100 with
     | 0x20 => s.modChan n fun c => { c with sense := { c.sense with applyCode := v } }
     | 0x88 => s.modChan n fun c => { c with mgn := { c.mgn with code := v } }
     | 0x98 => s.modChan n fun c => { c with prb := { c.prb with outcome := v } }
     | _ => s)
  else if 0xA0080 ≤ a ∧ a < 0xA00F0 then (if a % 0x10 = 0 then s.modLt ((a - 0xA0080) / 0x10) fun x => { x with code := v } else s)
  else if gpioTells a then
    { s with gpio := { s.gpio with err :=
      if v = 0x100 then s.gpio.err ||| 0x80000000#32 else (s.gpio.err &&& 0x7FFFFFF0#32) ||| w32 v } }
  else
    match a with
    | 0x20 => { s with sys := { s.sys with viewCode := v } }
    | 0x64 => { s with sys := { s.sys with rstCode := v } }
    | 0x1004 => { s with pwr := { s.pwr with code := v } }
    | 0x2000 => { s with seq := { s.seq with code := v } }
    | 0x18200 => { s with camp := { s.camp with code := v } }
    | 0x20004 => { s with flt := { s.flt with cmdCode := v } }
    | 0x20070 => { s with flt := { s.flt with injCode := v } }
    | 0x30004 | 0x30008 | 0x30014 | 0x30018 | 0x3001C => { s with wdg := { s.wdg with code := v } }
    | 0x40000 => { s with cnt := { s.cnt with code := v } }
    | 0x50040 => { s with hld := { s.hld with code := v } }
    | 0x60004 => { s with sec := { s.sec with lcCode := v } }
    | 0x60010 => { s with sec := { s.sec with keyCode := v } }
    | 0x70020 => { s with env := { s.env with code := v } }
    | 0x70034 => { s with env := { s.env with accCode := v } }
    | 0x80000 => { s with cfg := { s.cfg with code := v } }
    | 0x90040 => { s with cas := { s.cas with ctrlCode := v } }
    | 0x90050 => { s with cas := { s.cas with domCode := v } }
    | 0x90060 => { s with cas := { s.cas with eqxCode := v } }
    | 0xA0064 => { s with pmb := { s.pmb with code := v } }
    | 0xB0004 => { s with bbx := { s.bbx with code := v } }
    | _ => s

/-- A write together with the outcome it recorded: none where the register's chapter names no outcome field, 0 where the write
recorded nothing there and the field keeps an older outcome. A mark no outcome takes (0x100) tells the two apart. -/
def State.putTraced (s : State) (l : Level) (a : Nat) (w : Word) (f : LineFlaws) : State × Option Nat :=
  match s.outcome a with
  | none => (s.putReg l a w f, none)
  | some old =>
    let t := (s.setOutcome a 0x100).putReg l a w f
    if t.outcome a = some 0x100 then (t.setOutcome a old, some 0) else (t, t.outcome a)

/-! ## Reads with an effect (R13, R165, R305) -/

/-- The low word of a 64-bit quantity lies at address `a`. -/
def isLo (a : Nat) : Bool :=
  [0x10, 0x18, 0x24, 0x30, 0x6C, 0x78, 0x1018, 0x18204, 0x20018, 0x20028, 0x40010, 0x40018, 0x5005C, 0x70038, 0x90064].contains a
    || (decide (a % 8 = 0) && (decide (0x41000 ≤ a ∧ a < 0x45000) || decide (0x47000 ≤ a ∧ a < 0x48000)))

/-- What a read of address `a` returns to the host: the captured word of a _HI, else the register. GPIO_PADLVL reads 0 (R508),
and every register of a lost island all ones (R20). -/
def State.hostWord (s : State) (a : Nat) : Word :=
  if s.islLost (islServing a) then 0xFFFFFFFF#32
  else if 0x31000 ≤ a ∧ a < 0x310C0 ∧ a % 0x40 = 0x28 then 0
  else
    match tget none s.sys.hiCap a with
    | some w => w
    | none => s.regWord a

/-- The effect of a host's read of address `a`: a _LO captures its _HI, a _HI uses the capture up, a log entry is removed. -/
def State.readEffect (s : State) (a : Nat) : State :=
  if s.islLost (islServing a) then s
  else if isLo a then { s with sys := { s.sys with hiCap := tset none s.sys.hiCap (a + 4) (some (s.regWord (a + 4))) } }
  else if a = 0x2060 then s.tlogRead
  else if a = 0x20060 then s.flogRead
  else { s with sys := { s.sys with hiCap := tset none s.sys.hiCap a none } }

end Sys2Proof.Machine
end

