-- ==== Sys2Proof/Machine/Frames.lean ====
section
/-! DEFINITION. The host management port (R429 to R446): the checks of R433 in their order, what each request does, the response,
sessions. A request command stands for a whole frame, as its bytes came; one refused by checks 1 to 3 is judged at byte 5. -/

namespace Sys2Proof.Machine

/-! ## Timers of the port (R442 to R445) -/

/-- The session has been idle for IDLE seconds. -/
def State.idleEnds (s : State) : State :=
  if s.hmp.session.isSome && decide (s.hmp.idle ≠ 0) && decide (s.hmp.acceptedAt + s.hmp.idle * tSec ≤ s.now) then s.endSession else s

/-- The nonce has reached its 1 s. -/
def State.nonceEnds (s : State) : State :=
  { s with hmp := { s.hmp with nonce := s.hmp.nonce.filter fun n => decide (s.now < n.2.2 + tSec) } }

/-- The lock of CHAL ends. -/
def State.lockoutEnds (s : State) : State :=
  match dueAt s.hmp.lockEnd s.now with
  | some _ => { s with hmp := { s.hmp with lockEnd := none, fails := 0 } }
  | none => s

/-- Expiries of the tick come before a request judged on it (R465), but a lockout still holds on its last tick (R137). -/
def State.hmpDue (s : State) : State :=
  let s := s.idleEnds.nonceEnds
  if s.hmp.lockEnd = some s.now then s else s.lockoutEnds

/-- The session's idle limit is reached. -/
def execHmpSessionIdleExpiry (s : State) : Host.Outcome State Fault Refusal := .next s.idleEnds
/-- The session nonce expires. -/
def execHmpNonceExpiry (s : State) : Host.Outcome State Fault Refusal := .next s.nonceEnds
/-- The lockout ends. -/
def execHmpLockoutEnd (s : State) : Host.Outcome State Fault Refusal := .next s.lockoutEnds

/-! ## Refusals of checks 1 to 4 -/

/-- A request refused by checks 1 to 4: its error counters (R433, R528). `bytes` counts those of a complete frame. -/
def State.badFrame (s : State) (status bytes : Nat) : State :=
  let h := s.hmp
  let h := { h with eLen := if status = 2 then incTo 0xFF h.eLen else h.eLen, eCrc := if status = 4 then incTo 0xFF h.eCrc else h.eCrc }
  (({ s with hmp := h }).tpAdd 0 bytes 1 1).answer status 0 []

/-! ## The checks of R433 -/

/-- A request frame: CMD, ADDR, LEN, payload, CRC as received, and the payload length R432 gives it. -/
structure Req where
  cmd : Nat
  addr : Nat
  len : Nat
  payload : List Byte
  crc : BitVec 32
  want : Nat
  deriving DecidableEq, Repr

/-- Check 4: the CRC stands behind a payload of the right length and matches (R431). -/
def Req.crcOk (r : Req) : Bool :=
  decide (r.payload.length = r.want)
    && crc32c (leBytes 1 r.cmd ++ leBytes 3 r.addr ++ leBytes 2 r.len ++ r.payload) == r.crc

/-- Bytes of the complete frame. -/
def Req.bytes (r : Req) : Nat := 10 + r.want

/-- Check 2 for READ and WRITE. -/
def lenOk (len : Nat) : Bool := decide (4 ≤ len) && decide (len ≤ 4096) && decide (len % 4 = 0)

/-- Check 3 for READ and WRITE. -/
def addrOk (addr len : Nat) : Bool := decide (addr % 4 = 0) && decide (addr + len - 1 ≤ 0xFFFFFF)

/-- The registers a frame addresses, ascending. -/
def addrsOf (addr len : Nat) : List Nat := (List.range (len / 4)).map fun i => addr + 4 * i

/-- The port takes frames: from S3 on, in HALT, and in Winter (R56, R60, R492). -/
def State.hmpHears (s : State) : Bool := s.hmpUp || (s.pwr.rung == .winter && !s.sys.vauxDown)

/-- The fall of HMP_CS_N of a request wakes the device (R493). -/
def State.wakesNow (s : State) : Bool := !s.rungOk && s.pwr.exit.isNone && s.wakeEnabled 2

/-- A request is judged: checks 1 to 3 have given `early` (0 for passed), check 4 is the CRC, `late` gives the STATUS of checks 5 to
8, and a request that passes acts. A frame begun behind a timeout in its transaction fails check 4 (R437). Its fall of HMP_CS_N is a
wake source in Winter and Midwinter, and the request that wakes is refused with RUNG (R493). -/
def State.request (s : State) (r : Req) (early : Nat) (late : State → Nat) (act : State → State) : State :=
  if !s.hmpHears then s.wakeEvent 2
  else
    let s := s.hmpDue
    let broken := s.hmp.broken
    let s : State := { s with hmp := { s.hmp with broken := false } }
    let s :=
      if early ≠ 0 then s.badFrame early 0
      else if broken || !r.crcOk then s.badFrame 4 r.bytes
      else
        let s := s.tpAdd 0 r.bytes 1 0
        match (if s.wakesNow then 7 else late s) with
        | 0 => act s
        | c => s.answer c 0 []
    s.wakeEvent 2

/-- The least level at which a READ of address `a` passes check 5 with a session open (R441, R354, R529). -/
def State.readMin (s : State) (a : Nat) : Level :=
  if 0x40000 ≤ a ∧ a < 0x50000 then
    let o := a - 0x40000
    let user := s.cnt.userEn && (o == 0x18 || o == 0x1C || (decide (0x104 ≤ o ∧ o < 0x200) && o % 0x20 != 0 && o % 0x20 != 0x1C)
      || decide (0x500 ≤ o ∧ o < 0x600) || decide (0x1000 ≤ o ∧ o < 0x5000) || decide (0x7000 ≤ o ∧ o < 0x7440)
      || decide (0x7800 ≤ o ∧ o < 0x7C40))
    if user then .user else .operator
  else if (0x70080 ≤ a ∧ a < 0x7008C) ∨ (0x700C0 ≤ a ∧ a < 0x70100) then .operator
  else .user

/-- Check 5 of a READ. -/
def State.readAllowed (s : State) (as : List Nat) : Bool :=
  match s.hmp.session with
  | none => as.all fun a => decide (blkOf a = some .sys)
  | some l => as.all fun a => l.ge (s.readMin a)

/-- Check 7: every addressed block answers in the present rung; an address in no block passes (R9). -/
def State.rungAnswers (s : State) (as : List Nat) : Bool := s.rungOk || as.all fun a => decide (blkOf a = none)

/-- Checks 5 to 7 of a READ. -/
def State.readCheck (as : List Nat) (s : State) : Nat :=
  if !s.readAllowed as then 5
  else if as.any fun a => s.notReady a false then 6
  else if !s.rungAnswers as then 7
  else 0

/-- Checks 5 to 8 of a WRITE. -/
def State.writeCheck (as : List Nat) (s : State) : Nat :=
  match s.hmp.session with
  | none => 5
  | some l =>
    if !as.all fun a => l.ge (writeMin a) then 5
    else if as.any fun a => s.notReady a true then 6
    else if !s.rungAnswers as then 7
    else if as.any fun a => s.islLost (islServing a) then 8
    else 0

/-- Checks 6 and 7 of a request that addresses no register: HALT refuses it, the rungs with stopped clock do. -/
def State.plainCheck (s : State) : Nat := if s.sys.phase == .halt then 6 else if !s.rungOk then 7 else 0

/-! ## READ and WRITE (R432, R439, R440) -/

/-- Registers are read in ascending order, each on its own tick (R439); the words read, latest first. -/
def State.readRegs (s : State) : List Nat → Bool → List Word → State × List Word
  | [], _, acc => (s, acc)
  | a :: r, first, acc =>
    let s := if first then s else { idle { s with pending := [] } with pending := s.pending }
    (s.readEffect a).readRegs r false (s.hostWord a :: acc)

/-- Words as bytes, little-endian. -/
def wordBytes (l : List Word) : List Byte := l.flatMap fun w => leBytes 4 w.toNat

/-- A READ that passes the checks. A lost island's registers read all ones and give STATUS ISL. -/
def State.readAct (as : List Nat) (s : State) : State :=
  let isl := as.any fun a => s.islLost (islServing a)
  let (t, ws) := s.readRegs as true []
  t.answerOk s.now (if isl then 8 else 0) 0 (wordBytes ws.reverse)

/-- READ. -/
def execHmpRead (addr : BitVec 24) (len : BitVec 16) (crc : BitVec 32) (s : State) : Host.Outcome State Fault Refusal :=
  let a := addr.toNat
  let n := len.toNat
  let early := if !lenOk n then 2 else if !addrOk a n then 3 else 0
  .next (s.request { cmd := 0x01, addr := a, len := n, payload := [], crc := crc, want := 0 } early (State.readCheck (addrsOf a n))
    (State.readAct (addrsOf a n)))

/-- Registers are written in ascending order; the outcome of the last one that has an outcome field. -/
def State.writeRegs (l : Level) (f : LineFlaws) (s : State) : List (Nat × Word) → Nat → State × Nat
  | [], d => (s, d)
  | (a, w) :: r, d =>
    let t := s.putTraced l a w f
    t.1.writeRegs l f r (t.2.getD d)

/-- A WRITE that passes the checks: STATUS is CODE where the recorded outcome is not 0. `f` is what the checks of the ENV lines find
that it has read (R334). -/
def State.writeAct (regs : List (Nat × Word)) (f : LineFlaws) (s : State) : State :=
  match s.hmp.session with
  | none => s
  | some l =>
    let (t, d) := s.writeRegs l f regs 0
    t.answerOk s.now (if d = 0 then 0 else 9) (d % 256) []

/-- WRITE. -/
def execHmpWrite (addr : BitVec 24) (len : BitVec 16) (payload : List (BitVec 32)) (crc : BitVec 32) (s : State) :
    Host.Outcome State Fault Refusal :=
  let a := addr.toNat
  let n := len.toNat
  let early := if !lenOk n then 2 else if !addrOk a n then 3 else 0
  .next (s.request { cmd := 0x02, addr := a, len := n, payload := wordBytes payload, crc := crc, want := n } early
    (State.writeCheck (addrsOf a n)) (State.writeAct ((addrsOf a n).zip payload) (Config.readFlaws s.now)))

/-! ## RESEND and sessions (R436, R442 to R445) -/

/-- RESEND that passes the checks: the held response again, or NORESP, which is not held. -/
def State.resendAct (s : State) : State :=
  let r : HmpResp := s.hmp.resp.getD { status := 0x0D, detail := 0, payload := [] }
  { s with hmp := { s.hmp with status := r.status, detail := r.detail, out := some r, acceptedAt := s.now } }

/-- RESEND, which never replaces the held response, not even where it is refused (R436). -/
def execHmpResend (addr : BitVec 24) (len : BitVec 16) (crc : BitVec 32) (s : State) : Host.Outcome State Fault Refusal :=
  let early := if len ≠ 0 then 2 else if addr ≠ 0 then 3 else 0
  let t := s.request { cmd := 0x0E, addr := addr.toNat, len := len.toNat, payload := [], crc := crc, want := 0 } early
    State.plainCheck State.resendAct
  .next { t with hmp := { t.hmp with resp := s.hmp.resp } }

/-- CHAL for level `l` that passes the checks (R442, R444). -/
def State.chalAct (l : Level) (s : State) : State :=
  if s.hmp.lockEnd.isSome then s.answer 0x0B 0 []
  else
    let d := s.draw 32
    let s := d.2
    ({ s with hmp := { s.hmp with nonce := some (l, d.1, s.now) } }).answerOk s.now 0 0 d.1

/-- CHAL. -/
def execHmpChal (addr : BitVec 24) (len : BitVec 16) (crc : BitVec 32) (s : State) : Host.Outcome State Fault Refusal :=
  let early := if len ≠ 0 then 2 else if 4 ≤ addr.toNat then 3 else 0
  .next (s.request { cmd := 0x10, addr := addr.toNat, len := len.toNat, payload := [], crc := crc, want := 0 } early
    State.plainCheck (State.chalAct (Level.ofCode addr.toNat)))

/-- The HMAC that opens a session of level `l` against a nonce, where the level's key is installed (R443, R474). -/
def State.openMac (s : State) (l : Level) (nonce : List Byte) : Option (List Byte) :=
  (s.sessKey l).map fun k => Config.hmac256 k (nonce ++ leBytes 1 l.rank ++ s.uidBytes)

/-- An OPEN whose HMAC differs: HMP_AUTH, FAILS, and the lock at the fourth. -/
def State.openFails (s : State) : State :=
  let n := min 7 (s.hmp.fails + 1)
  let s := { s with hmp := { s.hmp with fails := n, lockEnd := if 4 ≤ n then some (s.now + tSec) else s.hmp.lockEnd } }
  ((s.irqLnk 3).raiseOrDefer 1046).answer 0x0A 0 []

/-- OPEN for level `l` that passes the checks: it ends any session and uses the nonce up. -/
def State.openAct (l : Level) (mac : List Byte) (s : State) : State :=
  let nonce := s.hmp.nonce
  let s := s.endSession
  let s := { s with hmp := { s.hmp with nonce := none } }
  match nonce with
  | some (nl, bytes, _) =>
    if nl ≠ l then s.answer 0x0C 0 []
    else if s.openMac l bytes = some mac then
      ({ s with hmp := { s.hmp with session := some l, fails := 0 } }).answerOk s.now 0 0 []
    else s.openFails
  | none => s.answer 0x0C 0 []

/-- OPEN. -/
def execHmpOpen (addr : BitVec 24) (len : BitVec 16) (hmac : List (BitVec 8)) (crc : BitVec 32) (s : State) :
    Host.Outcome State Fault Refusal :=
  let early := if len ≠ 32 then 2 else if 4 ≤ addr.toNat then 3 else 0
  .next (s.request { cmd := 0x11, addr := addr.toNat, len := len.toNat, payload := hmac, crc := crc, want := 32 } early
    State.plainCheck (State.openAct (Level.ofCode addr.toNat) hmac))

/-- CLOSE that passes the checks. -/
def State.closeAct (s : State) : State := s.endSession.answerOk s.now 0 0 []

/-- CLOSE. -/
def execHmpClose (addr : BitVec 24) (len : BitVec 16) (crc : BitVec 32) (s : State) : Host.Outcome State Fault Refusal :=
  let early := if len ≠ 0 then 2 else if addr ≠ 0 then 3 else 0
  .next (s.request { cmd := 0x12, addr := addr.toNat, len := len.toNat, payload := [], crc := crc, want := 0 } early
    State.plainCheck State.closeAct)

/-! ## Frames that are no requests (R433, R436, R437) -/

/-- The commands of R432. -/
def hmpCmds : List Nat := [0x01, 0x02, 0x0E, 0x10, 0x11, 0x12]

/-- A CMD outside R432 is refused at byte 5; one of R432 is no such frame. -/
def State.ecmd (s : State) (cmd : Nat) : State :=
  if hmpCmds.contains cmd then s
  else s.request { cmd := cmd, addr := 0, len := 0, payload := [], crc := 0, want := 0 } 1 (fun _ => 0) id

/-- A CMD outside R432 arrives. -/
def execHmpEcmd (cmd : BitVec 8) (s : State) : Host.Outcome State Fault Refusal := .next (s.ecmd cmd.toNat)

/-- HMP_CS_N rises mid-frame: the partial frame is discarded; an accepted soft reset acts on the rise too (R551). -/
def State.csRise (s : State) : State :=
  if !s.hmpHears then s
  else
    let s := { s with hmp := { s.hmp with eAbort := incTo 0xFF s.hmp.eAbort, broken := false } }
    (s.tpAdd 0 0 0 1).softActs true

/-- HMP_CS_N rises mid-frame. -/
def execHmpCsRise (s : State) : Host.Outcome State Fault Refusal := .next s.csRise

/-- 100 µs without the next byte: the partial frame is discarded. Whether further bytes follow in the same transaction, which
R437 then refuses with `ECRC`, is a free value: the command does not say it. -/
def State.byteTimeout (s : State) : State :=
  if !s.hmpHears then s
  else ({ s with hmp := { s.hmp with eTout := incTo 0xFF s.hmp.eTout, broken := Config.moreBytes s.now } }).tpAdd 0 0 0 1

/-- The next byte of a request does not come. -/
def execHmpInterbyteTimeout (s : State) : Host.Outcome State Fault Refusal := .next s.byteTimeout

end Sys2Proof.Machine
end

