-- ==== Sys2Proof/Machine/Debug.lean ====
section
/-! DEFINITION. The JTAG port: boundary scan (R462) and authenticated debug (R475 to R478). An instruction command stands for the
instruction taken and its data register shifted once; `Jtag.dr` is what the data register shifts out, as a number whose bit 0 goes
first. -/

namespace Sys2Proof.Machine

/-- The port is powered. -/
def State.tapUp (s : State) : Bool := s.sys.phase != .por && !s.sys.vauxDown

/-- The security island answers debug instructions. -/
def State.dbgUp (s : State) : Bool := s.ctrlUp && s.rungOk && !s.islLost 18

/-- An instruction replaces the one in effect: entering or leaving boundary scan parks the pins (R503). -/
def State.takeIr (s : State) (i : JtagIr) : State :=
  let t := { s with jtag := { s.jtag with ir := i } }
  if s.scanHolds == t.scanHolds then t else t.parkAll

/-- The data register shifts out `d`. -/
def State.shiftOut (s : State) (d : Nat) : State := { s with jtag := { s.jtag with dr := d } }

/-- BYPASS: the one-bit register captures 0. -/
def execJtagBypass (s : State) : Host.Outcome State Fault Refusal :=
  .next (if s.tapUp then (s.takeIr .bypass).shiftOut 0 else s)

/-- IDCODE's 32 bits. -/
def State.idcode (s : State) : Word :=
  wpack [(0, 1, 1), (1, 11, 0x6D9), (12, 16, match s.hw.variant with | .dz128 => 0xD211 | .dz32 => 0xD212), (28, 4, s.sys.taken.step)]

/-- IDCODE. -/
def execJtagIdcode (s : State) : Host.Outcome State Fault Refusal :=
  .next (if s.tapUp then (s.takeIr .idcode).shiftOut s.idcode.toNat else s)

/-- The level of the pads of port `p` among those a capture shows. -/
def State.padSeen (s : State) (pads : List (BitVec 16)) (p : Nat) : State :=
  s.modPort p fun x => { x with pad := (pads[p]?.map BitVec.toNat).getD x.pad }

/-- SAMPLE/PRELOAD captures the pad levels of the chain, those of the GPIO ports in order before those of the other digital pins, and
loads the cells with what is shifted in, which the row does not say (notes/assumptions/84). -/
def State.sample (s : State) (pads : List (BitVec 16)) : State :=
  let s := s.takeIr .sample
  let s := { s with jtag := { s.jtag with pads := pads, loads := s.jtag.loads + 1 } }
  let s := (List.range (nGpio s.hw.variant)).foldl (fun s p => s.padSeen pads p) s
  s.shiftOut (pads.foldr (fun p a => p.toNat + 2 ^ 16 * a) 0)

/-- SAMPLE/PRELOAD. -/
def execJtagSamplePreload (pads : List (BitVec 16)) (s : State) : Host.Outcome State Fault Refusal :=
  .next (if s.tapUp then s.sample pads else s)

/-- The pad levels of the ports as the data register of the chain captures them. -/
def State.padChain (s : State) : Nat := (List.range (nGpio s.hw.variant)).foldr (fun p a => (s.port p).pad + 2 ^ 16 * a) 0

/-- EXTEST, CLAMP or HIGHZ: in effect at CONTROL or FACTORY with every rail OFF, clearing a latched on request; else BYPASS. EXTEST
captures the pads and loads the cells it drives; the other two select the bypass register. -/
def State.scan (s : State) (i : JtagIr) : State :=
  if (s.sec.dbg == .control || s.sec.dbg == .factory) && s.railsOff then
    let s := s.takeIr i
    let s := { s with seq := { s.seq with onLatch := none } }
    if i = .extest then { s with jtag := { s.jtag with loads := s.jtag.loads + 1 } }.shiftOut s.padChain else s.shiftOut 0
  else (s.takeIr .bypass).shiftOut 0

/-- EXTEST. -/
def execJtagExtest (s : State) : Host.Outcome State Fault Refusal := .next (if s.tapUp then s.scan .extest else s)
/-- CLAMP. -/
def execJtagClamp (s : State) : Host.Outcome State Fault Refusal := .next (if s.tapUp then s.scan .clamp else s)
/-- HIGHZ. -/
def execJtagHighz (s : State) : Host.Outcome State Fault Refusal := .next (if s.tapUp then s.scan .highz else s)

/-- The debug level becomes OFF. -/
def State.dbgToOff (s : State) : State := if s.dbgUp then s.dbgTo .off else s.setDbg .off

/-- TRST_N falls: the test logic is reset, which selects IDCODE (IEEE 1149.1), a boundary-scan hold ends, the debug level is OFF. -/
def execTrstNFall (s : State) : Host.Outcome State Fault Refusal :=
  .next (if s.tapUp then (s.takeIr .idcode).dbgToOff else s)

/-! ## Authenticated debug -/

/-- The debug nonce has reached its 1 s. -/
def State.dbgNonceEnds (s : State) : State :=
  { s with jtag := { s.jtag with nonce := s.jtag.nonce.filter fun n => decide (s.now < n.2 + tSec) } }

/-- The lock of debug authentication ends. -/
def State.dbgLockEnds (s : State) : State :=
  match dueAt s.jtag.lockEnd s.now with
  | some _ => { s with jtag := { s.jtag with lockEnd := none, fails := 0 } }
  | none => s

/-- The debug lock, where its last tick has passed (R137). -/
def State.dbgLockPast (s : State) : State := if s.jtag.lockEnd = some s.now then s else s.dbgLockEnds

/-- The debug nonce expires. -/
def execDbgNonceExpiry (s : State) : Host.Outcome State Fault Refusal := .next s.dbgNonceEnds
/-- The debug lockout ends. -/
def execDbgLockoutEnd (s : State) : Host.Outcome State Fault Refusal := .next s.dbgLockEnds

/-- DBG_CHAL: a fresh nonce, or zeros while locked. -/
def State.dbgNonce (s : State) : State :=
  let s := (s.takeIr .dbgChal).dbgLockPast
  if s.jtag.lockEnd.isSome then s.shiftOut 0
  else
    let d := s.draw 32
    let s := d.2
    ({ s with jtag := { s.jtag with nonce := some (d.1, s.now) } }).shiftOut (leNat d.1)

/-- DBG_CHAL. -/
def execDbgChal (s : State) : Host.Outcome State Fault Refusal := .next (if s.dbgUp then s.dbgNonce else s)

/-- The session level whose key authenticates a debug level code. -/
def dbgKeyLevel : Nat → Option Level
  | 1 => some .operator
  | 2 => some .owner
  | 3 => some .vendor
  | _ => none

/-- The HMAC that DBG_AUTH of level code `l` must bring for the nonce held; none where no nonce or key is held. -/
def State.dbgMac (s : State) (l : Nat) : Option (List Byte) :=
  match s.jtag.nonce, dbgKeyLevel l with
  | some n, some k => (s.sessKey k).map fun key => Config.hmac256 key (n.1 ++ leBytes 1 (0x10 + l) ++ s.uidBytes)
  | _, _ => none

/-- A failed DBG_AUTH: the fourth locks for 1 s. -/
def State.dbgFails (s : State) : State :=
  let n := min 7 (s.jtag.fails + 1)
  { s with jtag := { s.jtag with nonce := none, fails := n, lockEnd := if 4 ≤ n then some (s.now + tSec) else s.jtag.lockEnd } }

/-- The lifecycle state that judges a DBG_AUTH: that of a transition that completes with its stamp, in a command that waits (R496). -/
def State.lcsJudge (s : State) : Lcs :=
  match s.sec.lcOp with
  | some o =>
    if s.thisTick.any (fun i => match i with | .lcOperationDone ok => ok | _ => false) then lcsOf (s.sys.taken.pick 5 (s.blown o).lcs) else s.lcs
  | none => s.lcs

/-- DBG_AUTH of level code `l` (R475). Beside a transition that has completed with its stamp the level stays OFF (R496). -/
def State.dbgLogin (s : State) (l : Nat) (mac : List Byte) : State :=
  let s := ((s.takeIr .dbgAuth).dbgLockPast).dbgNonceEnds
  let used := { s with jtag := { s.jtag with nonce := none } }
  if s.jtag.lockEnd.isSome || decide (s.lcsJudge.dbgMax.code < l) then used
  else if s.dbgMac l = some mac then
    ({ used with jtag := { used.jtag with unlocks := incTo 0xFF s.jtag.unlocks } }).dbgTo
      (if s.sec.transAt = some s.now then .off else Dbg.ofCode l)
  else s.dbgFails

/-- DBG_AUTH. -/
def execDbgAuth (level : BitVec 8) (hmac : List (BitVec 8)) (s : State) : Host.Outcome State Fault Refusal :=
  .next (if s.dbgUp then s.dbgLogin level.toNat hmac else s)

/-- DBG_STAT shifts out SEC_DBG. -/
def execDbgStat (s : State) : Host.Outcome State Fault Refusal :=
  .next (if s.dbgUp then (s.takeIr .dbgStat).shiftOut (s.secReg 0x0B0).toNat else s)

/-- The level whose rights a DBG_REG write has; none below CONTROL (R477). -/
def Dbg.rights : Dbg → Option Level
  | .control => some .owner
  | .factory => some .vendor
  | _ => none

/-- A block refuses the access in the present phase (R57, R60, R391). -/
def State.dbgRefuses (s : State) (a : Nat) (write : Bool) : Bool := s.notReady a write

/-- What DBG_REG reads at an address: without effect (R477), pad levels included (R508), all ones of a lost island (R20). -/
def State.dbgWord (s : State) (a : Nat) : Word :=
  if s.islLost (islServing a) then 0xFFFFFFFF#32
  else if 0x31000 ≤ a ∧ a < 0x310C0 ∧ a % 0x40 = 0x28 then
    (let p := (a - 0x31000) / 0x40
     if p < nGpio s.hw.variant then w32 (Nat.land (s.port p).pad (s.portMask p)) else 0)
  else s.regWord a

/-- A write of GPIO_OUT_SET or GPIO_OUT_CLR is kept to the end of the tick: one of the HMP on it is applied first (R517). -/
def State.outNote (s : State) (a : Nat) (d : Word) : State :=
  let p := (a - 0x31000) / 0x40
  let o := a % 0x40
  if 0x31000 ≤ a ∧ p < nGpio s.hw.variant ∧ (o = 0x08 ∨ o = 0x0C) then
    ({ s with gpio := { s.gpio with dbgOut := s.gpio.dbgOut ++ [(p, fld d 0 16, decide (o = 0x08))] } }).outReplay
  else s

/-- DBG_REG: the value of the previous read shifts out; then the register is read or written with the rights of the debug level.
An address that is no multiple of 4 names no register (R7). -/
def State.dbgAccess (s : State) (a : Nat) (write : Bool) (d : Word) (f : LineFlaws) : State :=
  let s := (s.takeIr .dbgReg).shiftOut s.jtag.prevRead.toNat
  if s.dbgRefuses a write || decide (a % 4 ≠ 0) then s
  else if write then
    match s.sec.dbg.rights with
    | some l => if s.islLost (islServing a) then s else (s.putReg l a d f).outNote a d
    | none => s
  else if s.sec.dbg = .off then s
  else { s with jtag := { s.jtag with prevRead := s.dbgWord a } }

/-- DBG_REG. -/
def execDbgReg (addr : BitVec 24) (write : Bool) (data : BitVec 32) (s : State) : Host.Outcome State Fault Refusal :=
  .next (if s.dbgUp then s.dbgAccess addr.toNat write data (Config.readFlaws s.now) else s)

/-- DBG_RESET at CONTROL or FACTORY: an orderly reset with cause DBG (R76, R477). -/
def execDbgReset (s : State) : Host.Outcome State Fault Refusal :=
  .next (if s.dbgUp then
    let t := s.takeIr .dbgReset
    if s.sec.dbg.deep then t.orderly 64 else t
  else s)

/-- DBG_OFF. -/
def execDbgOff (s : State) : Host.Outcome State Fault Refusal := .next (if s.dbgUp then (s.takeIr .dbgOff).dbgTo .off else s)

end Sys2Proof.Machine
end

