-- ==== Sys2Proof/Machine/Dispatch.lean ====
section
/-! DEFINITION. One arm per command: the meaning it calls. -/

namespace Sys2Proof.Machine

/-- What a command does to everything but the queue. -/
def exec (i : Instr) (s : State) : Host.Outcome State Fault Refusal :=
  match i with
  | .powerOnResetRelease => Sys2Proof.Machine.execPowerOnResetRelease s
  | .fuseReadDone badA badB strap => Sys2Proof.Machine.execFuseReadDone badA badB strap s
  | .bootS2Done vio33 => Sys2Proof.Machine.execBootS2Done vio33 s
  | .journalReplayDone flaws => Sys2Proof.Machine.execJournalReplayDone flaws s
  | .slotChoiceDone flaws => Sys2Proof.Machine.execSlotChoiceDone flaws s
  | .configLoadDone => Sys2Proof.Machine.execConfigLoadDone s
  | .vauxCollapse => Sys2Proof.Machine.execVauxCollapse s
  | .vauxRecover => Sys2Proof.Machine.execVauxRecover s
  | .resetNFilterExpiry => Sys2Proof.Machine.execResetNFilterExpiry s
  | .orderlyResetComplete => Sys2Proof.Machine.execOrderlyResetComplete s
  | .sysRstCtrlSoft key => Sys2Proof.Machine.execSysRstCtrlSoft key s
  | .softResetTakeEffect csRise => Sys2Proof.Machine.execSoftResetTakeEffect csRise s
  | .mainClockRestart => Sys2Proof.Machine.execMainClockRestart s
  | .islandLost isl => Sys2Proof.Machine.execIslandLost isl s
  | .timebaseFullValue isl slip => Sys2Proof.Machine.execTimebaseFullValue isl slip s
  | .viewReqNow cnt => Sys2Proof.Machine.execViewReqNow cnt s
  | .viewReqAt cnt => Sys2Proof.Machine.execViewReqAt cnt s
  | .viewCapture => Sys2Proof.Machine.execViewCapture s
  | .viewDone => Sys2Proof.Machine.execViewDone s
  | .comparatorTrip ch k level held => Sys2Proof.Machine.execComparatorTrip ch k level held s
  | .comparatorRelease ch k level => Sys2Proof.Machine.execComparatorRelease ch k level s
  | .channelSample ch v imon => Sys2Proof.Machine.execChannelSample ch v imon s
  | .pgPinChange ch level => Sys2Proof.Machine.execPgPinChange ch level s
  | .hvsSample k code => Sys2Proof.Machine.execHvsSample k code s
  | .hsSenseSample code => Sys2Proof.Machine.execHsSenseSample code s
  | .hsBreakerTrip held => Sys2Proof.Machine.execHsBreakerTrip held s
  | .hsGoodLossTimeout => Sys2Proof.Machine.execHsGoodLossTimeout s
  | .thresholdStageWrite ch reg value => Sys2Proof.Machine.execThresholdStageWrite ch reg value s
  | .chApply ch => Sys2Proof.Machine.execChApply ch s
  | .chDiscard ch => Sys2Proof.Machine.execChDiscard ch s
  | .thresholdHoldEnd ch => Sys2Proof.Machine.execThresholdHoldEnd ch s
  | .chLockKey ch key => Sys2Proof.Machine.execChLockKey ch key s
  | .chLockPairTimeout ch => Sys2Proof.Machine.execChLockPairTimeout ch s
  | .pmbusPoll ch => Sys2Proof.Machine.execPmbusPoll ch s
  | .pmbusTransactionDone res data => Sys2Proof.Machine.execPmbusTransactionDone res data s
  | .pmbusRetry => Sys2Proof.Machine.execPmbusRetry s
  | .pmbusStretchTimeout => Sys2Proof.Machine.execPmbusStretchTimeout s
  | .seqOnRequest => Sys2Proof.Machine.execSeqOnRequest s
  | .seqOffRequest => Sys2Proof.Machine.execSeqOffRequest s
  | .latchedOnAct => Sys2Proof.Machine.execLatchedOnAct s
  | .railEnable r => Sys2Proof.Machine.execRailEnable r s
  | .qualificationExpiry r => Sys2Proof.Machine.execQualificationExpiry r s
  | .startTimeoutExpiry r => Sys2Proof.Machine.execStartTimeoutExpiry r s
  | .deglitchExpiry ch => Sys2Proof.Machine.execDeglitchExpiry ch s
  | .dischargeTimeoutExpiry ch => Sys2Proof.Machine.execDischargeTimeoutExpiry ch s
  | .retryWaitExpiry ch => Sys2Proof.Machine.execRetryWaitExpiry ch s
  | .seqTlogRead => Sys2Proof.Machine.execSeqTlogRead s
  | .seqTlogClr => Sys2Proof.Machine.execSeqTlogClr s
  | .seqSpringCtlWrite dis => Sys2Proof.Machine.execSeqSpringCtlWrite dis s
  | .springLimitExpiry ch => Sys2Proof.Machine.execSpringLimitExpiry ch s
  | .mgnNominal ch => Sys2Proof.Machine.execMgnNominal ch s
  | .mgnHigh ch => Sys2Proof.Machine.execMgnHigh ch s
  | .mgnLow ch => Sys2Proof.Machine.execMgnLow ch s
  | .mgnTarget ch pct => Sys2Proof.Machine.execMgnTarget ch pct s
  | .mgnOlcode ch code => Sys2Proof.Machine.execMgnOlcode ch code s
  | .marginServoUpdate ch => Sys2Proof.Machine.execMarginServoUpdate ch s
  | .marginWalkStep ch => Sys2Proof.Machine.execMarginWalkStep ch s
  | .mgnCampGo corner abort => Sys2Proof.Machine.execMgnCampGo corner abort s
  | .campaignCorner => Sys2Proof.Machine.execCampaignCorner s
  | .campaignReport => Sys2Proof.Machine.execCampaignReport s
  | .prbGo ch => Sys2Proof.Machine.execPrbGo ch s
  | .prbBaseReset ch => Sys2Proof.Machine.execPrbBaseReset ch s
  | .probeDue ch => Sys2Proof.Machine.execProbeDue ch s
  | .probeStart => Sys2Proof.Machine.execProbeStart s
  | .probeBaselineEnd => Sys2Proof.Machine.execProbeBaselineEnd s
  | .probeStepEnd => Sys2Proof.Machine.execProbeStepEnd s
  | .probeFitDone wn zeta qeff fitQ => Sys2Proof.Machine.execProbeFitDone wn zeta qeff fitQ s
  | .ledgerOpen blk bytes group epoch => Sys2Proof.Machine.execLedgerOpen blk bytes group epoch s
  | .ledgerDone blk group => Sys2Proof.Machine.execLedgerDone blk group s
  | .ledgerSeal blk words => Sys2Proof.Machine.execLedgerSeal blk words s
  | .ledgerPad blk => Sys2Proof.Machine.execLedgerPad blk s
  | .macVerifyPass blk undef => Sys2Proof.Machine.execMacVerifyPass blk undef s
  | .macVerifyFail blk => Sys2Proof.Machine.execMacVerifyFail blk s
  | .inputLoss => Sys2Proof.Machine.execInputLoss s
  | .rideThroughGateOn => Sys2Proof.Machine.execRideThroughGateOn s
  | .hldHold => Sys2Proof.Machine.execHldHold s
  | .hldRelease => Sys2Proof.Machine.execHldRelease s
  | .hldDrain => Sys2Proof.Machine.execHldDrain s
  | .epochRecordPeriod => Sys2Proof.Machine.execEpochRecordPeriod s
  | .wireFault src => Sys2Proof.Machine.execWireFault src s
  | .firstFaultLatch => Sys2Proof.Machine.execFirstFaultLatch s
  | .sourceLevelDecay src => Sys2Proof.Machine.execSourceLevelDecay src s
  | .graceExpiry => Sys2Proof.Machine.execGraceExpiry s
  | .safeStateAdvance => Sys2Proof.Machine.execSafeStateAdvance s
  | .fltAck src => Sys2Proof.Machine.execFltAck src s
  | .fltClr src => Sys2Proof.Machine.execFltClr src s
  | .fltSafeClr => Sys2Proof.Machine.execFltSafeClr s
  | .fltFfRearm => Sys2Proof.Machine.execFltFfRearm s
  | .fltPrivClear bits => Sys2Proof.Machine.execFltPrivClear bits s
  | .collectorSelfFault why => Sys2Proof.Machine.execCollectorSelfFault why s
  | .fltInjGo src wire => Sys2Proof.Machine.execFltInjGo src wire s
  | .fltLogRead => Sys2Proof.Machine.execFltLogRead s
  | .fltLogClr => Sys2Proof.Machine.execFltLogClr s
  | .wdgStart => Sys2Proof.Machine.execWdgStart s
  | .wdgWindowOpen => Sys2Proof.Machine.execWdgWindowOpen s
  | .wdgExpiry => Sys2Proof.Machine.execWdgExpiry s
  | .wdgPeriodWrite next => Sys2Proof.Machine.execWdgPeriodWrite next s
  | .wdgAns task answer => Sys2Proof.Machine.execWdgAns task answer s
  | .wdgSvc svc => Sys2Proof.Machine.execWdgSvc svc s
  | .wdgKey key => Sys2Proof.Machine.execWdgKey key s
  | .wdgKeyPairTimeout => Sys2Proof.Machine.execWdgKeyPairTimeout s
  | .wdoPulseEnd => Sys2Proof.Machine.execWdoPulseEnd s
  | .clkmonWindowEnd count edgeOnEnd => Sys2Proof.Machine.execClkmonWindowEnd count edgeOnEnd s
  | .envRead flaws => Sys2Proof.Machine.execEnvRead flaws s
  | .envWriteFull flaws => Sys2Proof.Machine.execEnvWriteFull flaws s
  | .envWritePart flaws => Sys2Proof.Machine.execEnvWritePart flaws s
  | .envLineWriteDone => Sys2Proof.Machine.execEnvLineWriteDone s
  | .journalRecordAppend => Sys2Proof.Machine.execJournalRecordAppend s
  | .hoursIncrement => Sys2Proof.Machine.execHoursIncrement s
  | .countRecordPeriod => Sys2Proof.Machine.execCountRecordPeriod s
  | .envHarvest => Sys2Proof.Machine.execEnvHarvest s
  | .harvestDone flaws => Sys2Proof.Machine.execHarvestDone flaws s
  | .jrdFrom seq => Sys2Proof.Machine.execJrdFrom seq s
  | .jrdNext => Sys2Proof.Machine.execJrdNext s
  | .bbxChunkEnd isl => Sys2Proof.Machine.execBbxChunkEnd isl s
  | .bbxTrig => Sys2Proof.Machine.execBbxTrig s
  | .bbxRelease => Sys2Proof.Machine.execBbxRelease s
  | .bbxCaptureCommit => Sys2Proof.Machine.execBbxCaptureCommit s
  | .cfgLoad force => Sys2Proof.Machine.execCfgLoad force s
  | .reloadDone flaws => Sys2Proof.Machine.execReloadDone flaws s
  | .cfgApply => Sys2Proof.Machine.execCfgApply s
  | .rtApplyVerified flaws => Sys2Proof.Machine.execRtApplyVerified flaws s
  | .casPortUp p => Sys2Proof.Machine.execCasPortUp p s
  | .casAckTimeout p => Sys2Proof.Machine.execCasAckTimeout p s
  | .casLockLoss p => Sys2Proof.Machine.execCasLockLoss p s
  | .casLinkAck p lseq => Sys2Proof.Machine.execCasLinkAck p lseq s
  | .casLinkNak p lseq => Sys2Proof.Machine.execCasLinkNak p lseq s
  | .casInterbyteTimeout p => Sys2Proof.Machine.execCasInterbyteTimeout p s
  | .casFrameInvalid p why lseq => Sys2Proof.Machine.execCasFrameInvalid p why lseq s
  | .casEnum p lseq path depth addr delay => Sys2Proof.Machine.execCasEnum p lseq path depth addr delay s
  | .casHello p lseq addr uid variant time delay path depth state refused => Sys2Proof.Machine.execCasHello p lseq addr uid variant time delay path depth state refused s
  | .casTimeSend => Sys2Proof.Machine.execCasTimeSend s
  | .casTime lseq value atSof => Sys2Proof.Machine.execCasTime lseq value atSof s
  | .casTimeAbsence => Sys2Proof.Machine.execCasTimeAbsence s
  | .casRail p lseq ends rail code => Sys2Proof.Machine.execCasRail p lseq ends rail code s
  | .casSub p lseq ends rail subscribe => Sys2Proof.Machine.execCasSub p lseq ends rail subscribe s
  | .casFault p lseq org src level safe stamp => Sys2Proof.Machine.execCasFault p lseq org src level safe stamp s
  | .casState p lseq org seq => Sys2Proof.Machine.execCasState p lseq org seq s
  | .casDom lseq on phase actTick => Sys2Proof.Machine.execCasDom lseq on phase actTick s
  | .domAct => Sys2Proof.Machine.execDomAct s
  | .domPhaseTimeout => Sys2Proof.Machine.execDomPhaseTimeout s
  | .casEqx lseq capTick cnt => Sys2Proof.Machine.execCasEqx lseq capTick cnt s
  | .casEqxRep p lseq org ok why => Sys2Proof.Machine.execCasEqxRep p lseq org ok why s
  | .casMgn lseq corner tick abort => Sys2Proof.Machine.execCasMgn lseq corner tick abort s
  | .casMgnRep p lseq org nmember npass nfail rail why => Sys2Proof.Machine.execCasMgnRep p lseq org nmember npass nfail rail why s
  | .casReset lseq dst => Sys2Proof.Machine.execCasReset lseq dst s
  | .casLost p lseq addrs => Sys2Proof.Machine.execCasLost p lseq addrs s
  | .casJoin lseq addr => Sys2Proof.Machine.execCasJoin lseq addr s
  | .orphanDelayExpiry => Sys2Proof.Machine.execOrphanDelayExpiry s
  | .casDomOn => Sys2Proof.Machine.execCasDomOn s
  | .casDomOff => Sys2Proof.Machine.execCasDomOff s
  | .casEqxGo cnt => Sys2Proof.Machine.execCasEqxGo cnt s
  | .casCtrlReset target => Sys2Proof.Machine.execCasCtrlReset target s
  | .hmpRead addr len crc => Sys2Proof.Machine.execHmpRead addr len crc s
  | .hmpWrite addr len payload crc => Sys2Proof.Machine.execHmpWrite addr len payload crc s
  | .hmpResend addr len crc => Sys2Proof.Machine.execHmpResend addr len crc s
  | .hmpChal addr len crc => Sys2Proof.Machine.execHmpChal addr len crc s
  | .hmpOpen addr len hmac crc => Sys2Proof.Machine.execHmpOpen addr len hmac crc s
  | .hmpClose addr len crc => Sys2Proof.Machine.execHmpClose addr len crc s
  | .hmpCsRise => Sys2Proof.Machine.execHmpCsRise s
  | .hmpInterbyteTimeout => Sys2Proof.Machine.execHmpInterbyteTimeout s
  | .hmpSessionIdleExpiry => Sys2Proof.Machine.execHmpSessionIdleExpiry s
  | .hmpNonceExpiry => Sys2Proof.Machine.execHmpNonceExpiry s
  | .hmpLockoutEnd => Sys2Proof.Machine.execHmpLockoutEnd s
  | .mcpLaneInService lane => Sys2Proof.Machine.execMcpLaneInService lane s
  | .mcpLaneLoss lane hdr => Sys2Proof.Machine.execMcpLaneLoss lane hdr s
  | .mcpKx blk nonce => Sys2Proof.Machine.execMcpKx blk nonce s
  | .mcpKeyTimeout => Sys2Proof.Machine.execMcpKeyTimeout s
  | .mcpAlarm blk index => Sys2Proof.Machine.execMcpAlarm blk index s
  | .mcpDrainAck blk => Sys2Proof.Machine.execMcpDrainAck blk s
  | .mcpFill blk => Sys2Proof.Machine.execMcpFill blk s
  | .mcpLctlAck n => Sys2Proof.Machine.execMcpLctlAck n s
  | .mcpLctlNak n => Sys2Proof.Machine.execMcpLctlNak n s
  | .mcpBlockTimeout blk => Sys2Proof.Machine.execMcpBlockTimeout blk s
  | .mcpAckTimeout => Sys2Proof.Machine.execMcpAckTimeout s
  | .mcpSilence => Sys2Proof.Machine.execMcpSilence s
  | .lnkPmbGo dev cmd => Sys2Proof.Machine.execLnkPmbGo dev cmd s
  | .jtagBypass => Sys2Proof.Machine.execJtagBypass s
  | .jtagIdcode => Sys2Proof.Machine.execJtagIdcode s
  | .jtagSamplePreload pads => Sys2Proof.Machine.execJtagSamplePreload pads s
  | .jtagExtest => Sys2Proof.Machine.execJtagExtest s
  | .jtagClamp => Sys2Proof.Machine.execJtagClamp s
  | .jtagHighz => Sys2Proof.Machine.execJtagHighz s
  | .trstNFall => Sys2Proof.Machine.execTrstNFall s
  | .dbgChal => Sys2Proof.Machine.execDbgChal s
  | .dbgAuth level hmac => Sys2Proof.Machine.execDbgAuth level hmac s
  | .dbgStat => Sys2Proof.Machine.execDbgStat s
  | .dbgReg addr write data => Sys2Proof.Machine.execDbgReg addr write data s
  | .dbgReset => Sys2Proof.Machine.execDbgReset s
  | .dbgOff => Sys2Proof.Machine.execDbgOff s
  | .dbgNonceExpiry => Sys2Proof.Machine.execDbgNonceExpiry s
  | .dbgLockoutEnd => Sys2Proof.Machine.execDbgLockoutEnd s
  | .ltModeOff t => Sys2Proof.Machine.execLtModeOff t s
  | .ltModePrbs t poly => Sys2Proof.Machine.execLtModePrbs t poly s
  | .ltModeNear t => Sys2Proof.Machine.execLtModeNear t s
  | .ltModeFar t => Sys2Proof.Machine.execLtModeFar t s
  | .ltInj t => Sys2Proof.Machine.execLtInj t s
  | .ltClr t => Sys2Proof.Machine.execLtClr t s
  | .ltCheckerLock t goodRun errors window => Sys2Proof.Machine.execLtCheckerLock t goodRun errors window s
  | .toProvisioned key => Sys2Proof.Machine.execToProvisioned key s
  | .toDeployed key => Sys2Proof.Machine.execToDeployed key s
  | .toReturned key => Sys2Proof.Machine.execToReturned key s
  | .toRetired key => Sys2Proof.Machine.execToRetired key s
  | .root key => Sys2Proof.Machine.execRoot key s
  | .arb key => Sys2Proof.Machine.execArb key s
  | .wdgFuse key win hwStart => Sys2Proof.Machine.execWdgFuse key win hwStart s
  | .lcOperationDone readBackOk => Sys2Proof.Machine.execLcOperationDone readBackOk s
  | .installSkey level => Sys2Proof.Machine.execInstallSkey level s
  | .installPair => Sys2Proof.Machine.execInstallPair s
  | .installCkey index => Sys2Proof.Machine.execInstallCkey index s
  | .eraseCkey index => Sys2Proof.Machine.execEraseCkey index s
  | .restore index => Sys2Proof.Machine.execRestore index s
  | .keyCmdDone => Sys2Proof.Machine.execKeyCmdDone s
  | .unwrapDone flaws => Sys2Proof.Machine.execUnwrapDone flaws s
  | .tamperPin => Sys2Proof.Machine.execTamperPin s
  | .tamperGlitch => Sys2Proof.Machine.execTamperGlitch s
  | .pwrToSummer => Sys2Proof.Machine.execPwrToSummer s
  | .pwrToAutumn => Sys2Proof.Machine.execPwrToAutumn s
  | .pwrToWinter => Sys2Proof.Machine.execPwrToWinter s
  | .pwrToMidwinter => Sys2Proof.Machine.execPwrToMidwinter s
  | .rungEntryStop => Sys2Proof.Machine.execRungEntryStop s
  | .winMidExpiry => Sys2Proof.Machine.execWinMidExpiry s
  | .wakeTExpiry => Sys2Proof.Machine.execWakeTExpiry s
  | .wake src => Sys2Proof.Machine.execWake src s
  | .rungExitDone => Sys2Proof.Machine.execRungExitDone s
  | .overtemp => Sys2Proof.Machine.execOvertemp s
  | .gpioPenWrite value => Sys2Proof.Machine.execGpioPenWrite value s
  | .gpioOutSet p bits => Sys2Proof.Machine.execGpioOutSet p bits s
  | .gpioOutClr p bits => Sys2Proof.Machine.execGpioOutClr p bits s
  | .gpioDirWrite p value => Sys2Proof.Machine.execGpioDirWrite p value s
  | .gpioPullWrite p value => Sys2Proof.Machine.execGpioPullWrite p value s
  | .gpioMirSelWrite k value => Sys2Proof.Machine.execGpioMirSelWrite k value s
  | .gpioLock p key mask => Sys2Proof.Machine.execGpioLock p key mask s
  | .gpioLockPairTimeout p => Sys2Proof.Machine.execGpioLockPairTimeout p s
  | .wakePinActive levels => Sys2Proof.Machine.execWakePinActive levels s
  | .pinLineEdge p pin level => Sys2Proof.Machine.execPinLineEdge p pin level s
  | .cntFreeze => Sys2Proof.Machine.execCntFreeze s
  | .cntThaw => Sys2Proof.Machine.execCntThaw s
  | .cntSnap => Sys2Proof.Machine.execCntSnap s
  | .cntSnapCapture => Sys2Proof.Machine.execCntSnapCapture s
  | .cntSnapDone => Sys2Proof.Machine.execCntSnapDone s
  | .cntLeafLoWrite ch j value => Sys2Proof.Machine.execCntLeafLoWrite ch j value s
  | .cntLeafHiWrite ch j value => Sys2Proof.Machine.execCntLeafHiWrite ch j value s
  | .cntScrub isl single double => Sys2Proof.Machine.execCntScrub isl single double s
  | .tpWindowEnd port => Sys2Proof.Machine.execTpWindowEnd port s
  | .inputLossComparatorRelease => Sys2Proof.Machine.execInputLossComparatorRelease s
  | .hsGateOn => Sys2Proof.Machine.execHsGateOn s
  | .ocBlankEnd ch => Sys2Proof.Machine.execOcBlankEnd ch s
  | .hmpEcmd cmd => Sys2Proof.Machine.execHmpEcmd cmd s
  | .ledgerKindReject blk kind group => Sys2Proof.Machine.execLedgerKindReject blk kind group s

end Sys2Proof.Machine
end

