-- ==== Sys2Proof/Machine/Drive.lean ====
section
/-! DEFINITION. What the device puts on its pins: the function a multiplexed pin performs (R499) and the drive of each output
(R71, R80 to R85, R116, R267, R446, R503, R506, R509, R511, R512). A drive follows from the state; nothing else reads it. -/

namespace Sys2Proof.Machine

/-- What a pin carries. -/
inductive Drive where
  /-- No drive and no pull: an input, a high-impedance output, an open-drain output that floats. -/
  | float
  /-- A pull of so many kΩ, up to VIO or down. -/
  | pull (up : Bool) (kohm : Nat)
  | low
  | high
  /-- A current out of the pin in pA, negative where it is sunk. -/
  | current (pA : Int)
  deriving DecidableEq, Repr

/-- The 100 kΩ pull-down of a pin that is parked or released. -/
def Drive.released : Drive := .pull false 100

/-- A digital output at a level: push-pull to VIO, or open-drain, which floats high. -/
def Drive.ofLevel (openDrain level : Bool) : Drive := if level then (if openDrain then .float else .high) else .low

/-- The configured pull of a pin: codes of R501. -/
def Drive.ofPull (code : Nat) : Drive := match code with | 1 => .pull false 100 | 2 => .pull true 100 | _ => .float

/-! ## Multiplexed pins (R71, R499) -/

/-- The functions of R499, in their order. -/
inductive PinFn where
  | park | release | scan | channel | alternate | gpio
  deriving DecidableEq, Repr

/-- Before configuration is loaded, in HALT and in recovery mode every multiplexed pin is parked (R71). -/
def State.pinsParked (s : State) : Bool := !s.configured

/-- The function that pin `i` of port `p` performs. -/
def State.pinFn (s : State) (p i : Nat) : PinFn :=
  if s.pinsParked then .park
  else if s.sys.vauxDown then .release
  else if s.scanHolds then .scan
  else if (s.port p).claim.testBit i then .channel
  else if p = 0 ∧ s.gpio.pen.testBit i then .alternate
  else .gpio

/-- The digital pins with an output, each with a cell of the boundary-scan chain (R462). -/
inductive Cell where
  | pad (p i : Nat)
  | en (n : Nat)
  | dis (n : Nat)
  | fault | alert | wdo
  deriving DecidableEq, Repr

/-- The place of a cell in the chain; the manual gives no order. -/
def Cell.index : Cell → Nat
  | .pad p i => 16 * p + i
  | .en n => 0x100 + 2 * n
  | .dis n => 0x101 + 2 * n
  | .fault => 0x400
  | .alert => 0x401
  | .wdo => 0x402

/-- What a pin carries under boundary scan: HIGHZ disables it, EXTEST and CLAMP drive the level of its cell, an open-drain output by its
low level alone. -/
def State.scanDrive (s : State) (c : Cell) (openDrain : Bool := false) : Drive :=
  match s.jtag.ir with
  | .highz => .float
  | _ => Drive.ofLevel openDrain (Config.scanCell s.jtag.loads c.index)

/-! ## Rail channels (R80 to R85, R267, R331) -/

/-- CH_CFG of channel `n` as its pins follow it: a load switches them at its end (R73, R389). -/
def State.pinCfg (s : State) (n : Nat) : Word := (s.chan n).sense.pinCfg

/-- The channel outputs are released to their pull-downs: parked, after a VAUX collapse, after a main-clock loss, and on a channel not
in use (R71, R76, R267, R498). -/
def State.chReleased (s : State) (n : Nat) : Bool :=
  s.pinsParked || s.sys.vauxDown || (!s.sys.mainClock && s.rungOk) || !wbit (s.pinCfg n) 0

/-- CHn_EN: push-pull or open-drain by EN_OD, asserted high or low by EN_POL (R81). -/
def State.enPin (s : State) (n : Nat) : Drive :=
  let c := s.chan n
  if s.chReleased n then .released
  else if s.scanHolds then s.scanDrive (.en n)
  else Drive.ofLevel (wbit (s.pinCfg n) 7) (c.sense.enNow s.now != wbit (s.pinCfg n) 6)

/-- CHn_DIS: open-drain, low when released and floating when asserted (R83). -/
def State.disPin (s : State) (n : Nat) : Drive :=
  if s.chReleased n then .released
  else if s.scanHolds then s.scanDrive (.dis n) true
  else if (s.chan n).sense.disNow s.now then .float else .low

/-- CHn_TRIM: high impedance, or a current of CODE × 0.390625 µA (R85). The pin lies outside the boundary-scan chain. -/
def State.trimPin (s : State) (n : Nat) : Drive :=
  let x := (s.chan n).sense
  if s.chReleased n then .released else if x.trimOn then .current (x.trim * 390625) else .float

/-- CHn_PG: an input, with a 10 kΩ pull-up where PG_PU asks for it (R82). -/
def State.pgPinPull (s : State) (n : Nat) : Drive :=
  if !s.pinsParked && wbit (s.pinCfg n) 0 && wbit (s.pinCfg n) 5 then .pull true 10 else .float

/-- The channel and pin that share the ball of pin `i` of the top port: EN where even, PG where odd (R497). -/
def State.shared (s : State) (i : Nat) : Drive :=
  let n := (match s.hw.variant with | .dz128 => 120 | .dz32 => 24) + i / 2
  if i % 2 = 0 then s.enPin n else s.pgPinPull n

/-! ## Ports (R503, R506, R509, R511, R512) -/

/-- The configured pull of a pin. -/
def State.pinPull (s : State) (p i : Nat) : Drive := Drive.ofPull (fld (s.port p).pull (2 * i) 2)

/-- The level of MIRRORk at its pin: held while the drives are latched (R511). -/
def State.mirrorLevel (s : State) (k : Nat) : Bool := if s.gpio.latched then s.gpio.mirHeld.testBit k else s.mirror k

/-- A port pin that is an output: an open-drain one at level 1 has its configured pull alone (R501, R505). -/
def State.portOut (s : State) (p i : Nat) (level : Bool) : Drive :=
  if level && (s.port p).od.testBit i then s.pinPull p i else Drive.ofLevel false level

/-- What pin `i` of port `p` carries. On a park tick its output is disabled and its pull is active (R503): that of an EN is the
pull-down, a PG drives nothing and has the pull of PG_PU. Before configuration is loaded a ball that a CHn_PG shares falls under two
rows of R71, multiplexed pins with their pull-down and CHn_PG without a pull: as a port pin it is pulled down here, as CHn_PG it floats
(`pgPinPull`; DESIGN CHOICE, notes/assumptions/148). -/
def State.padDrive (s : State) (p i : Nat) : Drive :=
  let x := s.port p
  match s.pinFn p i with
  | .park | .release => .released
  | .scan => if x.parked i s.now then s.pinPull p i else s.scanDrive (.pad p i)
  | .channel => if x.parked i s.now ∧ i % 2 = 0 then .released else s.shared i
  | .alternate => if x.parked i s.now || decide (i < 8) then s.pinPull p i else s.portOut p i (s.mirrorLevel (i - 8))
  | .gpio => if x.parked i s.now || !x.dir.testBit i then s.pinPull p i else s.portOut p i (x.out.testBit i)

/-! ## Dedicated pins (R71, R116, R267, R300, R329, R446, R541) -/

/-- HSGATE: driven to HSSRC, or ramping the HOLDUP input by so many V/s with the sense voltage held at or below so many µV. -/
inductive GateDrive where
  | source
  | ramp (vPerS limitUv : Nat)
  deriving DecidableEq, Repr

/-- HSGATE (R116): SLEW in steps of 0.25 V/ms, ILIM in steps of 100 µV. -/
def State.gatePin (s : State) : GateDrive :=
  if s.hsGate then .ramp (fld s.hs.cfg 0 8 * 250) (fld s.hs.cfg 16 10 * 100) else .source

/-- What a link-test target puts on its line (R464). -/
inductive LtTx where
  | normal
  | idle
  | retimed
  /-- A PRBS pattern from a generator of `len` bits with its second tap at `tap`, with so many bits of the present tick inverted. -/
  | pattern (len tap inverted : Nat)
  deriving DecidableEq, Repr

/-- Length and second tap of the polynomials, by POLY (R464). -/
def prbsTaps (poly : Nat) : Nat × Nat :=
  match poly with
  | 0 => (7, 6)
  | 1 => (15, 14)
  | 2 => (23, 18)
  | _ => (31, 28)

/-- The next bit of a PRBS pattern behind the bits `x`, bit 0 the latest, and the bits with it. -/
def prbsNext (poly x : Nat) : Bool × Nat :=
  let (n, k) := prbsTaps poly
  let b := x.testBit (n - 1) != x.testBit (k - 1)
  (b, (2 * x + b2n b) % 2 ^ n)

/-- What target `t` sends. -/
def State.ltSends (s : State) (t : Nat) : LtTx :=
  let x := tget {} s.lt t
  match x.mode with
  | 0 => .normal
  | 1 => .pattern (prbsTaps x.poly).1 (prbsTaps x.poly).2 (if x.injAt.1 = s.now then x.injAt.2 else 0)
  | 2 => .idle
  | _ => .retimed

/-- FAULT_N, push-pull: low while held, high while released, its pull-down alone while VAUX lies below the collapse floor (R300,
R541). -/
def State.faultPin (s : State) : Drive :=
  if s.sys.vauxDown || s.sys.phase == .por then .released
  else if s.scanHolds then s.scanDrive .fault
  else Drive.ofLevel false (!s.faultLow)
/-- ALERT_N, open-drain. -/
def State.alertPin (s : State) : Drive :=
  if s.scanHolds && !s.sys.vauxDown then s.scanDrive .alert true else if s.alertLow then .low else .float
/-- WDO, open-drain: a pulse is driven low (R328, R329). -/
def State.wdoPin (s : State) : Drive :=
  if s.scanHolds && !s.sys.vauxDown then s.scanDrive .wdo true else if s.wdg.wdoEnd.isSome then .low else .float
/-- The HMP data output is at high impedance until the port answers (R71). -/
def State.hmpDriven (s : State) : Bool := s.hmpUp
/-- The MCP lanes are electrically idle until a configuration is loaded (R71). -/
def State.mcpIdle (s : State) : Bool := s.pinsParked || !s.rungOk
/-- The PMBus host pins are released but for a transaction on the bus (R71). -/
def State.pmbReleased (s : State) : Bool := s.pinsParked || s.pmb.cur.isNone
/-- The cascade transmitters are idle until S3, which HALT never reaches (R71). -/
def State.casIdle (s : State) : Bool :=
  match s.sys.phase with
  | .s3 | .s4 | .s5 | .ready | .recovery => s.sys.vauxDown
  | _ => true

end Sys2Proof.Machine
end

