-- ==== Sys2Proof/Safety.lean ====
section
/-! DEFINITION. What holds of every well-kept state: the tables and the ENV store are in their canonical forms, so that equal
contents are equal data. Which commands may change which group of registers. -/

namespace Sys2Proof.Safety

open Sys2Proof.Machine

/-- The ENV store is in canonical form: addresses strictly rising, no byte listed that an unlisted address reads as (0x00),
and the same for the marker cells. -/
def Memory.wf (s : State) : Bool := tabWf (0 : Byte) s.env.cells && tabWf false s.env.marked

/-- The tables of channels, fault sources and counters are in canonical form. -/
def tablesWf (s : State) : Bool :=
  tabWf {} s.chans && tabWf {} s.flt.srcs && tabWf 0 s.cnt.leaf && tabWf 0 s.cnt.isl && tabWf 0 s.cnt.dev

/-! ## Which commands may change a group of registers

Each list names the commands whose effect, in some state, changes the group: a frame says that every other command leaves
it. -/

/-- The commands a device reset can take effect with (R52, R76 to R79). -/
def resets : Instr → Bool
  | .powerOnResetRelease | .vauxRecover | .orderlyResetComplete | .softResetTakeEffect _ | .mainClockRestart
  | .hmpCsRise => true
  | _ => false

/-- The commands that write any register the host or the debugger names (R439, R476). -/
def anyRegister : Instr → Bool
  | .hmpWrite _ _ _ _ | .dbgReg _ _ _ => true
  | _ => false

/-- The commands that load a configuration or sections of one (R69, R73, R390, R394). -/
def loads : Instr → Bool
  | .slotChoiceDone _ | .configLoadDone | .reloadDone _ | .rtApplyVerified _ => true
  | _ => false

/-- The commands that change pins, their ports and locks (15), beside those that reset, load or write any register: a timebase that is
set moves the end of a key pair, the end of a debug level ends a boundary scan, and time passes between the registers of a READ. -/
def writesPins : Instr → Bool
  | .casHello _ _ _ _ _ _ _ _ _ _ _ | .casTime _ _ _ | .jtagBypass | .jtagIdcode | .jtagSamplePreload _ | .jtagExtest
  | .jtagClamp | .jtagHighz | .trstNFall | .dbgChal | .dbgAuth _ _ | .dbgStat | .dbgReset | .dbgOff
  | .hmpRead _ _ _ | .lcOperationDone _ | .tamperGlitch | .tamperPin
  | .rungEntryStop | .rungExitDone | .gpioPenWrite _ | .gpioOutSet _ _ | .gpioOutClr _ _ | .gpioDirWrite _ _
  | .gpioPullWrite _ _ | .gpioMirSelWrite _ _ | .gpioLock _ _ _ | .gpioLockPairTimeout _ | .wakePinActive _
  | .pinLineEdge _ _ _ => true
  | _ => false

/-- The commands of the JTAG port (R462, R475 to R478); a timebase that is set moves its timers. -/
def writesJtag : Instr → Bool
  | .casHello _ _ _ _ _ _ _ _ _ _ _ | .casTime _ _ _ | .jtagBypass | .jtagIdcode | .jtagSamplePreload _ | .jtagExtest
  | .jtagClamp | .jtagHighz | .trstNFall | .dbgChal | .dbgAuth _ _ | .dbgStat | .dbgReset | .dbgOff
  | .dbgNonceExpiry | .dbgLockoutEnd => true
  | _ => false

/-- The commands of the link test (R463, R464). -/
def writesLinkTests : Instr → Bool
  | .ltModeOff _ | .ltModePrbs _ _ | .ltModeNear _ | .ltModeFar _ | .ltInj _ | .ltClr _
  | .ltCheckerLock _ _ _ _ => true
  | _ => false

/-- The commands of the margin campaign (R208, R209, R424); a lost subtree ends a part of it, also where a reload or Midwinter disables
its port, a timebase that is set moves its timer, and time passes between the registers of a READ. -/
def writesCampaign : Instr → Bool
  | .mgnCampGo _ _ | .campaignCorner | .campaignReport | .casAckTimeout _ | .casLockLoss _ | .casLinkAck _ _
  | .casLinkNak _ _ | .casFrameInvalid _ _ _ | .casHello _ _ _ _ _ _ _ _ _ _ _ | .casTime _ _ _ | .casMgn _ _ _ _
  | .casMgnRep _ _ _ _ _ _ _ _ | .casLost _ _ _ | .configLoadDone | .reloadDone _ | .winMidExpiry | .hmpRead _ _ _ => true
  | _ => false

/-- The commands of the configuration (11), and a READ, between whose registers time passes. -/
def writesConfig : Instr → Bool
  | .cfgLoad _ | .cfgApply | .hmpRead _ _ _ => true
  | _ => false

/-- The commands that reach the PMBus host (R457 to R461): its own, margining of a PMBus channel, and the end of a margin;
a timebase that is set moves its timers, and time passes between the registers of a READ. -/
def writesPmbus : Instr → Bool
  | .casHello _ _ _ _ _ _ _ _ _ _ _ | .casTime _ _ _ | .channelSample _ _ _ | .pmbusPoll _
  | .pmbusTransactionDone _ _ | .pmbusRetry | .pmbusStretchTimeout | .lnkPmbGo _ _ | .mgnNominal _
  | .mgnHigh _ | .mgnLow _ | .mgnTarget _ _ | .mgnOlcode _ _ | .marginServoUpdate _ | .campaignCorner
  | .campaignReport | .chApply _ | .hmpRead _ _ _ | .pwrToSummer | .pwrToAutumn | .pwrToWinter | .pwrToMidwinter => true
  | _ => false

/-- The commands that put a line into the ENV store or clear lines of it (10, R469, R474), beside those that reset or
write any register. -/
def writesStore : Instr → Bool
  | .journalReplayDone _ | .envLineWriteDone | .journalRecordAppend | .envHarvest | .harvestDone _
  | .bbxCaptureCommit | .toReturned _ | .toRetired _ | .eraseCkey _ | .keyCmdDone => true
  | _ => false

end Sys2Proof.Safety
end

