-- ==== Sys2Proof/Certificates/Slice0/Obligations.lean ====
section
/-! DEFINITION. The statements for the provers. -/

open Sys2Proof Sys2Proof.Machine

/-- A step with a command at the front of the queue is that command's effect on the state with the queue's rest. -/
def Obligations.StepRunsFrontCommand : Prop :=
  ∀ (s : State) (c : Instr) (rest : List Instr), s.pending = c :: rest →
    step s = exec c { s with pending := rest }

/-- With no command waiting, a step lets time pass: what falls at the end of the tick takes effect, and the timebase goes on by one
tick while the main clock runs and no slew is owed, by one RC period while it stands, and not at all in the power-on reset (R21, R27).
The settled tick then lies behind the timebase, by at most 40 ticks (R32, R33). That an idle step does this is the model's choice
(notes/assumptions/4). -/
def Obligations.IdleStepPassesOneTick : Prop :=
  (∀ s : State, s.pending = [] →
    step s = .next (tickPass s.endTick) ∧ s.endTick.sys.tb = s.sys.tb ∧ s.endTick.pending = [] ∧ s.endTick.hw = s.hw) ∧
  (∀ s : State, (tickPass s).hw = s.hw ∧ (tickPass s).pending = s.pending ∧ (tickPass s).hmp = s.hmp
    ∧ (tickPass s).cfg = { s.cfg with irq := (tickPass s).cfg.irq }
    ∧ (∀ a : Nat, (tickPass s).env.byteAt a = s.env.byteAt a)
    ∧ (∀ n : Nat, ((tickPass s).chan n).rail = (s.chan n).rail ∧ ((tickPass s).chan n).ch = (s.chan n).ch)
    ∧ (s.sys.phase = .por → tickPass s = s)
    ∧ (s.sys.phase ≠ .por → s.sys.mainClock = true → s.cas.slew = 0 → (tickPass s).sys.tb = s.sys.tb + 1)
    ∧ (s.sys.phase ≠ .por → s.sys.mainClock = false →
        (tickPass s).sys.tb = s.sys.tb + 3051 ∨ (tickPass s).sys.tb = s.sys.tb + 3052)
    ∧ (s.sys.phase ≠ .por → (tickPass s).sys.tb ≤ (tickPass s).sys.settled + 40)
    ∧ (s.sys.settled < (tickPass s).sys.tb → s.sys.phase ≠ .por → (tickPass s).sys.settled < (tickPass s).sys.tb))

/-- The canonical form of the ENV store and of the tables of channels, fault sources and counters, at reset: nothing is listed. That the
store of `State.reset` is empty is the model's choice (DESIGN CHOICE, notes/assumptions/88). -/
def Obligations.StoreFormAtReset : Prop :=
  Safety.Memory.wf State.reset = true ∧ State.reset.env.cells = [] ∧ State.reset.env.marked = [] ∧ Safety.tablesWf State.reset = true

/-- Every step keeps the ENV store in its canonical form: addresses rising, no byte listed that an unlisted address reads as,
the markers of the lines alike. -/
def Obligations.StoreFormKept : Prop :=
  ∀ s t : State, Safety.Memory.wf s = true → step s = .next t → Safety.Memory.wf t = true

/-- No step takes the timebase back, but for the release of the power-on reset, from which it counts anew (R22, R28). -/
def Obligations.TimebaseNeverBack : Prop :=
  ∀ s t : State, s.pending.head? ≠ some .powerOnResetRelease → step s = .next t → s.sys.tb ≤ t.sys.tb

/-- R18: a lost island stays lost until the next device reset, even if it answers again. No command but one a device reset can
take effect with ends a loss, and after one of those either the reset has begun S1 or the loss stands. -/
def Obligations.LostIslandsStayLost : Prop :=
  (∀ (c : Instr) (s t : State) (i : Nat), Safety.resets c = false → exec c s = .next t → s.islLost i = true →
    t.islLost i = true) ∧
  (∀ (s t : State) (i : Nat), step s = .next t → s.islLost i = true → t.islLost i = true ∨ t.sys.phase = .s1) ∧
  (∀ s t : State, s.pending = [] → step s = .next t → t.sys.lost = s.sys.lost)

/-- The queue is the sender's: no command's effect touches the commands that still wait, and a step takes away exactly the
front one. -/
def Obligations.QueueFrame : Prop :=
  (∀ (c : Instr) (s t : State), exec c s = .next t → t.pending = s.pending) ∧
  (∀ s t : State, step s = .next t → t.pending = s.pending.tail)

/-- Fuses are one-time programmable and only a fuse operation writes them (R62, R466, R467, R469): its end does, or a reset that cuts it
short, which leaves the array as `fusesLeft` says (R470). Every other command leaves the fuse array, no command changes the variant, and
no blown bit of LCS in copy A reads 0 afterwards. -/
def Obligations.FusesFrame : Prop :=
  (∀ (c : Instr) (s t : State), exec c s = .next t → (∀ b : Bool, c ≠ .lcOperationDone b) →
    t.hw = s.hw ∨ (Safety.resets c = true ∧ t.hw = { s.hw with fuses := s.fusesLeft })) ∧
  (∀ s : State, s.sec.lcOp = none → s.fusesLeft = s.hw.fuses) ∧
  (∀ (c : Instr) (s t : State), exec c s = .next t → t.hw.variant = s.hw.variant
    ∧ (∀ k : Nat, s.hw.fuses.lcs.a.testBit k = true → t.hw.fuses.lcs.a.testBit k = true)) ∧
  (∀ s t : State, step s = .next t → (∀ k : Nat, s.hw.fuses.lcs.a.testBit k = true → t.hw.fuses.lcs.a.testBit k = true))

/-- The frame of the ENV store (10): a command that is no writer of lines, resets nothing and writes no register of the host's
choosing leaves every byte and every marker of the store as it was. -/
def Obligations.StoreFrame : Prop :=
  ∀ (c : Instr) (s t : State), Safety.writesStore c = false → Safety.resets c = false → Safety.anyRegister c = false →
    exec c s = .next t →
    (∀ a : Nat, t.env.byteAt a = s.env.byteAt a) ∧ (∀ a : Nat, tget false t.env.marked a = tget false s.env.marked a)

/-- The frame of the pins, the GPIO ports (15) and the JTAG port (R462, R475 to R478). -/
def Obligations.PinsAndJtagFrame : Prop :=
  (∀ (c : Instr) (s t : State), Safety.writesPins c = false → Safety.loads c = false → Safety.resets c = false →
    Safety.anyRegister c = false → exec c s = .next t → t.gpio = s.gpio) ∧
  (∀ (c : Instr) (s t : State), Safety.writesJtag c = false → Safety.resets c = false →
    Safety.anyRegister c = false → exec c s = .next t → t.jtag = s.jtag)

/-- The frame of the configuration status (11), the PMBus host (R457 to R461), the margin campaign (R208, R424) and the link
tests (R463, R464). -/
def Obligations.ConfigBusCampaignFrame : Prop :=
  (∀ (c : Instr) (s t : State), Safety.writesConfig c = false → Safety.loads c = false → Safety.resets c = false →
    Safety.anyRegister c = false → exec c s = .next t → t.cfg = s.cfg) ∧
  (∀ (c : Instr) (s t : State), Safety.writesPmbus c = false → Safety.loads c = false → Safety.resets c = false →
    Safety.anyRegister c = false → exec c s = .next t → t.pmb = s.pmb) ∧
  (∀ (c : Instr) (s t : State), Safety.writesCampaign c = false → Safety.resets c = false →
    Safety.anyRegister c = false → exec c s = .next t → t.camp = s.camp) ∧
  (∀ (c : Instr) (s t : State), Safety.writesLinkTests c = false → Safety.resets c = false →
    Safety.anyRegister c = false → exec c s = .next t → t.lt = s.lt)

/-- R1: SYS_ID[3:0] reads 0x1 on the DZ-128 and 0x2 on the DZ-32, and no other value. -/
def Obligations.VariantReadsOneOrTwo : Prop :=
  ∀ s : State, (s.hw.variant = .dz128 → fld (s.blkReg .sys 0) 0 4 = 1) ∧ (s.hw.variant = .dz32 → fld (s.blkReg .sys 0) 0 4 = 2)
    ∧ (fld (s.blkReg .sys 0) 0 4 = 1 ∨ fld (s.blkReg .sys 0) 0 4 = 2)

/-- R22: the timebase is 0 after a power-on reset; no other reset clears or changes it. -/
def Obligations.TimebaseOverResets : Prop :=
  (∀ s : State, s.sys.phase = .por ∨ s.sys.vauxDown = true →
    ∃ t, exec .powerOnResetRelease s = .next t ∧ t.sys.tb = 0 ∧ t.sys.phase = .s1) ∧
  (∀ (c : Instr) (s t : State), Safety.resets c = true → c ≠ .powerOnResetRelease → exec c s = .next t → t.sys.tb = s.sys.tb)

/-- After R79: a POR sets the POR bit of SYS_RST_CAUSE and clears all the others; any other cause sets its own bit. That the requests
that wait (`pendCause`) set their bits with whichever reset comes first is the model's reading (DEDUCED, notes/assumptions/48), so the
clauses of the other causes join them. The register survives every reset but the POR. -/
def Obligations.ResetCauseBits : Prop :=
  (∀ s : State, s.sys.phase = .por ∨ s.sys.vauxDown = true →
    ∃ t, exec .powerOnResetRelease s = .next t ∧ t.sys.rstCause = 1) ∧
  (∀ s : State, s.sys.vauxDown = true → ∃ t, exec .vauxRecover s = .next t ∧
    t.sys.rstCause = Nat.lor (Nat.lor s.sys.rstCause 2) s.pendCause) ∧
  (∀ s : State, s.sys.mainClock = false → s.rungOk = true → s.s2Done = true → s.sys.vauxDown = false →
    ∃ t, exec .mainClockRestart s = .next t ∧ t.sys.rstCause = Nat.lor (Nat.lor s.sys.rstCause 4) s.pendCause) ∧
  (∀ (s : State) (p : ResetPend), s.sys.pend = some p → s.resetWaits = false →
    ∃ t, exec .orderlyResetComplete s = .next t ∧ t.sys.rstCause = Nat.lor s.sys.rstCause s.pendCause ∧
      Nat.lor s.pendCause p.cause = s.pendCause) ∧
  (∀ (s : State) (csRise : Bool) (t : Nat), s.sys.softAt = some t → csRise = true ∨ t ≤ s.now → s.resetWaits = false →
    ∃ u, exec (.softResetTakeEffect csRise) s = .next u ∧ u.sys.rstCause = Nat.lor s.sys.rstCause s.pendCause ∧
      s.pendCause.testBit 4 = true) ∧
  (∀ (s : State) (cause k : Nat), s.sys.rstCause.testBit k = true → (s.devReset cause).sys.rstCause.testBit k = true)

/-- After R36, R43 and R44: a view requested with MODE = 0 has the capture tick 16 after the write's; one requested while BUSY is 1 is
refused with BUSY and the pending request stays as it is; in Winter and Midwinter, where no view is pending, it is refused with RUNG.
That BUSY and RUNG come before LATE and FAR is the model's choice (DESIGN CHOICE, notes/assumptions/93), and that RUNG answers without a
session its reading (DEDUCED, notes/assumptions/94). -/
def Obligations.ViewRequestCodes : Prop :=
  (∀ (s : State) (l : Level) (cnt : Bool), s.writer 0x20 .operator = some l → s.viewBusy = false → s.rungOk = true →
    ∃ t, exec (.viewReqNow cnt) s = .next t ∧ t.sys.viewReq = some { at_ := s.now + 16, cnt := cnt, eqx := false }
      ∧ t.sys.viewCode = 0) ∧
  (∀ (s : State) (l : Level) (cnt : Bool), s.writer 0x20 .operator = some l → s.viewBusy = true → s.rungOk = true →
    exec (.viewReqNow cnt) s = .next { s with sys := { s.sys with viewCode := 1, irq := Irq.set s.sys.irq 1 } }
    ∧ exec (.viewReqAt cnt) s = .next { s with sys := { s.sys with viewCode := 1, irq := Irq.set s.sys.irq 1 } }) ∧
  (∀ (s : State) (cnt : Bool), s.viewBusy = false → s.rungOk = false → s.configured = true ∨ s.sys.phase = .recovery →
    s.sys.vauxDown = false →
    exec (.viewReqNow cnt) s = .next { s with sys := { s.sys with viewCode := 4, irq := Irq.set s.sys.irq 1 } }
    ∧ exec (.viewReqAt cnt) s = .next { s with sys := { s.sys with viewCode := 4, irq := Irq.set s.sys.irq 1 } })

/-- R165: a read of SEQ_TLOG_ENT returns the oldest entry, removes it and captures its stamp; an empty log shows VALID = 0 and
loses nothing; SEQ_TLOG_STAT.CLR empties the log and clears OVF. -/
def Obligations.TransitionLogAccess : Prop :=
  (∀ (s : State) (e : TEntry) (r : List TEntry), s.hmp.session.isSome = true → s.hmpUp = true →
    s.notReady 0x2060 false = false → s.rungOk = true → s.islLost (islServing 0x2060) = false → s.seq.tlog = e :: r →
    ∃ t, exec .seqTlogRead s = .next t ∧ s.blkReg .seq 0x060 = e.word ∧ t = { s with seq := { s.seq with tlog := r, tlogTs := e.stamp } }
      ∧ t.blkReg .seq 0x064 = lo32 e.stamp ∧ fld e.word 31 1 = 1) ∧
  (∀ s : State, s.seq.tlog = [] → exec .seqTlogRead s = .next s ∧ fld (s.blkReg .seq 0x060) 31 1 = 0) ∧
  (∀ (s : State) (l : Level), s.writer 0x2068 .operator = some l →
    exec .seqTlogClr s = .next { s with seq := { s.seq with tlog := [], tlogOvf := false } })

/-- After R316: in KEY mode a write of WDG_ANS or WDG_SVC, in QA mode a write of WDG_KEY is refused with CODE = MODE and raises no
source. A stopped watchdog refuses all three with STOPPED instead (R309), and on the tick of an expiry, which these clauses leave out,
the code is that of the expiry: the model's choice (DESIGN CHOICE, notes/assumptions/30). -/
def Obligations.WatchdogModeRefusals : Prop :=
  (∀ (s : State) (l : Level) (i : BitVec 3) (a v k : BitVec 16), s.writer 0x30014 .user = some l → s.writer 0x30018 .user = some l →
    s.writer 0x3001C .user = some l → s.wdg.run = false →
    exec (.wdgAns i a) s = .next (s.wdgRefuse 0xC) ∧ exec (.wdgSvc v) s = .next (s.wdgRefuse 0xC)
      ∧ exec (.wdgKey k) s = .next (s.wdgRefuse 0xC)) ∧
  (∀ (s : State) (l : Level) (i : BitVec 3) (a : BitVec 16), s.writer 0x30014 .user = some l → s.wdgCatch = s →
    s.wdg.expAt ≠ some s.now → s.wdg.run = true → s.wdg.qa = false →
    exec (.wdgAns i a) s = .next { s with wdg := { s.wdg with code := 7, irq := Irq.set s.wdg.irq 2 } }) ∧
  (∀ (s : State) (l : Level) (v : BitVec 16), s.writer 0x30018 .user = some l → s.wdgCatch = s →
    s.wdg.expAt ≠ some s.now → s.wdg.run = true → s.wdg.qa = false →
    exec (.wdgSvc v) s = .next { s with wdg := { s.wdg with code := 7, irq := Irq.set s.wdg.irq 2 } }) ∧
  (∀ (s : State) (l : Level) (k : BitVec 16), s.writer 0x3001C .user = some l → s.wdgCatch = s → s.keyEnds = s →
    s.wdg.expAt ≠ some s.now → s.wdg.run = true → s.wdg.qa = true →
    exec (.wdgKey k) s = .next { s with wdg := { s.wdg with code := 7, irq := Irq.set s.wdg.irq 2 } })

/-- R490, the checks of PWR_CTRL in their order: SESSION, SAME, BUSY, STATE. -/
def Obligations.PowerRequestChecks : Prop :=
  ∀ (s : State) (l : Level) (r : Rung) (c : Instr),
    (r = .summer ∧ c = .pwrToSummer) ∨ (r = .autumn ∧ c = .pwrToAutumn) ∨ (r = .winter ∧ c = .pwrToWinter)
      ∨ (r = .midwinter ∧ c = .pwrToMidwinter) →
    s.writer 0x1004 .user = some l →
    (l.ge .operator = false → exec c s = .next (s.pwrRefuse 1)) ∧
    (l.ge .operator = true → s.pwr.rung = r → exec c s = .next (s.pwrRefuse 2)) ∧
    (l.ge .operator = true → s.pwr.rung ≠ r → s.pwr.entry.isSome = true ∨ s.pwr.exit.isSome = true →
      exec c s = .next (s.pwrRefuse 3)) ∧
    (l.ge .operator = true → s.pwr.rung ≠ r → s.pwr.entry = none → s.pwr.exit = none → r = .winter ∨ r = .midwinter →
      s.canSleep = false → exec c s = .next (s.pwrRefuse 4)) ∧
    (∀ k : Nat, (s.pwrRefuse k).pwr.code = k ∧ (s.pwrRefuse k).pwr.rung = s.pwr.rung ∧ (s.pwrRefuse k).chans = s.chans
      ∧ (s.pwrRefuse k).seq = s.seq)

/-- R466: the lifecycle state is the highest group of the LCS field with a blown bit, BLANK with none; SEC_STAT.LCS shows it. -/
def Obligations.LifecycleFromFuses : Prop :=
  ∀ s : State, s.sys.taken.lcs < 65536 →
    (s.lcs = .retired ↔ ∃ k, 12 ≤ k ∧ k < 16 ∧ s.sys.taken.lcs.testBit k = true) ∧
    (s.lcs = .returned ↔ (∀ k, 12 ≤ k → s.sys.taken.lcs.testBit k = false) ∧ ∃ k, 8 ≤ k ∧ k < 12 ∧ s.sys.taken.lcs.testBit k = true) ∧
    (s.lcs = .deployed ↔ (∀ k, 8 ≤ k → s.sys.taken.lcs.testBit k = false) ∧ ∃ k, 4 ≤ k ∧ k < 8 ∧ s.sys.taken.lcs.testBit k = true) ∧
    (s.lcs = .provisioned ↔ (∀ k, 4 ≤ k → s.sys.taken.lcs.testBit k = false) ∧ ∃ k, k < 4 ∧ s.sys.taken.lcs.testBit k = true) ∧
    (s.lcs = .blank ↔ s.sys.taken.lcs = 0) ∧
    fld (s.blkReg .sec 0) 0 4 = (match s.lcs with | .blank => 0 | .provisioned => 1 | .deployed => 2 | .returned => 3 | .retired => 4)

/-- The frame of a line write (R333, R337, R472, R473): a host line write and a key command's line write store the 64 bytes of
their line, which reads as written, and leave every byte outside it as it read. -/
def Obligations.LineWriteFrame : Prop :=
  (∀ (s t : State) (o : AccOp) (b : Nat), s.env.acc = some o → exec .envLineWriteDone s = .next t → b < o.line ∨ o.line + 64 ≤ b →
    t.env.byteAt b = s.env.byteAt b) ∧
  (∀ (s : State) (o : AccOp) (g : Nat), s.env.acc = some o → o.granted = some g → g + lineTime ≤ s.now → s.ctrlUp = true →
    o.line % 64 = 0 → o.bytes.length = 64 → ∃ t, exec .envLineWriteDone s = .next t ∧ t.env.lineAt o.line = o.bytes ∧ t.env.acc = none
      ∧ t = { s with env := t.env }) ∧
  (∀ (s t : State) (a b : Nat) (l : List (BitVec 8)), s.sec.keyBusy = some (a, l) → exec .keyCmdDone s = .next t →
    b < a ∨ a + 64 ≤ b → t.env.byteAt b = s.env.byteAt b) ∧
  (∀ (s : State) (a : Nat) (l : List (BitVec 8)), s.sec.keyBusy = some (a, l) → s.ctrlUp = true → s.rungOk = true → a % 64 = 0 →
    l.length = 64 → ∃ t, exec .keyCmdDone s = .next t ∧ t.env.lineAt a = l ∧ t.sec.keyBusy = none)

/-- The frame of the commands that act on one group of registers alone: everything else in the state is as it was. -/
def Obligations.OneGroupCommandsFrame : Prop :=
  (∀ (c : Instr) (s t : State), exec c s = .next t →
    (∃ p b, c = .gpioOutSet p b) ∨ (∃ p b, c = .gpioOutClr p b) ∨ (∃ p v, c = .gpioDirWrite p v)
      ∨ (∃ k v, c = .gpioMirSelWrite k v) ∨ (∃ p k m, c = .gpioLock p k m) ∨ (∃ p, c = .gpioLockPairTimeout p)
      ∨ (∃ p n l, c = .pinLineEdge p n l) → t = { s with gpio := t.gpio }) ∧
  (∀ (c : Instr) (s t : State), exec c s = .next t →
    c = .cntSnapCapture ∨ c = .cntSnapDone ∨ (∃ n j v, c = .cntLeafLoWrite n j v) ∨ (∃ p, c = .tpWindowEnd p) →
    t = { s with cnt := t.cnt }) ∧
  (∀ (c : Instr) (s t : State), exec c s = .next t → c = .cntFreeze ∨ c = .cntThaw ∨ c = .cntSnap →
    t = { s with cnt := t.cnt, env := t.env } ∧ t.env.cells = s.env.cells ∧ t.env.marked = s.env.marked) ∧
  (∀ (c : Instr) (s t : State), exec c s = .next t → c = .seqTlogRead ∨ c = .seqTlogClr ∨ (∃ d, c = .seqSpringCtlWrite d) →
    t = { s with seq := t.seq }) ∧
  (∀ (c : Instr) (s t : State), exec c s = .next t → c = .fltLogRead ∨ c = .fltLogClr ∨ (∃ i, c = .sourceLevelDecay i) →
    t = { s with flt := t.flt }) ∧
  (∀ (c : Instr) (s t : State), exec c s = .next t → (∃ l, c = .installSkey l) ∨ (∃ i, c = .installCkey i) →
    t = { s with sec := t.sec }) ∧
  (∀ (c : Instr) (s t : State), exec c s = .next t → c = .wdgWindowOpen ∨ c = .wdgStart ∨ c = .wdoPulseEnd →
    t = { s with wdg := t.wdg }) ∧
  (∀ (c : Instr) (s t : State), exec c s = .next t → c = .hmpNonceExpiry ∨ c = .hmpLockoutEnd → t = { s with hmp := t.hmp }) ∧
  (∀ (c : Instr) (s t : State), exec c s = .next t → c = .dbgNonceExpiry ∨ c = .dbgLockoutEnd → t = { s with jtag := t.jtag }) ∧
  (∀ (c : Instr) (s t : State), exec c s = .next t → c = .envLineWriteDone → t = { s with env := t.env })

/-- The frame of the threshold and lock commands of a channel (R105 to R109): only that channel changes, and of it neither the
configuration it was loaded with nor the state of its rail. An APPLY has a statement of its own (ThresholdCommandsComplete). -/
def Obligations.ChannelCommandsFrame : Prop :=
  ∀ (c : Instr) (n : Nat) (s t : State), exec c s = .next t →
    (∃ r v, c = .thresholdStageWrite n r v) ∨ c = .chDiscard n ∨ (∃ k, c = .chLockKey n k)
      ∨ c = .chLockPairTimeout n ∨ (∃ k v, c = .comparatorRelease n k v) →
    t = { s with chans := t.chans } ∧ (∀ m, m ≠ n → t.chan m = s.chan m) ∧ (t.chan n).ch.cfg = (s.chan n).ch.cfg
      ∧ (t.chan n).rcfg = (s.chan n).rcfg ∧ (t.chan n).rail = (s.chan n).rail

/-- The state at reset: in the power-on reset with the timebase at 0, nothing configured, no session, no pending command, every
log empty and no island lost. Registers the spec gives no reset value take the values of notes/assumptions (1, 2, 3). -/
def Obligations.StateAtReset : Prop :=
  State.reset.pending = [] ∧ State.reset.sys.phase = .por ∧ State.reset.sys.tb = 0 ∧ State.reset.sys.mainClock = false
    ∧ State.reset.sys.lost = 0 ∧ State.reset.chans = [] ∧ State.reset.flt.log = [] ∧ State.reset.flt.srcs = []
    ∧ State.reset.seq.tlog = [] ∧ State.reset.hmp.session = none ∧ State.reset.hld.entries = [] ∧ State.reset.wdg.run = false
    ∧ State.reset.pwr.rung = .summer ∧ State.reset.sec.dbg = .off ∧ State.reset.cfg.loaded = false
    ∧ State.reset.cnt.leaf = [] ∧ State.reset.mcp.link = .down
    ∧ ∃ t, exec .powerOnResetRelease State.reset = .next t ∧ t.sys.phase = .s1 ∧ t.sys.rstCause = 1 ∧ t.sys.tb = 0

/-- Completion, start-up (R52 to R61, R67, R69, R73): each stage ends on its event, in its phase. S1 ends in S2, or in HALT
where a fuse field has no sound copy; HALT completes S2 too. A tamper event of S1 or S2 has its safe
state at the end of S2 (notes/assumptions/149). A reload's S5 is stated with the configuration. -/
def Obligations.StartUpStagesComplete : Prop :=
  (∀ s : State, s.sys.phase = .por ∨ s.sys.vauxDown = true →
    ∃ t, exec .powerOnResetRelease s = .next t ∧ t.sys.phase = .s1 ∧ t.sys.tb = 0 ∧ t.sys.mainClock = false
      ∧ t.sys.vauxDown = false ∧ t.hmp.session = none ∧ t.hw = { s.hw with fuses := s.fusesLeft } ∧ t.pending = s.pending) ∧
  (∀ (s : State) (badA badB : BitVec 8) (strap : Bool), s.sys.phase = .s1 → s.sys.vauxDown = false →
    ∃ t, exec (.fuseReadDone badA badB strap) s = .next t ∧ t.sys.strap = strap
      ∧ t.sys.phase = (if (s.hw.fuses.taken badA badB).all Option.isSome then .s2 else .halt)
      ∧ t.sys.haltHold = (s.sys.haltHold || !(s.hw.fuses.taken badA badB).all Option.isSome)
      ∧ t.sys.taken = takenOf (s.hw.fuses.taken badA badB) badA.toNat ∧ t.chans = s.chans ∧ t.env = s.env ∧ t.hmp = s.hmp) ∧
  (∀ (s : State) (vio33 : Bool), s.sys.phase = .s2 ∨ s.sys.phase = .halt → s.s2Done = false → s.sys.vauxDown = false →
    ∃ t, exec (.bootS2Done vio33) s = .next (match s.pwr.tamperWake with
        | some u => (t.safeEnter 2047 u).settle t.now
        | none => t)
      ∧ t.pwr = { s.pwr with tamperWake := none } ∧ t.sys.phase = (if s.sys.phase = .halt then .halt else .s3)
      ∧ t.sys.tb = s.sys.tb + (rcStep s.sys.rcAcc).1 ∧ t.sys.mainClock = true ∧ t.sys.vio33 = vio33
      ∧ t.wdg.run = (s.wdg.run || s.sys.taken.hwStart) ∧ t.wdg.armed = true ∧ t.env = s.env) ∧
  (∀ (s : State) (f : LineFlaws), s.sys.phase = .s3 → s.sys.mainClock = true → s.sys.vauxDown = false →
    ∃ t u : State, t = s.replay f ∧ u = { t with
        sys := { t.sys with phase := .s4 }, env := { t.env with run := t.env.run + 1, countDirty := [] }, cnt := t.cnt.totals } ∧
      exec (.journalReplayDone f) s = .next ((u.record 1 0x01 0 u.now
        [(16, leBytes 4 u.sys.rstCause), (20, leBytes 1 u.sys.jrnl), (24, leBytes 4 u.env.hours), (28, leBytes 4 u.env.run)]
          ).harvestAuto 0)) ∧
  (∀ (s : State) (f : LineFlaws), s.sys.phase = .s4 → s.reloading = false → s.ctrlUp = true →
    ∃ t, exec (.slotChoiceDone f) s = .next t ∧
      (∀ (r : State) (k : Nat), s.chooseSlot f true [1, 2] = (r, some k) →
        t.sys.phase = .s5 ∧ t.sys.slot = k ∧ t.cfg = (r.loadImg k).cfg ∧ t.chans = (r.loadImg k).chans) ∧
      (∀ r : State, s.chooseSlot f true [1, 2] = (r, none) → t = r.enterRecovery)) ∧
  (∀ s : State, s.sys.phase = .s5 → s.reloading = false → s.ctrlUp = true → s.sampled = true →
    ∃ u : State, u = { s with
        sys := { s.sys with phase := .ready, bootTime := s.now }
        cfg := { s.cfg with op := 3, code := 0, loaded := true } } ∧
      exec .configLoadDone s = .next (u.firstLoad.configure s true).enterReady)

/-- Completion, device resets (R22, R76 to R79, R267, R549): VAUX, main clock, RESET_N, the soft reset and the reset that has
waited. A device reset clears the session, the channels and the sequencer, begins S1 and keeps the timebase, the hardware and the
cause bits. That the bits of requests that wait come with it is the model's reading (DEDUCED, notes/assumptions/48), that channels keep
what the outside world holds, their PG pins among it, its choice (notes/assumptions/49). -/
def Obligations.DeviceResetsComplete : Prop :=
  (∀ s : State, s.sys.phase ≠ .por → s.sys.vauxDown = false →
    ∃ t, exec .vauxCollapse s = .next t ∧ t = ({ s.release with sys := { s.release.sys with
      vauxDown := true, mainClock := false, rstCause := Nat.lor s.release.sys.rstCause 2 } }).privEvent 4 s.release.now) ∧
  (∀ s : State, s.sys.vauxDown = true → exec .vauxRecover s = .next (s.devReset 2)) ∧
  (∀ s : State, s.sys.mainClock = false → s.rungOk = true → s.s2Done = true → s.sys.vauxDown = false →
    exec .mainClockRestart s = .next (s.devReset 4)) ∧
  (∀ (s u : State), s.sys.phase ≠ .por → s.sys.vauxDown = false → s.sys.pend = none →
    u = { s with sys := { s.sys with pend := some { cause := 8, since := s.now } } } →
    exec .resetNFilterExpiry s = .next (if s.running = true ∧ s.railsOff = false then
      (((u.setCause fun c => { c with reset := true }).admission s.now []).drainStart 4 s.now).settle s.now else u)) ∧
  (∀ (s : State) (p : ResetPend), s.sys.phase ≠ .por → s.sys.vauxDown = false → s.sys.pend = some p →
    exec .resetNFilterExpiry s = .next { s with sys := { s.sys with pend := some { p with cause := Nat.lor p.cause 8 } } }) ∧
  (∀ (s : State) (p : ResetPend), s.sys.pend = some p → s.resetWaits = false →
    exec .orderlyResetComplete s = .next (s.devReset p.cause)) ∧
  (∀ (s : State) (l : Level), s.writer 0x64 .user = some l → l.ge .owner = true → s.railsOff = true →
    ∃ t, exec (.sysRstCtrlSoft 0x5D1E#16) s = .next t ∧ t.sys.rstCode = 0 ∧ t.sys.softAt = some (s.now + 10000)
      ∧ t.sys.phase = s.sys.phase ∧ t.hmp = s.hmp ∧ t.env = s.env) ∧
  (∀ (s : State) (csRise : Bool) (t : Nat), s.sys.softAt = some t → csRise = true ∨ t ≤ s.now → s.resetWaits = false →
    ∃ u, exec (.softResetTakeEffect csRise) s = .next u ∧ u.sys.phase = .s1 ∧ u.sys.tb = s.sys.tb
      ∧ u.sys.rstCause = Nat.lor s.sys.rstCause s.pendCause ∧ u.hmp.session = none) ∧
  (∀ (s : State) (cause : Nat), (s.devReset cause).sys.phase = .s1 ∧ (s.devReset cause).sys.tb = s.sys.tb
    ∧ (s.devReset cause).hw = { s.hw with fuses := s.fusesLeft } ∧ (s.devReset cause).pending = s.pending
    ∧ (s.devReset cause).hmp = {} ∧ (s.devReset cause).seq = {}
    ∧ (∀ n : Nat, (s.devReset cause).chan n = { sense := { pgPin := (s.chan n).sense.pgPin } })
    ∧ (s.devReset cause).sys.rstCause = Nat.lor (Nat.lor s.sys.rstCause cause) s.pendCause ∧ (s.devReset cause).sys.lost = 0)

/-- Completion, islands and the coherent view (R17, R24, R36 to R50). An unlocked follower takes no equinox view (R425); that its CODE then
reads ABORTED is the model's choice (notes/assumptions/95). -/
def Obligations.ViewAndIslandsComplete : Prop :=
  (∀ (s : State) (l : Level) (cnt : Bool), s.writer 0x20 .operator = some l → s.viewRefusal false = 0 →
    ∃ t, exec (.viewReqNow cnt) s = .next t ∧ t.sys.viewReq = some { at_ := s.now + 16, cnt := cnt, eqx := false }
      ∧ t.sys.viewDone = false ∧ t.sys.viewCode = 0 ∧ t.sys.view = s.sys.view ∧ t.chans = s.chans) ∧
  (∀ (s : State) (l : Level) (cnt : Bool), s.writer 0x20 .operator = some l → s.viewRefusal true = 0 →
    ∃ t, exec (.viewReqAt cnt) s = .next t ∧ t.sys.viewReq = some { at_ := s.sys.viewAt, cnt := cnt, eqx := false }
      ∧ t.sys.viewDone = false ∧ t.sys.viewCode = 0 ∧ t.sys.view = s.sys.view ∧ t.chans = s.chans) ∧
  (∀ (s u : State) (r : ViewReq), s.sys.viewReq = some r → r.at_ ≤ s.now → s.ctrlUp = true → s.rungOk = true →
    r.eqx = false ∨ s.sys.strap = true ∨ s.lockedNow = true →
    u = { s with sys := { s.sys with viewReq := none, shadow := some (r, s.viewWords) } } →
    exec .viewCapture s = .next (if r.cnt then u.cntDeliver.cntCapture (if r.eqx then 2 else 1) r.at_ else u)) ∧
  (∀ (s u : State) (r : ViewReq), s.sys.viewReq = some r → r.at_ ≤ s.now → s.ctrlUp = true → s.rungOk = true →
    r.eqx = true → s.sys.strap = false → s.lockedNow = false →
    u = { s with sys := { s.sys with viewReq := none, viewCode := 5, irq := Irq.set s.sys.irq 1 } } →
    exec .viewCapture s = .next (u.casUp (.eqxRep u.cas.addr false 1))) ∧
  (∀ (s : State) (r : ViewReq) (ws : Tab Word), s.sys.shadow = some (r, ws) → s.settledBy r.at_ = true →
    ∃ t, exec .viewDone s = .next t ∧ t.sys.view = s.viewHeld ws ∧ t.sys.viewMiss = s.viewMissed ∧ t.sys.viewTick = r.at_
      ∧ t.sys.viewDone = true ∧ t.sys.viewSrc = r.eqx ∧ t.sys.shadow = none ∧ t.sys.irq.st.getLsbD 0 = true
      ∧ (r.cnt = true → t.cnt = s.cntDeliver.cnt) ∧ (r.cnt = false → t.cnt = s.cnt)) ∧
  (∀ (s : State) (i : Nat), s.hasIsl i = true → s.islLost i = false → s.ctrlUp = true → s.rungOk = true →
    ∃ u : State, u = { s with sys := { s.sys with lost := Nat.lor s.sys.lost (2 ^ i), irq := Irq.set s.sys.irq 2 } } ∧
      u.islLost i = true ∧ exec (.islandLost i) s = .next (u.raiseOrDefer 1038)) ∧
  (∀ (s : State) (i : Nat) (slip : Int), s.sys.strobe % 256 = 0 → s.hasIsl i = true → s.islLost i = false → s.ctrlUp = true →
    s.rungOk = true →
    exec (.timebaseFullValue i slip) s =
      .next (if slip = 0 then s else ({ s with sys := { s.sys with irq := Irq.set s.sys.irq 3 } }).raiseOrDefer 1039))

/-- Completion, comparators, samples and pins of a rail channel (R54, R87 to R102, R108). What is due by the tick goes first: `p` is the
state after it. A sample before its frame is over does nothing (the model's choice, notes/assumptions/97). -/
def Obligations.ChannelSensingCompletes : Prop :=
  (∀ (s p u : State) (n level held : Nat) (k : Cmp), s.chanRuns n = true → p = s.prior.armDue n → p.chanRuns n = true →
    ((p.chan n).sense.cmp k).live = false → ((p.chan n).sense.thrOn p.now).beyond k level = true →
    fld (((p.chan n).sense.thrOn p.now).cmp k) 16 4 + 1 ≤ held → ((p.chan n).sense.cmp k).holdEnd = none →
    u = p.modChan n (fun c => { c with sense := c.sense.setCmp k { (p.chan n).sense.cmp k with live := true, out := true } }) →
    exec (.comparatorTrip n k level held) s =
      .next (if (p.chan n).armed p.now k then (u.cmpEvent n k u.now).settle u.now else u)) ∧
  (∀ (s p : State) (n level held e : Nat) (k : Cmp), s.chanRuns n = true → p = s.prior.armDue n → p.chanRuns n = true →
    ((p.chan n).sense.cmp k).live = false → ((p.chan n).sense.thrOn p.now).beyond k level = true →
    fld (((p.chan n).sense.thrOn p.now).cmp k) 16 4 + 1 ≤ held → ((p.chan n).sense.cmp k).holdEnd = some e →
    (p.chan n).sense.was = none →
    ∃ t, exec (.comparatorTrip n k level held) s = .next t ∧ ((t.chan n).sense.cmp k).live = true ∧ t.flt = p.flt
      ∧ t.seq = p.seq ∧ ((t.chan n).sense.cmp k).out = ((p.chan n).sense.cmp k).out) ∧
  (∀ (s : State) (n level : Nat) (k : Cmp), s.chanRuns n = true → ((s.chan n).sense.cmp k).live = true →
    (s.chan n).sense.act.back k level = true →
    ∃ t, exec (.comparatorRelease n k level) s = .next t ∧ ((t.chan n).sense.cmp k).live = false ∧ t.flt = s.flt
      ∧ (((s.chan n).sense.cmp k).holdEnd = none → ((t.chan n).sense.cmp k).out = false)) ∧
  (∀ (s : State) (n v i : Nat), s.slotDue n = true → (s.sys.phase = .s5 ∨ s.reloading = true) → s.running = false → s.ctrlUp = true →
    s.inUse n = true →
    s.islLost (islOf n) = false →
    ∃ t, exec (.channelSample n v i) s = .next t ∧ (t.chan n).sense.v = min 4095 v ∧ (t.chan n).sense.i = min 4095 i
      ∧ (t.chan n).rail = (s.chan n).rail ∧ t.flt = s.flt ∧ t.seq = s.seq) ∧
  (∀ (s p : State) (n v i : Nat), s.slotDue n = true → s.chanRuns n = true →
    p = ((s.prior.takeSample n v i).goodUpd n s.now).bandCheck n (min 4095 v) s.now →
    exec (.channelSample n v i) s = .next (((p.belowDis n s.now).stopPass s.now).settle s.now)) ∧
  (∀ (s : State) (n v i : Nat), ((s.takeSample n v i).chan n).sense.v = min 4095 v ∧ ((s.takeSample n v i).chan n).sense.i = min 4095 i
    ∧ ((s.takeSample n v i).chan n).rail = (s.chan n).rail ∧ (∀ m, m ≠ n → (s.takeSample n v i).chan m = s.chan m)) ∧
  (∀ (s : State) (n v i : Nat), s.slotDue n = false → exec (.channelSample n v i) s = .next s) ∧
  (∀ (s u : State) (n : Nat) (level : Bool), n < nCh s.hw.variant →
    u = s.modChan n (fun c => { c with sense := { c.sense with pgPin := level } }) →
    exec (.pgPinChange n level) s = .next (if u.chanRuns n then (u.prior.goodUpd n u.now).settle u.now else u)) ∧
  (∀ (s u : State) (n e : Nat), s.itemAt .hold n = some e → s.lastOf e = true → u = s.upTo e SeqItem.hold.rank →
    u.itemAt .hold n = some e →
    exec (.thresholdHoldEnd n) s = .next (((u.holdEnds n .ov).holdEnds n .uv).holdEnds n .oc)) ∧
  (∀ (s : State) (n e : Nat) (k : Cmp), ((s.chan n).sense.cmp k).holdEnd = some e → e ≤ s.now →
    ((s.chan n).sense.cmp k).live = false →
    (((s.holdEnds n k).chan n).sense.cmp k).holdEnd = none ∧ (((s.holdEnds n k).chan n).sense.cmp k).out = false
      ∧ (s.holdEnds n k).flt = s.flt) ∧
  (∀ (s p : State) (n e : Nat), s.itemAt .blank n = some e → s.lastOf e = true → p = s.upTo e SeqItem.blank.rank →
    p.itemAt .blank n = some e →
    ∃ u : State, u = p.modChan n (fun c => { c with sense := { c.sense with ocBlankEnd := none } }) ∧
      exec (.ocBlankEnd n) s = .next ((u.armRaise n .oc e).settle e))

/-- Completion, threshold sets and the channel lock (R105 to R109): staging, applying and discarding a set, and the two keys of
the lock, within 10 µs of each other. The servo update of an apply tick of a run-time replacement comes with the replacement. -/
def Obligations.ThresholdCommandsComplete : Prop :=
  (∀ (s : State) (l : Level) (n reg : Nat) (w : BitVec 32), reg < 6 → s.writer (chReg n (4 + 4 * reg)) .operator = some l →
    s.inUse n = true → (s.chan n).sense.locked = false →
    ∃ t, exec (.thresholdStageWrite n reg w) s = .next t ∧ (t.chan n).sense.stg = (s.chan n).sense.stg.put reg w
      ∧ (t.chan n).sense.act = (s.chan n).sense.act ∧ (t.chan n).rail = (s.chan n).rail ∧ t.flt = s.flt ∧ t.seq = s.seq) ∧
  (∀ (s : State) (l : Level) (n : Nat), s.writer (chReg n 0x20) .operator = some l → s.inUse n = true →
    exec (.chApply n) s = .next (if s.rtNow then (s.chTouch n).chApply n else ((s.chTouch n).chApply n).servoDue n)) ∧
  (∀ (s : State) (n : Nat), (s.chan n).sense.stg ≠ (s.chan n).sense.act → (s.chan n).applyCheck = 0 →
    ((s.chApply n).chan n).sense.act = (s.chan n).sense.stg ∧ ((s.chApply n).chan n).sense.stg = (s.chan n).sense.stg
      ∧ ((s.chApply n).chan n).sense.applyCode = 0 ∧ ((s.chApply n).chan n).rail.state = (s.chan n).rail.state
      ∧ (s.chApply n).flt = s.flt ∧ (s.chApply n).seq = s.seq ∧ (∀ m, m ≠ n → (s.chApply n).chan m = s.chan m)) ∧
  (∀ (s : State) (n : Nat), (s.chan n).sense.stg ≠ (s.chan n).sense.act → (s.chan n).applyCheck ≠ 0 →
    ((s.chApply n).chan n).sense.act = (s.chan n).sense.act ∧ ((s.chApply n).chan n).sense.applyCode = (s.chan n).applyCheck
      ∧ ((s.chApply n).chan n).rail = (s.chan n).rail ∧ (s.chApply n).flt = s.flt) ∧
  (∀ (s : State) (l : Level) (n : Nat), s.writer (chReg n 0x20) .operator = some l → s.inUse n = true →
    ∃ t, exec (.chDiscard n) s = .next t ∧ (t.chan n).sense.stg = (s.chan n).sense.act
      ∧ (t.chan n).sense.act = (s.chan n).sense.act ∧ (t.chan n).rail = (s.chan n).rail ∧ t.flt = s.flt) ∧
  (∀ (s : State) (l : Level) (n : Nat), s.writer (chReg n 0x24) .operator = some l → s.inUse n = true →
    (s.chan n).sense.lockAt = none →
    ∃ t, exec (.chLockKey n 0x3A61#16) s = .next t ∧ (t.chan n).sense.lockAt = some s.now
      ∧ (t.chan n).sense.locked = (s.chan n).sense.locked) ∧
  (∀ (s : State) (l : Level) (n a : Nat), s.writer (chReg n 0x24) .operator = some l → s.inUse n = true →
    (s.chan n).sense.lockAt = some a →
    ∃ t, exec (.chLockKey n 0x613A#16) s = .next t ∧ (t.chan n).sense.lockAt = none
      ∧ (t.chan n).sense.locked = ((s.chan n).sense.locked || decide (s.now < a + 1000))) ∧
  (∀ (s : State) (n a : Nat), (s.chan n).sense.lockAt = some a → a + 1000 ≤ s.now →
    ∃ t, exec (.chLockPairTimeout n) s = .next t ∧ (t.chan n).sense.lockAt = none
      ∧ (t.chan n).sense.locked = (s.chan n).sense.locked)

/-- Completion, channel HS, the HVS inputs and the input-loss comparator (R111, R114, R115, R117 to R119, R259, R260, R264). What is due
by the tick goes first: `p` is the state after it. A sense sample below the breaker's threshold ends its output (the model's reading,
notes/assumptions/25). -/
def Obligations.HotSwapCompletes : Prop :=
  (∀ (s p u r w : State) (k code : Nat), s.samples = true → s.running = true → k < nHvs s.hw.variant → p = s.prior →
    u = { p with
      hs := p.hs.hvsTake k (min 4095 code)
      hld := if k = 0 then
        { p.hld with vinOk := if fld p.hld.volt 16 12 ≤ min 4095 code then incTo 100 p.hld.vinOk else 0 } else p.hld } →
    r = u.reports (p.hs.hvsEvents u.hs k) u.now →
    w = (if k = r.holdupIdx then
        ((({ r with hs := { r.hs with holdOk := decide (fld r.hs.goodThr 0 12 ≤ min 4095 code) } }).capSample (min 4095 code)
          r.now).energy (min 4095 code)).floorCheck (min 4095 code)
      else r) →
    exec (.hvsSample k code) s = .next (w.settle w.now)) ∧
  (∀ (h : Hs) (k code : Nat), k ≤ 3 →
    (tget {} (h.hvsTake k code).hvs k).code = code ∧ (tget {} (h.hvsTake k code).hvs k).thr = (tget {} h.hvs k).thr
      ∧ (tget {} (h.hvsTake k code).hvs k).beyondLo = decide (code < fld (tget {} h.hvs k).thr 0 12)
      ∧ (tget {} (h.hvsTake k code).hvs k).beyondHi = decide (fld (tget {} h.hvs k).thr 16 12 < code)
      ∧ (∀ m, m ≠ k → tget {} (h.hvsTake k code).hvs m = tget {} h.hvs m)) ∧
  (∀ (s : State) (k code : Nat), s.samples = true → s.running = false → k < nHvs s.hw.variant →
    ∃ t, exec (.hvsSample k code) s = .next t ∧ (tget {} t.hs.hvs k).code = min 4095 code ∧ t.flt = s.flt ∧ t.hld = s.hld) ∧
  (∀ (s : State) (code : Nat), s.samples = true →
    ∃ t, exec (.hsSenseSample code) s = .next t ∧ t.hs.meas = min 4095 code
      ∧ t.hs.brkOut = (s.hs.brkOut && decide (4 * fld s.hs.brk 0 10 ≤ min 4095 code)) ∧ t.chans = s.chans ∧ t.flt = s.flt
      ∧ t.hld = s.hld) ∧
  (∀ (s u : State) (held : Nat), s.running = true → s.hs.brkOut = false → fld s.hs.brk 16 4 + 1 ≤ held →
    u = { s.prior with hs := { s.prior.hs with brkOut := true } } →
    exec (.hsBreakerTrip held) s = .next (if u.hsGate then (u.hsTrip u.now).settle u.now else u)) ∧
  (∀ (s u : State) (t : Nat), s.itemAt .hsLoss HS = some t → s.lastOf t = true → u = s.upTo t SeqItem.hsLoss.rank →
    u.itemAt .hsLoss HS = some t →
    exec .hsGoodLossTimeout s = .next (({ u with hs := { u.hs with goodLossAt := none } }.report 1036 t).settle t)) ∧
  (∀ s u : State, s.running = true → s.hsGate = true →
    u = { s.prior with
      hs := { s.prior.hs with gateOn := true }
      hld := if s.prior.hld.rideWait then
          { s.prior.hld with rideWait := false, isolated := false, cause := { s.prior.hld.cause with loss := false } }
        else s.prior.hld } →
    exec .hsGateOn s = .next (u.settle u.now)
      ∧ exec .rideThroughGateOn s = .next (if s.hld.rideWait then u.settle u.now else s)) ∧
  (∀ s p u w : State, s.configured = true → s.pwr.vinLoss = false → s.vinThr ≠ 0 → p = s.prior →
    u = { p with
      pwr := { p.pwr with vinLoss := true, lossAt := p.now, lossEnd := 0 }
      bbx := p.bbx.lossCut p.hw.variant p.now } →
    w = (({ u with
      hld := { u.hld with cause := { u.hld.cause with loss := true }, isolated := true, rideWait := false }
      hs := { u.hs with gateOn := false } }).bbxTrigger 5 0xFFFF u.now).admission u.now [] →
    exec .inputLoss s = .next (if u.railsOff then u.settle u.now else (w.drainStart 1 w.now).settle w.now)) ∧
  (∀ s u : State, s.pwr.vinLoss = true → u = { s with pwr := { s.pwr with vinLoss := false, lossEnd := s.now } } →
    exec .inputLossComparatorRelease s = .next ((u.wakeEvent 4).settle s.now)) ∧
  (∀ s : State, s.pwr.vinLoss = false → exec .inputLossComparatorRelease s = .next s)

/-- Completion, requests (R149 to R156, R165, R174): an on or off request of an OPERATOR session reaches the sequencer after what was due
by the tick, one behind an off request of its stamp waits for that, one of a lower session is refused with LEVEL, a latched one is
acted on once no rail is STOPPING or DISCHARGING, and the log and spring registers answer. -/
def Obligations.SequencerRequestsComplete : Prop :=
  (∀ (s : State) (l : Level), s.writer 0x2000 .user = some l → l.ge .operator = true →
    exec .seqOnRequest s = .next ((s.prior.onReq 0 s.now).settle s.now)) ∧
  (∀ (s : State) (l : Level), s.writer 0x2000 .user = some l → l.ge .operator = true →
    exec .seqOffRequest s =
      .next ((({ s.prior with seq := { s.prior.seq with hostOffAt := some s.now } }).shutDown none 0 0 s.now []).settle s.now)) ∧
  (∀ (s : State) (l : Level), s.writer 0x2000 .user = some l → l.ge .operator = false →
    exec .seqOnRequest s = .next { s with seq := { s.seq with code := 4, irq := Irq.set s.seq.irq 5 } }
      ∧ exec .seqOffRequest s = .next { s with seq := { s.seq with code := 4, irq := Irq.set s.seq.irq 5 } }) ∧
  (∀ (s : State) (src stamp : Nat) (latched : Bool), s.onHeld src = true →
    (s.onReq src stamp latched).seq.code = 3 ∧ (s.onReq src stamp latched).seq.irq = Irq.set s.seq.irq 5
      ∧ (s.onReq src stamp latched).chans = s.chans ∧ (s.onReq src stamp latched).seq.tlog = s.seq.tlog) ∧
  (∀ (s : State) (src stamp : Nat), s.onHeld src = false → s.offDue stamp = false → s.falling = true →
    (s.onReq src stamp).seq.code = 2 ∧ (s.onReq src stamp).seq.onLatch = some (s.seq.onLatch.getD src)
      ∧ (s.onReq src stamp).chans = s.chans) ∧
  (∀ (s : State) (src stamp : Nat), s.onHeld src = false → s.offDue stamp = true →
    s.onReq src stamp = { s with seq := { s.seq with onWait := s.seq.onWait ++ [(src, stamp)] } }) ∧
  (∀ (s p u : State) (t src : Nat), s.itemAt .latch HS = some t → s.lastOf t = true → p = s.upTo t SeqItem.latch.rank →
    p.itemAt .latch HS = some t → u = p.settleTo t → u.seq.onLatch = some src →
    exec .latchedOnAct s = .next (({ u with seq := { u.seq with onLatch := none } }.onReq src t true).settle t)) ∧
  (∀ (s : State) (l : Level) (e : TEntry) (r : List TEntry), s.hmp.session = some l → s.hmpUp = true → s.notReady 0x2060 false = false →
    s.rungOk = true → s.islLost 16 = false → s.seq.tlog = e :: r →
    ∃ t, exec .seqTlogRead s = .next t ∧ t.seq.tlog = r ∧ t.seq.tlogTs = e.stamp ∧ t.chans = s.chans ∧ t.flt = s.flt) ∧
  (∀ (s : State) (l : Level), s.writer 0x2068 .operator = some l →
    ∃ t, exec .seqTlogClr s = .next t ∧ t.seq.tlog = [] ∧ t.seq.tlogOvf = false ∧ t.chans = s.chans ∧ t.flt = s.flt) ∧
  (∀ (s : State) (l : Level) (dis : Bool), s.writer 0x20B0 .user = some l →
    ∃ t, exec (.seqSpringCtlWrite dis) s = .next t ∧ t.seq.springDis = (if l.ge .operator then dis else s.seq.springDis)
      ∧ t.chans = s.chans ∧ t.flt = s.flt)

/-- Completion, timers of the sequencer (R130, R132, R137 to R139, R141, R148, R158, R179): each acts with its expiry tick as its
stamp once nothing else of that stamp is to come (`lastOf`), after everything that comes before it (`p`, `u`), and does nothing before
that (the model's reading, notes/assumptions/4). That the delay of 0 logs CAUSE 0 and not 7 is the model's choice
(notes/assumptions/100). -/
def Obligations.SequencerTimersComplete : Prop :=
  (∀ (s p u : State) (r t : Nat), s.itemAt .delay r = some t → s.lastOf t = true → p = s.upTo t SeqItem.delay.rank →
    p.itemAt .delay r = some t → u = p.settleTo t →
    exec (.railEnable r) s =
      .next ((u.moveRail r .ramping (if (u.chan r).rail.timed && !decide (tDelay (u.chan r).rcfg = 0) then 7 else 0) t).settle t)) ∧
  (∀ (s p u : State) (r t : Nat), s.itemAt .qual r = some t → s.lastOf t = true →
    p = s.upTo t SeqItem.qual.rank → p.itemAt .qual r = some t → u = p.settleTo t →
    exec (.qualificationExpiry r) s = .next (((u.moveRail r .good 7 t).advance r t).settle t)) ∧
  (∀ (s u v : State) (r t : Nat), s.itemAt .start r = some t → s.lastOf t = true →
    u = s.upTo t SeqItem.start.rank → u.itemAt .start r = some t →
    v = (((u.modRail r fun x => { x with failWhy := 1 }).moveRail r .failed 7 t).spreadFrom r t) →
    exec (.startTimeoutExpiry r) s = .next ((if r = HS then v.report 1035 t else v.chanEvent (8 * r + 4) t).settle t)) ∧
  (∀ (s u : State) (n t : Nat), s.itemAt .dgl n = some t → s.lastOf t = true →
    u = s.upTo t SeqItem.dgl.rank → u.itemAt .dgl n = some t →
    exec (.deglitchExpiry n) s = .next (((u.modRail n fun x => { x with dglEnd := none }).chanEvent (8 * n + 3) t).settle t)) ∧
  (∀ (s u v : State) (n t : Nat), s.itemAt .dis n = some t → s.lastOf t = true →
    u = s.upTo t SeqItem.dis.rank → u.itemAt .dis n = some t →
    v = (u.moveRail n .dischargeTimeout 7 t).chanEvent (8 * n + 5) t →
    exec (.dischargeTimeoutExpiry n) s =
      .next ((if (u.chan n).rail.retried then (v.retryFails n t).stopPass t else v.stopPass t).settle t)) ∧
  (∀ (s p u v : State) (n t : Nat), s.itemAt .retry n = some t → s.lastOf t = true →
    p = s.upTo t SeqItem.retry.rank → p.itemAt .retry n = some t → u = p.settleTo t →
    v = (u.modRail n fun x => { x with retried := false }).moveRail n .waiting 7 t →
    exec (.retryWaitExpiry n) s = .next (((v.topo.foldl (fun w d =>
      if d ≠ n && (v.withDependents [n]).contains d && w.rst d == .off then w.moveRail d .waiting 7 t else w) v).graphPass
        t).settle t)) ∧
  (∀ (s p u : State) (n t : Nat), s.itemAt .spec n = some t → s.lastOf t = true →
    p = s.upTo t SeqItem.spec.rank → p.itemAt .spec n = some t → u = p.settleTo t →
    exec (.springLimitExpiry n) s = .next (((u.rollback n 4 3 t).evalRail n t).settle t)) ∧
  (∀ (s : State) (r : Nat),
    ((∀ t, s.itemAt .qual r = some t → s.lastOf t = false) → exec (.qualificationExpiry r) s = .next s)
      ∧ ((∀ t, s.itemAt .start r = some t → s.lastOf t = false) → exec (.startTimeoutExpiry r) s = .next s)
      ∧ ((∀ t, s.itemAt .dgl r = some t → s.lastOf t = false) → exec (.deglitchExpiry r) s = .next s)
      ∧ ((∀ t, s.itemAt .dis r = some t → s.lastOf t = false) → exec (.dischargeTimeoutExpiry r) s = .next s)
      ∧ ((∀ t, s.itemAt .retry r = some t → s.lastOf t = false) → exec (.retryWaitExpiry r) s = .next s)
      ∧ ((∀ t, s.itemAt .spec r = some t → s.lastOf t = false) → exec (.springLimitExpiry r) s = .next s)
      ∧ ((∀ t, s.itemAt .delay r = some t → s.lastOf t = false) → exec (.railEnable r) s = .next s))

/-- Completion, PMBus (R120, R121, R203, R204, R457 to R461): a poll queues its four readings for the channel's device and page, a
transaction ends well, or is tried again after 100 µs and given up with its second failure, a clock stretch of 25 ms counts as a
failure, and an OWNER session passes a command through, or reads why not. Nothing is polled where POLL is 0 or the channel has no PMBus
device. NFAIL counts each failed attempt (the model's reading, notes/assumptions/19); the page of a pass-through is a free value
(notes/assumptions/111). -/
def Obligations.PmbusCompletes : Prop :=
  (∀ (s : State) (n t : Nat), s.running = true → s.sys.phase = .ready → s.inUse n = true → (s.chan n).sense.pollNext = some t →
    t ≤ s.now → wbit (s.chan n).ch.cfg 11 = true → fld (s.chan n).ch.pmb 16 8 ≠ 0 → (s.chan n).sense.polling = false →
    ∃ u, exec (.pmbusPoll n) s = .next u ∧ (u.chan n).sense.polling = true
      ∧ (u.chan n).sense.pollNext = some (t + fld (s.chan n).ch.pmb 16 8 * tMs) ∧ (u.chan n).rail = (s.chan n).rail
      ∧ u.flt = s.flt ∧ u.pmb = s.pmb.push ((List.range 4).map fun k =>
          { dev := fld (s.chan n).ch.pmb 0 5, page := fld (s.chan n).ch.pmb 8 8, cmd := pmbReads.getD k 0, data := none
            use := .poll n k }) s.now) ∧
  (∀ (s : State) (n : Nat), fld (s.chan n).ch.pmb 16 8 = 0 ∨ wbit (s.chan n).ch.cfg 11 = false →
    exec (.pmbusPoll n) s = .next s) ∧
  (∀ (s : State) (n t : Nat), s.running = true → s.sys.phase = .ready → s.inUse n = true → (s.chan n).sense.pollNext = some t →
    t ≤ s.now → wbit (s.chan n).ch.cfg 11 = true → fld (s.chan n).ch.pmb 16 8 ≠ 0 → (s.chan n).sense.polling = true →
    ∃ u, exec (.pmbusPoll n) s = .next u ∧ (u.chan n).sense.polling = true ∧ u.pmb.queue = s.pmb.queue
      ∧ u.pmb.skip = incTo 0xFF s.pmb.skip) ∧
  (∀ (s u : State) (x : PmbTxn) (data : BitVec 16), s.running = true → s.pmb.cur = some x → s.pmb.retryAt = none →
    u = s.pmbOk x data.toNat → exec (.pmbusTransactionDone .ok data) s = .next { u with pmb := u.pmb.start u.now }) ∧
  (∀ (s : State) (x : PmbTxn) (e : PmbEnd) (data : BitVec 16), e ≠ .ok → s.running = true → s.pmb.cur = some x →
    s.pmb.retryAt = none → s.pmb.retried = false →
    ∃ t, exec (.pmbusTransactionDone e data) s = .next t ∧ t.pmb.retryAt = some (s.now + 10000)
      ∧ t.pmb.nFail = incTo 0xFFFF s.pmb.nFail ∧ t.pmb.cur = some x ∧ t.flt = s.flt) ∧
  (∀ (s u : State) (x : PmbTxn) (e : PmbEnd) (data : BitVec 16), e ≠ .ok → s.running = true → s.pmb.cur = some x →
    s.pmb.retryAt = none → s.pmb.retried = true →
    u = ({ s.tpAdd 2 0 0 1 with pmb := { s.pmb with nFail := incTo 0xFFFF s.pmb.nFail } }).pmbGiveUp x (pmbWhy e) →
    exec (.pmbusTransactionDone e data) s = .next { u with pmb := u.pmb.start u.now }) ∧
  (∀ (s : State) (t : Nat), s.running = true → s.pmb.retryAt = some t → t ≤ s.now →
    ∃ u, exec .pmbusRetry s = .next u ∧ u.pmb.retryAt = none ∧ u.pmb.retried = true ∧ u.pmb.startedAt = t
      ∧ u.pmb.cur = s.pmb.cur ∧ u.flt = s.flt) ∧
  (∀ s : State, s.running = true → s.pmb.retryAt = none → s.pmb.cur.isSome = true → s.pmb.startedAt + 2500000 ≤ s.now →
    exec .pmbusStretchTimeout s = .next (s.pmbFail 4)) ∧
  (∀ (s : State) (l : Level) (dev : BitVec 5) (cmd : BitVec 8), s.writer 0xA0064 .user = some l → l.ge .owner = true →
    s.pmb.busy = false → dev.toNat < s.pmb.nDev →
    (pmbPassReads.contains cmd.toNat || cmd.toNat == pmbClear || (cmd.toNat == pmbVout && s.pmbQuiet dev.toNat)) = true →
    ∃ t, exec (.lnkPmbGo dev cmd) s = .next t ∧ t.flt = s.flt ∧ t.chans = s.chans ∧
      t.pmb = Pmb.push { s.pmb with code := 0, busy := true }
        [{ dev := dev.toNat, page := Config.passPage dev.toNat, cmd := cmd.toNat
           data := if cmd.toNat = pmbVout then some s.pmb.data else none, use := .pass }] s.now) ∧
  (∀ (s : State) (l : Level) (dev : BitVec 5) (cmd : BitVec 8) (c : Nat), s.writer 0xA0064 .user = some l →
    c = (if !l.ge .owner then 1 else if s.pmb.busy then 2 else if s.pmb.nDev ≤ dev.toNat then 4
      else if !(pmbPassReads.contains cmd.toNat || cmd.toNat == pmbClear || cmd.toNat == pmbVout) then 3
      else if cmd.toNat = pmbVout ∧ !s.pmbQuiet dev.toNat then 5 else 0) →
    c ≠ 0 → exec (.lnkPmbGo dev cmd) s = .next { s with pmb := { s.pmb with code := c } })

/-- Completion, margin requests (R185, R191 to R196, R200, R223): each command of CH_MGN_CTRL. HIGH, LOW and TARGET move to the clamped
target, OLCODE walks to the clamped code, NOMINAL returns, except where MARGIN_LIMIT comes on its tick; a request that R191 refuses
leaves its code and moves nothing. That NOMINAL at trim 0 is NOMINAL at once is the model's reading (notes/assumptions/58). -/
def Obligations.MarginRequestsComplete : Prop :=
  (∀ (s : State) (l : Level) (n : Nat), s.writer (chReg n 0x88) .user = some l → s.inUse n = true →
    (s.chTouch n).mgnRefusal n 0 l false = 0 →
    ∃ t, exec (.mgnNominal n) s = .next t ∧ (t.chan n).rail = (s.chan n).rail ∧ t.flt = s.flt ∧ t.seq = s.seq
      ∧ ((s.chTouch n).limitNow n = true → (t.chan n).mgn = (s.chan n).mgn)
      ∧ ((s.chTouch n).limitNow n = false → (t.chan n).mgn.code = 0
          ∧ ((s.chan n).mgn.st = .nominal → (t.chan n).mgn.st = .nominal)
          ∧ ((s.chan n).mgn.st ≠ .nominal →
              (t.chan n).mgn.st = if (s.chan n).mode ≠ 3 ∧ (s.chan n).sense.trim = 0 then .nominal else .returning))) ∧
  (∀ (s : State) (l : Level) (n : Nat), s.writer (chReg n 0x88) .user = some l → s.inUse n = true →
    (s.chTouch n).mgnRefusal n 1 l false = 0 →
    ∃ t, exec (.mgnHigh n) s = .next t ∧ (t.chan n).mgn.st = .moving ∧ (t.chan n).mgn.code = 0
      ∧ (t.chan n).mgn.target = ((s.chan n).clampCode ((s.chan n).pctCode ((s.chan n).corner 1))).1.toNat
      ∧ (t.chan n).rail = (s.chan n).rail ∧ t.flt = s.flt ∧ t.seq = s.seq) ∧
  (∀ (s : State) (l : Level) (n : Nat), s.writer (chReg n 0x88) .user = some l → s.inUse n = true →
    (s.chTouch n).mgnRefusal n 2 l false = 0 →
    ∃ t, exec (.mgnLow n) s = .next t ∧ (t.chan n).mgn.st = .moving ∧ (t.chan n).mgn.code = 0
      ∧ (t.chan n).mgn.target = ((s.chan n).clampCode ((s.chan n).pctCode ((s.chan n).corner 2))).1.toNat
      ∧ (t.chan n).rail = (s.chan n).rail ∧ t.flt = s.flt ∧ t.seq = s.seq) ∧
  (∀ (s : State) (l : Level) (n : Nat) (pct : BitVec 8), s.writer (chReg n 0x88) .user = some l → s.inUse n = true →
    (s.chTouch n).mgnRefusal n 3 l false = 0 →
    ∃ t, exec (.mgnTarget n pct) s = .next t ∧ (t.chan n).mgn.st = .moving ∧ (t.chan n).mgn.code = 0
      ∧ (t.chan n).mgn.target = ((s.chan n).clampCode ((s.chan n).pctCode (sgn 8 pct.toNat))).1.toNat
      ∧ (t.chan n).rail = (s.chan n).rail ∧ t.flt = s.flt ∧ t.seq = s.seq) ∧
  (∀ (s : State) (l : Level) (n : Nat) (code : BitVec 10), s.writer (chReg n 0x88) .user = some l → s.inUse n = true →
    (s.chTouch n).mgnRefusal n 4 l false = 0 →
    ∃ t, exec (.mgnOlcode n code) s = .next t ∧ (t.chan n).mgn.code = 0 ∧ (t.chan n).sense.trimOn = true
      ∧ ((t.chan n).mgn.goal.natAbs : Int) ≤ (s.chan n).codeMax
      ∧ (((sgn 10 code.toNat).natAbs : Int) ≤ (s.chan n).codeMax → (t.chan n).mgn.goal = sgn 10 code.toNat)
      ∧ (t.chan n).rail = (s.chan n).rail ∧ t.flt = s.flt ∧ t.seq = s.seq) ∧
  (∀ (s t : State) (l : Level) (n cmd r : Nat) (pct : BitVec 8) (code : BitVec 10), s.writer (chReg n 0x88) .user = some l →
    s.inUse n = true → cmd ≤ 4 → (s.chTouch n).mgnRefusal n cmd l false = r → r ≠ 0 →
    exec (match cmd with | 0 => .mgnNominal n | 1 => .mgnHigh n | 2 => .mgnLow n | 3 => .mgnTarget n pct | _ => .mgnOlcode n code) s
      = .next t →
    (t.chan n).mgn = { (s.chan n).mgn with code := r, irq := Irq.set (s.chan n).mgn.irq 2 }
      ∧ (t.chan n).sense.trim = (s.chan n).sense.trim ∧ (t.chan n).rail = (s.chan n).rail ∧ t.flt = s.flt ∧ t.seq = s.seq)

/-- Completion, the engines of margining (R192, R195, R196, R205 to R209, R223): the servo update, the walk step, the campaign's issue
with its refusals, its corner tick and its report, which is taken at the end of its tick (`tickDone`; the model's reading,
notes/assumptions/4). -/
def Obligations.MarginEnginesComplete : Prop :=
  (∀ (s : State) (n : Nat), s.chanRuns n = true → (s.chan n).mode = 2 → (s.chan n).mgn.st = .moving ∨ (s.chan n).mgn.st = .held →
    (s.chan n).mgn.nextAt ≤ s.now →
    exec (.marginServoUpdate n) s =
      .next (if s.applyQueued n then s else (s.servo n (s.chan n).mgn.nextAt).settle (s.chan n).mgn.nextAt)) ∧
  (∀ (s : State) (n : Nat) (x : Int), s.chanRuns n = true → (s.chan n).mgn.nextAt ≤ s.now →
    ((s.chan n).mgn.st = .returning ∧ (s.chan n).mode ≠ 3) ∨ (s.chan n).prb.phase = .ret → x = stepTo (s.chan n).sense.trim 0 →
    ∃ t, exec (.marginWalkStep n) s = .next t ∧ (t.chan n).sense.trim = x
      ∧ (t.chan n).sense.trimOn = ((s.chan n).sense.trimOn && decide (x ≠ 0))
      ∧ (t.chan n).mgn.st =
          (if x = 0 ∧ (s.chan n).mgn.st = .returning ∧ (s.chan n).mode ≠ 3 then .nominal else (s.chan n).mgn.st)
      ∧ (t.chan n).prb.phase = (if x = 0 ∧ (s.chan n).prb.phase = .ret then (if (s.chan n).prb.aborting then .idle else .fit)
          else (s.chan n).prb.phase)
      ∧ (t.chan n).rail = (s.chan n).rail ∧ t.flt = s.flt ∧ t.seq = s.seq) ∧
  (∀ (s : State) (n : Nat) (x : Int), s.chanRuns n = true → (s.chan n).mgn.nextAt ≤ s.now → (s.chan n).mgn.st = .moving →
    (s.chan n).mode = 1 → (s.chan n).prb.phase ≠ .ret → x = stepTo (s.chan n).sense.trim (s.chan n).mgn.goal →
    ∃ t, exec (.marginWalkStep n) s = .next t ∧ (t.chan n).sense.trim = x
      ∧ (t.chan n).mgn.st = (if x = (s.chan n).mgn.goal then .held else .moving)
      ∧ (t.chan n).rail = (s.chan n).rail ∧ t.flt = s.flt ∧ t.seq = s.seq) ∧
  (∀ (s : State) (l : Level) (corner : BitVec 2) (abort : Bool), s.writer 0x18200 .operator = some l → corner ≠ 3 →
    s.sys.strap = true → s.camp.isBusy = false → s.now + 500 ≤ s.camp.at_ → s.camp.at_ ≤ s.now + 0x1000000 →
    ∃ t, exec (.mgnCampGo corner abort) s = .next t ∧ t.camp.busy = true ∧ t.camp.code = 0 ∧ t.camp.corner = corner.toNat
      ∧ t.camp.nPass = 0 ∧ t.camp.nFail = 0 ∧ t.camp.pendAt = s.camp.pendAt ++ [(s.camp.at_, corner.toNat)] ∧ t.chans = s.chans
      ∧ t.flt = s.flt) ∧
  (∀ (s : State) (l : Level) (corner : BitVec 2) (abort : Bool) (c : Nat), s.writer 0x18200 .operator = some l →
    c = (if s.sys.strap = false then 4 else if s.camp.isBusy then 1 else if s.camp.at_ < s.now + 500 then 2
      else if s.now + 0x1000000 < s.camp.at_ then 3 else 0) →
    c ≠ 0 → exec (.mgnCampGo corner abort) s = .next { s with camp := { s.camp with code := c } }) ∧
  (∀ (s u : State) (t corner : Nat), s.camp.cornerDue s.now = some (t, corner) → s.running = true →
    u = { s with camp := { s.camp with
      pendAt := s.camp.pendAt.erase (t, corner), reportAt := s.camp.reportAt ++ [t + 200000] } } →
    exec .campaignCorner s = .next ((u.members.foldl (fun v n => v.cornerOn corner t n) u).settle t)) ∧
  (∀ (s w : State) (t : Nat) (bad : List Nat), s.tickDone = true → (s.camp.reportAt.find? fun t => decide (t ≤ s.now)) = some t →
    s.running = true → bad = s.members.filter (fun n => decide ((s.chan n).mgn.why ≠ 0)) →
    w = { s with camp := { s.camp with
      reportAt := s.camp.reportAt.erase t, nMember := s.members.length, nmPass := s.members.length - bad.length
      nmFail := bad.length } } →
    exec .campaignReport s = .next (if s.sys.strap then
        w.campCount 0 (!bad.isEmpty) (bad.headD 0) (if bad.isEmpty then 0 else (s.chan (bad.headD 0)).mgn.why) t
      else w.casUp (.mgnRep s.cas.addr s.members.length (s.members.length - bad.length) bad.length (bad.headD 0)
        (if bad.isEmpty then 0 else (s.chan (bad.headD 0)).mgn.why)))) ∧
  (∀ s : State, s.tickDone = false → exec .campaignReport s = .next s)

/-- Completion, the probe (R210 to R221): a request is queued or refused, the lowest queued probe starts or is refused, and its phases
follow each other on their ticks, to the fit. That BASE_RESET of a VENDOR session is refused with SESSION, and the impedance comes
from the clamped crossover, are the model's choices (notes/assumptions/140, 142). -/
def Obligations.ProbeCompletes : Prop :=
  (∀ (s : State) (l : Level) (n : Nat), s.writer (chReg n 0x98) .user = some l → l.ge .operator = true → s.inUse n = true →
    (s.chan n).prb.phase = .idle →
    ∃ t, exec (.prbGo n) s = .next t ∧ (t.chan n).prb.phase = (if (s.chTouch n).prbRefusal n = 0 then .queued else .idle)
      ∧ (t.chan n).prb.outcome = (s.chTouch n).prbRefusal n ∧ (t.chan n).rail = (s.chan n).rail ∧ t.flt = s.flt) ∧
  (∀ (s : State) (l : Level) (n : Nat), s.writer (chReg n 0x98) .user = some l → l.ge .operator = false → s.inUse n = true →
    ∃ t, exec (.prbGo n) s = .next t ∧ (t.chan n).prb = { (s.chan n).prb with outcome := 9 } ∧ t.flt = s.flt) ∧
  (∀ (s u : State) (n : Nat), s.writer (chReg n 0x98) .user = some .owner → s.inUse n = true →
    u = (s.chTouch n).modPrb n (fun p => { p with base := [] }) →
    exec (.prbBaseReset n) s = .next (u.record 2 0x0B n s.now [(16, leBytes 4 s.env.hours)])) ∧
  (∀ (s : State) (l : Level) (n : Nat), s.writer (chReg n 0x98) .user = some l → l ≠ .owner → s.inUse n = true →
    ∃ t, exec (.prbBaseReset n) s = .next t ∧ (t.chan n).prb = { (s.chan n).prb with outcome := 9 } ∧ t.env = s.env) ∧
  (∀ (s : State) (n : Nat), s.running = true → s.inUse n = true → fld (s.chan n).ch.prbCfg 16 16 ≠ 0 →
    (s.chan n).prb.lastHours + fld (s.chan n).ch.prbCfg 16 16 ≤ s.env.hours → (s.chan n).prb.phase = .idle →
    s.prbRefusal n = 0 →
    ∃ t, exec (.probeDue n) s = .next t ∧ (t.chan n).prb.phase = .queued ∧ (t.chan n).rail = (s.chan n).rail ∧ t.flt = s.flt) ∧
  (∀ (s : State) (n : Nat), s.running = true → s.prbBusy = false →
    (s.rails.find? fun m => s.inUse m && (s.chan m).prb.phase == .queued) = some n →
    ∃ t, exec .probeStart s = .next t ∧ (t.chan n).rail = (s.chan n).rail ∧ t.flt = s.flt
      ∧ (s.prbRefusal n = 0 → (t.chan n).prb.phase = .baseline ∧ (t.chan n).prb.phaseEnd = s.now + 25600 ∧ (t.chan n).prb.baseV = [])
      ∧ (s.prbRefusal n ≠ 0 → (t.chan n).prb.phase = .idle ∧ (t.chan n).prb.outcome = s.prbRefusal n)) ∧
  (∀ (s : State) (n : Nat), s.prbIn .baseline = some n → (s.chan n).prb.phaseEnd ≤ s.now → s.running = true →
    ∃ t, exec .probeBaselineEnd s = .next t ∧ (t.chan n).prb.phase = .step ∧ (t.chan n).sense.trim = (s.chan n).prbCode
      ∧ (t.chan n).sense.trimOn = true ∧ (t.chan n).prb.phaseEnd = (s.chan n).prb.phaseEnd + 200000
      ∧ (t.chan n).rail = (s.chan n).rail ∧ t.flt = s.flt) ∧
  (∀ (s : State) (n : Nat), s.prbIn .step = some n → (s.chan n).prb.phaseEnd ≤ s.now → s.running = true →
    ∃ t, exec .probeStepEnd s = .next t ∧ (t.chan n).prb.phase = .ret
      ∧ (t.chan n).prb.deltaV = (meanOf 256 (s.chan n).prb.recV : Int) - (meanOf 256 (s.chan n).prb.baseV : Int)
      ∧ (t.chan n).rail = (s.chan n).rail ∧ t.flt = s.flt) ∧
  (∀ (s p : State) (n wn zeta qeff fitQ fc fq : Nat), s.running = true → p = s.prior → p.prbIn .fit = some n →
    fc = (if loopCross wn zeta < 100 then 100 else if 10000 < loopCross wn zeta then 10000 else loopCross wn zeta) →
    fq = (if fc = loopCross wn zeta then min 255 fitQ else min 63 fitQ) →
    (p.chan n).prb.base.length ≠ 4 ∨ (p.chan n).prbOutcome fq ≠ 1 →
    ∃ t, exec (.probeFitDone wn zeta qeff fitQ) s = .next t ∧ (t.chan n).prb.phase = .idle
      ∧ (t.chan n).prb.outcome = (p.chan n).prbOutcome fq ∧ (t.chan n).prb.fc = fc ∧ (t.chan n).prb.pm = loopMargin zeta
      ∧ (t.chan n).prb.zout = (p.chan n).loopZ fc qeff ∧ (t.chan n).prb.fitQ = fq
      ∧ (t.chan n).prb.nqual = (if (p.chan n).prbOutcome fq = 1 then incTo 0xFFFF (p.chan n).prb.nqual else (p.chan n).prb.nqual)
      ∧ (t.chan n).prb.base = (if (p.chan n).prbOutcome fq = 1 then
            (p.chan n).prb.base ++ [((p.chan n).loopZ fc qeff, fc, loopMargin zeta)] else (p.chan n).prb.base)
      ∧ (t.chan n).rail = (p.chan n).rail) ∧
  (∀ (s p : State) (n wn zeta qeff fitQ fc fq : Nat), s.running = true → p = s.prior → p.prbIn .fit = some n →
    fc = (if loopCross wn zeta < 100 then 100 else if 10000 < loopCross wn zeta then 10000 else loopCross wn zeta) →
    fq = (if fc = loopCross wn zeta then min 255 fitQ else min 63 fitQ) →
    (p.chan n).prb.base.length = 4 → (p.chan n).prbOutcome fq = 1 →
    ∃ u : State, (u.chan n).prb.phase = .idle ∧ (u.chan n).prb.nqual = incTo 0xFFFF (p.chan n).prb.nqual
      ∧ (u.chan n).rail = (p.chan n).rail
      ∧ ((p.chan n).prbFails ((p.chan n).loopZ fc qeff) fc (loopMargin zeta) = false →
          (u.chan n).prb.anom = 0 ∧ exec (.probeFitDone wn zeta qeff fitQ) s = .next u)
      ∧ ((p.chan n).prbFails ((p.chan n).loopZ fc qeff) fc (loopMargin zeta) = true → fld (p.chan n).ch.prbCfg 10 3 ≠ 0 →
          fld (p.chan n).ch.prbCfg 10 3 ≤ incTo 7 (p.chan n).prb.anom →
          (u.chan n).prb.anom = 0
            ∧ exec (.probeFitDone wn zeta qeff fitQ) s = .next ((u.chanEvent (8 * n + 7) u.now).settle u.now))
      ∧ ((p.chan n).prbFails ((p.chan n).loopZ fc qeff) fc (loopMargin zeta) = true →
          (fld (p.chan n).ch.prbCfg 10 3 = 0 ∨ incTo 7 (p.chan n).prb.anom < fld (p.chan n).ch.prbCfg 10 3) →
          (u.chan n).prb.anom = incTo 7 (p.chan n).prb.anom ∧ exec (.probeFitDone wn zeta qeff fitQ) s = .next u))

/-- Completion, ledger events and verdicts (R231 to R242, R454): a frame of the expected block on an UP link is counted and its event takes
tentative effect or is rejected, one of another block is answered with a NAK of the expected one and counted as received, as is
what goes on arriving of a block that a timeout has cut off; a passing verdict confirms the block, a failing one reverts it with
MCP_AUTH. A block that stands still is dropped first, and one whose successor arrives is complete (`p`; the model's readings,
notes/assumptions/26, 134). -/
def Obligations.LedgerEventsComplete : Prop :=
  (∀ (s p q : State) (blk n : Nat) (bytes : BitVec 16) (kind : BitVec 8) (group epoch : BitVec 32),
    p = (s.blockTimeout s.mcp.rxCur).blockOver blk → p.mcp.up = true → p.mcp.resumes blk p.now = false → blk = p.mcp.rxCur →
    n = tget 0 p.mcp.rxBytes blk → n + 32 ≤ 512 →
    q = { p with mcp := { p.mcp with
      rxBytes := tset 0 p.mcp.rxBytes blk (n + 32), rxSkip := false, rxCut := none, blkAt := p.now, heard := p.now } }.tpAdd 1
        (((n + 32) / 64 - n / 64) * 64) 0 0 →
    exec (.ledgerOpen blk bytes group epoch) s = .next (q.ledgerOpen blk bytes.toNat group.toNat epoch.toNat)
      ∧ exec (.ledgerDone blk group) s = .next (q.ledgerDone blk group.toNat)
      ∧ exec (.ledgerSeal blk { group := group, epoch := epoch }) s = .next (q.ledgerSeal blk group.toNat epoch.toNat)
      ∧ exec (.ledgerPad blk) s = .next q
      ∧ exec (.ledgerKindReject blk kind group) s = .next (if kind.toNat ≤ 3 then q else q.ledgerReject 2 group.toNat false)) ∧
  (∀ (s p : State) (blk : Nat) (bytes : BitVec 16) (kind : BitVec 8) (group epoch : BitVec 32) (w : Nat → State),
    p = (s.blockTimeout s.mcp.rxCur).blockOver blk → p.mcp.up = true → blk ≠ p.mcp.rxCur ∨ p.mcp.resumes blk p.now = true →
    (∀ len : Nat, w len = (if p.mcp.resumes blk p.now || p.mcp.rxSkip then p.stray len
      else (({ p with mcp := p.mcp.nak p.mcp.rxCur }.stray len).tpAdd 1 0 0 1).nakCheck p.now)) →
    exec (.ledgerOpen blk bytes group epoch) s = .next (w 32) ∧ exec (.ledgerDone blk group) s = .next (w 32)
      ∧ exec (.ledgerSeal blk { group := group, epoch := epoch }) s = .next (w 32) ∧ exec (.ledgerPad blk) s = .next (w 32)
      ∧ exec (.ledgerKindReject blk kind group) s = .next (w 32) ∧ exec (.mcpFill blk) s = .next (w 64)) ∧
  (∀ (s p u : State) (blk bytes group epoch : Nat),
    p = (if s.hld.openCheck (nLedger s.hw.variant) bytes group epoch = 6 then s.verdictsFirst blk else s) →
    u = { p with hld := { p.hld with
      entries := p.hld.entries ++ [{ group := group, epoch := epoch, bytes := bytes, openBlk := some blk }] } } →
    s.ledgerOpen blk bytes group epoch = (if p.hld.openCheck (nLedger s.hw.variant) bytes group epoch = 0 then u.settle u.now
      else p.ledgerReject (p.hld.openCheck (nLedger s.hw.variant) bytes group epoch) group true)) ∧
  (∀ (s : State) (blk group epoch : Nat),
    (s.hld.has group true = true → s.ledgerDone blk group = { s with hld := { s.hld with
        entries := s.hld.entries.map fun e => if e.group = group then { e with closeBlk := some blk } else e } })
      ∧ (s.hld.has group true = false → s.ledgerDone blk group = s.ledgerReject 5 group false)
      ∧ (s.hld.epochBad epoch = false →
          s.ledgerSeal blk group epoch = { s with hld := { s.hld with seals := s.hld.seals ++ [(blk, epoch)] } })
      ∧ (s.hld.epochBad epoch = true → s.ledgerSeal blk group epoch = s.ledgerReject 3 group false)) ∧
  (∀ (s u : State) (code group : Nat) (named : Bool),
    u = { s with hld := { s.hld with
      errCode := code, errCount := incTo 0xFFFF s.hld.errCount, errGrp := group, irq := Irq.set s.hld.irq 6 } } →
    s.ledgerReject code group named = ((u.report (if code = 6 then 1041 else 1042) s.now).admission
      (u.report (if code = 6 then 1041 else 1042) s.now).now (if named then [group] else [])).settle
        (u.report (if code = 6 then 1041 else 1042) s.now).now) ∧
  (∀ (s : State) (blk undef : Nat), s.mcp.due blk s.now = true →
    ∃ u : State, u.mcp = { s.mcp.passed blk with eType := min 0xFF (s.mcp.eType + undef), okAt := some (blk, s.now) }
      ∧ u.flt = s.flt ∧ u.seq = s.seq ∧ u.chans = s.chans ∧
      u.hld = { s.hld.confirm blk s.now with durable := durableOf (s.hld.confirm blk s.now).sealed_ (s.hld.confirm blk s.now).entries } ∧
      exec (.macVerifyPass blk undef) s = .next (u.settle s.now)) ∧
  (∀ (h : Hld) (blk now : Nat) (e : LEntry), e ∈ (h.confirm blk now).entries →
    e.openBlk ≠ some blk ∧ e.closeBlk ≠ some blk ∧ (e ∈ h.entries ∨ { e with openBlk := some blk } ∈ h.entries)) ∧
  (∀ (s : State) (blk : Nat), s.mcp.due blk s.now = true →
    ∃ u : State, u.mcp = s.mcp.failed blk ∧ u.flt = s.flt ∧ u.seq = s.seq ∧ u.chans = s.chans ∧
      u.hld = { s.hld.revert s.mcp.fromBlk with nBad := incTo 0xFFFF (s.hld.revert s.mcp.fromBlk).nBad } ∧
      exec (.macVerifyFail blk) s = .next (((u.report 1044 s.now).settle s.now).nakCheck s.now)) ∧
  (∀ (s : State) (blk undef : Nat), s.mcp.due blk s.now = false →
    exec (.macVerifyPass blk undef) s = .next s ∧ exec (.macVerifyFail blk) s = .next s)

/-- Completion, the MCP link (R447, R448, R451 to R456, R465, R483, R486): lanes, key establishment, alarms, acknowledgements, and the
losses of the link. A block that stands still does not count in NBAD (the model's choice, notes/assumptions/133). -/
def Obligations.McpLinkCompletes : Prop :=
  (∀ (s : State) (lane : Nat), s.running = true → s.pwr.prepared = false → lane < nLane s.hw.variant →
    (tget {} s.lt lane).mode = 0 → s.mcp.lanes.testBit lane = false → s.islLost 17 = false → s.mcp.link = .down → s.noKeyPath = false →
    ∃ t, exec (.mcpLaneInService lane) s = .next t ∧ t.mcp.link = .training ∧ t.mcp.lanes.testBit lane = true
      ∧ t.mcp.keyEnd = some (s.now + 10000) ∧ t.mcp.kxKey = s.pairKey ∧ t.mcp.txNext = 1 ∧ t.hld = s.hld ∧ t.flt = s.flt) ∧
  (∀ (s u : State) (lane : Nat), s.running = true → s.pwr.prepared = false → lane < nLane s.hw.variant →
    (tget {} s.lt lane).mode = 0 → s.mcp.lanes.testBit lane = false → s.islLost 17 = false →
    u = { s with mcp := { s.mcp with
      lanes := Nat.lor s.mcp.lanes (2 ^ lane), heard := s.now, irq := Irq.set s.mcp.irq 2 } } →
    (s.mcp.link = .down → s.noKeyPath = true → exec (.mcpLaneInService lane) s =
        .next (({ u with mcp := { u.mcp with link := .training } }.mcpLost 5 s.now).settle s.now))
      ∧ (s.mcp.link = .training → exec (.mcpLaneInService lane) s = .next u)
      ∧ (s.mcp.up = true → exec (.mcpLaneInService lane) s =
        .next { u with mcp := { u.mcp with link := linkOf s.hw.variant u.mcp.lanes } })) ∧
  (∀ (s p u : State) (lane hdr : Nat), s.mcp.lanes.testBit lane = true → p = s.lanesFirst lane →
    u = { p with mcp := { p.mcp with hdrErr := tset 0 p.mcp.hdrErr lane (min 0xFFFF (tget 0 p.mcp.hdrErr lane + hdr)) } } →
    exec (.mcpLaneLoss lane hdr) s = .next (if u.mcp.lanes - 2 ^ lane = 0 then (u.failsFirst.mcpLost 1 u.now).settle u.now
      else { u with mcp := { u.mcp with
        lanes := u.mcp.lanes - 2 ^ lane, irq := Irq.set u.mcp.irq 2
        link := if u.mcp.up then linkOf u.hw.variant (u.mcp.lanes - 2 ^ lane) else u.mcp.link } })) ∧
  (∀ (s : State) (nonce : List (BitVec 8)), s.mcp.link = .training → runsPast s.mcp.keyEnd s.now = true →
    ∃ u : State, u.mcp.keyed = true ∧ u.mcp.key = s.linkKey nonce ∧ u.mcp.link = linkOf s.hw.variant s.mcp.lanes
      ∧ u.mcp.rxNext = 1 ∧ u.mcp.admDue = true ∧ u.hld = s.hld ∧ u.flt = s.flt ∧
      exec (.mcpKx 0 nonce) s = .next (u.settle s.now)) ∧
  (∀ (s : State) (t : Nat), s.mcp.keyEnd = some t → t ≤ s.now →
    exec .mcpKeyTimeout s = .next ((s.failsFirst.mcpLost 5 t).settle t)) ∧
  (∀ (s u : State) (blk : Nat) (i : BitVec 8), s.mcp.verified blk s.now = true →
    u = { s with sec := { s.sec with
      keyCode := if s.sec.restored = some (s.now, i.toNat) then 2 else s.sec.keyCode
      held := s.sec.held ||| BitVec.ofNat 256 (2 ^ i.toNat), alarmTs := tset 0 s.sec.alarmTs i.toNat (s.now + 1)
      irq := Irq.set s.sec.irq 6 } } →
    exec (.mcpAlarm blk i) s = .next ((u.report 1045 u.now).settle u.now)) ∧
  (∀ (s : State) (blk : Nat), s.mcp.verified blk s.now = true →
    exec (.mcpDrainAck blk) s = .next { s with mcp := { s.mcp with dack := true } }) ∧
  (∀ (s : State) (blk : Nat) (i : BitVec 8), s.mcp.verified blk s.now = false →
    exec (.mcpAlarm blk i) s = .next s ∧ exec (.mcpDrainAck blk) s = .next s) ∧
  (∀ (s p : State) (blk n : Nat), p = (s.blockTimeout s.mcp.rxCur).blockOver blk → p.mcp.up = true →
    p.mcp.resumes blk p.now = false → blk = p.mcp.rxCur →
    n = tget 0 p.mcp.rxBytes blk → n + 64 ≤ 512 →
    ∃ t, exec (.mcpFill blk) s = .next t ∧ t.flt = p.flt ∧ t.hld = p.hld ∧ tget 0 t.mcp.rxBytes blk = n + 64
      ∧ t.mcp.blkAt = p.now) ∧
  (∀ (s : State) (n : Nat), s.mcp.link ≠ .down → (s.mcp.unacked.any fun b => decide (b.sentAt + 2000 ≤ s.now)) = false →
    exec (.mcpLctlAck n) s = .next { s with mcp := s.mcp.acked n s.now }) ∧
  (∀ (s : State) (n : Nat), s.mcp.link ≠ .down → (s.mcp.unacked.any fun b => decide (b.sentAt + 2000 ≤ s.now)) = true →
    exec .mcpAckTimeout s = .next ((s.failsFirst.mcpLost 3 s.now).settle s.now)
      ∧ exec (.mcpLctlAck n) s = .next ((s.failsFirst.mcpLost 3 s.now).settle s.now)) ∧
  (∀ (s u : State) (n : Nat), s.mcp.link ≠ .down → (s.mcp.unacked.map (·.n)).contains n = true →
    u = (if 4 ≤ (s.mcp.naked n s.now).txNakRow then s.failsFirst else s) →
    exec (.mcpLctlNak n) s =
      .next (if u.mcp.link = .down then u else ({ u with mcp := u.mcp.naked n u.now }.nakCheck u.now).settle u.now)) ∧
  (∀ (s u : State) (blk : Nat), s.mcp.up = true → s.mcp.openBlk blk = true → s.mcp.blkAt + 100 ≤ s.now →
    u = { s with
      hld := s.hld.revert (fun b => b == blk)
      mcp := { s.mcp with
        rxBytes := tset 0 s.mcp.rxBytes blk 0, eTout := incTo 0xFF s.mcp.eTout
        rxCut := some (s.now, 512 - tget 0 s.mcp.rxBytes blk, false) }.nak blk } →
    exec (.mcpBlockTimeout blk) s = .next (((u.tpAdd 1 0 0 1).settle s.now).nakCheck s.now)) ∧
  (∀ s : State, s.mcp.link ≠ .down → s.mcp.heard + 1000 ≤ s.now →
    exec .mcpSilence s = .next ((s.failsFirst.mcpLost 4 s.now).settle s.now))

/-- Completion, HLD_CTRL and the epoch records (R256, R259, R266, R269): an OPERATOR session holds, releases and drains, or reads why not,
and the record of a period that has ended is written where the durable epoch had advanced. -/
def Obligations.HoldCommandsComplete : Prop :=
  (∀ (s u : State) (l : Level), s.writer 0x50040 .user = some l → l.ge .operator = true →
    u = { s with hld := { s.hld with code := 0, cause := { s.hld.cause with host := true } } } →
    exec .hldHold s = .next ((u.admission s.now []).settle (u.admission s.now []).now)) ∧
  (∀ (s u : State) (l : Level), s.writer 0x50040 .user = some l → l.ge .operator = true →
    u = { s with hld := { s.hld with code := 0, cause := { s.hld.cause with host := false } } } →
    exec .hldRelease s = .next ((u.admission s.now []).settle (u.admission s.now []).now)) ∧
  (∀ (s u v : State) (l : Level), s.writer 0x50040 .user = some l → l.ge .operator = true →
    (s.hld.drain.all fun d => d.loss && decide (d.began = s.now)) = true → s.mcp.up = true → s.rst HS = .good →
    u = { s with hld := { s.hld with code := 0, cause := { s.hld.cause with host := true } } } →
    v = (u.admission s.now []).drainStart 2 (u.admission s.now []).now →
    exec .hldDrain s = .next (v.settle (u.admission s.now []).now)) ∧
  (∀ (s : State) (l : Level) (c : Nat), s.writer 0x50040 .user = some l →
    c = (if !l.ge .operator then 1
      else if (s.hld.drain.all fun d => d.loss && decide (d.began = s.now)) = false then 3
      else if s.mcp.up = false ∨ s.rst HS ≠ .good then 4 else 0) → c ≠ 0 →
    exec .hldDrain s = .next { s with hld := { s.hld with code := c } }) ∧
  (∀ (s : State) (l : Level), s.writer 0x50040 .user = some l → l.ge .operator = false →
    exec .hldHold s = .next { s with hld := { s.hld with code := 1 } }
      ∧ exec .hldRelease s = .next { s with hld := { s.hld with code := 1 } }) ∧
  (∀ (s u : State) (t : Nat), s.running = true → s.hld.epochNext = some t → t < s.now → fld s.hld.cfg 24 8 ≠ 0 →
    u = { s with hld := { s.hld with epochNext := some (t + fld s.hld.cfg 24 8 * 10000000) } } →
    exec .epochRecordPeriod s = .next (if epochLater s.hld.epochDur s.hld.lastEpochRec then
        ({ u with hld := { u.hld with lastEpochRec := s.hld.epochDur } }).record 1 0x02 0 t [(16, leBytes 4 s.hld.epochDur)]
      else u))

/-- Completion, FLT_CMD (R281, R285, R298 to R300, R302, R306, R446): acknowledging, clearing, leaving the safe state and rearming the
first fault, each with what refuses it; the safe state is left at the end of the tick; and what FAULT_N and ALERT_N show. -/
def Obligations.FaultCommandsComplete : Prop :=
  (∀ (s : State) (l : Level) (i : BitVec 11) (g : Nat), s.writer 0x20004 .user = some l → l.ge .operator = true →
    srcNamed s.hw.variant i.toNat = true → (s.flt.src i.toNat).grace = some g → s.now < g →
    ∃ t, exec (.fltAck i) s = .next t ∧ (t.flt.src i.toNat).grace = none ∧ (t.flt.src i.toNat).ack = true
      ∧ (t.flt.src i.toNat).pend = (s.flt.src i.toNat).pend ∧ t.flt.cmdCode = 0 ∧ t.chans = s.chans ∧ t.seq = s.seq
      ∧ t.hld = s.hld ∧ t.env = s.env) ∧
  (∀ (s : State) (l : Level) (i : BitVec 11) (c : Nat), s.writer 0x20004 .user = some l →
    c = (if !l.ge .operator then 1 else if !srcNamed s.hw.variant i.toNat then 2
      else if (s.flt.src i.toNat).grace.all (fun g => decide (g ≤ s.now)) then 4 else 0) → c ≠ 0 →
    exec (.fltAck i) s = .next (s.cmdRefuse c)) ∧
  (∀ (s : State) (l : Level) (i : BitVec 11), s.writer 0x20004 .user = some l → l.ge .operator = true →
    srcNamed s.hw.variant i.toNat = true → (s.flt.src i.toNat).pend = true → s.causePresent i.toNat = false →
    ∃ t, exec (.fltClr i) s = .next t ∧ (t.flt.src i.toNat).pend = false ∧ (t.flt.src i.toNat).ack = false
      ∧ t.flt.cmdCode = 0 ∧ t.chans = s.chans ∧ t.seq = s.seq ∧ t.hld = s.hld ∧ t.env = s.env
      ∧ (∀ g, (s.flt.src i.toNat).grace = some g → s.now < g → (t.flt.src i.toNat).grace = none)) ∧
  (∀ (s : State) (l : Level) (i : BitVec 11) (c : Nat), s.writer 0x20004 .user = some l →
    c = (if !l.ge .operator then 1 else if !srcNamed s.hw.variant i.toNat then 2 else if !(s.flt.src i.toNat).pend then 4
      else if s.causePresent i.toNat then 3 else 0) → c ≠ 0 →
    exec (.fltClr i) s = .next (s.cmdRefuse c)) ∧
  (∀ (s : State) (l : Level) (x : Safe), s.writer 0x20004 .user = some l → l.ge .owner = true →
    s.flt.safe = some x → x.step = 7 → s.unclear = false →
    exec .fltSafeClr s = .next { s with flt := { s.flt with safeReq := true, cmdCode := 0 } }) ∧
  (∀ (s : State) (l : Level) (c : Nat), s.writer 0x20004 .user = some l →
    c = (if !l.ge .owner then 1 else if s.flt.safe.all (fun x => decide (x.step ≠ 7)) then 6 else if s.unclear then 5 else 0) →
    c ≠ 0 → exec .fltSafeClr s = .next (s.cmdRefuse c)) ∧
  (∀ s u : State, s.flt.safeReq = true → s.unclear = false →
    u = { s with flt := { s.flt with safeReq := false, safe := none }
                 hld := { s.hld with cause := { s.hld.cause with safe := false } } } →
    s.safeLeave = (u.disAll s.now).settle s.now) ∧
  (∀ (s : State) (l : Level), s.writer 0x20004 .user = some l → l.ge .operator = true → s.unclearBefore = false →
    ∃ t, exec .fltFfRearm s = .next t ∧ t.flt.ff = none ∧ t.flt.cmdCode = 0 ∧ t.flt.rearmAt = s.now ∧ t.chans = s.chans
      ∧ t.seq = s.seq ∧ t.hld = s.hld ∧ (∀ e ∈ t.flt.elig, e ∈ s.flt.elig ∧ s.now ≤ e.stamp)) ∧
  (∀ (s : State) (l : Level) (c : Nat), s.writer 0x20004 .user = some l →
    c = (if !l.ge .operator then 1 else if s.unclearBefore then 5 else 0) → c ≠ 0 → exec .fltFfRearm s = .next (s.cmdRefuse c)) ∧
  (∀ (s : State) (c : Nat), (s.cmdRefuse c).flt = { s.flt with cmdCode := c, irq := Irq.set s.flt.irq 5 }
    ∧ (s.cmdRefuse c).chans = s.chans ∧ (s.cmdRefuse c).seq = s.seq ∧ (s.cmdRefuse c).env = s.env) ∧
  (∀ (s u : State) (l : Level) (bits : BitVec 5), s.writer 0x20040 .operator = some l →
    u = { s with flt := { s.flt with
      priv := ((List.range 5).filter fun i => bits.toNat.testBit i && s.flt.priv.testBit i
          && !(s.privCause i || s.flt.privNew.testBit i)).foldl (fun p i => p - 2 ^ i) s.flt.priv } } →
    exec (.fltPrivClear bits) s = .next (u.settle u.now)) ∧
  (∀ s : State, s.sys.vauxDown = false → s.sys.phase ≠ .por → s.scanHolds = false →
    s.faultPin = (if s.faultLow then .low else .high) ∧ (s.faultLow = true ↔ (∃ e ∈ s.flt.srcs, e.2.pend = true) ∨ s.flt.priv ≠ 0
      ∨ s.flt.safe.isSome = true ∨ s.configured = false ∨ s.sys.haltHold = true)) ∧
  (∀ s : State, s.scanHolds = false → s.alertPin = (if s.alertLow then .low else .float) ∧
    (s.alertLow = true ↔ s.flt.priv ≠ 0 ∨ s.configured = true ∧ s.rungOk = true ∧ s.irqAny = true)) ∧
  (∀ s : State, s.irqAny = true ↔ ∃ e : Irq × Word, (∃ i, i < 32 ∧ wbit e.1.st i = true ∧ wbit e.2 i = true) ∧
    (e ∈ [(s.sys.irq, s.sys.irqEn), (s.pwr.irq, s.pwr.irqEn), (s.seq.irq, s.seq.irqEn), (s.seq.springIrq, s.seq.springIrqEn),
        (s.flt.irq, s.flt.irqEn), (s.wdg.irq, s.wdg.irqEn), (s.gpio.irq, s.gpio.irqEn), (s.gpio.intStat, w32 s.gpio.intEn),
        (s.cnt.irq, s.cnt.irqEn), (s.hld.irq, s.hld.irqEn), (s.sec.irq, s.sec.irqEn), (s.env.irq, s.env.irqEn),
        (s.cfg.irq, s.cfg.irqEn), (s.cas.irq, s.cas.irqEn), (s.mcp.irq, s.mcp.irqEn), (s.bbx.irq, s.bbx.irqEn)] ∨
      ∃ c ∈ s.chans, e = (c.2.sense.irq, c.2.sense.irqEn) ∨ e = (c.2.mgn.irq, c.2.mgn.irqEn)))

/-- Completion, the fault collector (R275 to R277, R279, R282, R287, R290, R295, R303 to R306, R423): wire faults, the first fault,
decay, grace expiry once its tick has nothing else to come (the model's reading, notes/assumptions/4), the steps of the safe state, a
self-fault, an injection, and the log. -/
def Obligations.FaultCollectorCompletes : Prop :=
  (∀ (s t : State) (i : Nat), s.active = true → t = s.reportWire i s.now false →
    exec (.wireFault i) s =
      .next ((if s.hw.variant == .dz32 && isChSrc i && s.srcLive i then t.safeEnter i s.now else t).settle s.now)) ∧
  (∀ (s p u : State) (m : Nat) (f : FirstFault), s.active = true → p = s.prior → p.flt.ff = none →
    (p.flt.elig.map (·.stamp)).min? = some m → p.settledBy m = true → firstOf p.flt.elig m = some f →
    u = ({ p with flt := { p.flt with ff := some f, elig := [], irq := Irq.set p.flt.irq 1 } }).record 1 0x04 0 m
      [(16, leBytes 4 f.word.toNat), (20, leBytes 4 f.coWord.toNat)] →
    exec .firstFaultLatch s = .next (((u.casUp (.fault u.cas.addr f.src f.level false m)).bbxTrigger 1 f.src m).ffEarly f.src m)) ∧
  (∀ (s : State) (i a : Nat), s.active = true → (s.flt.src i).pend = false → (s.flt.src i).last = some a →
    (s.flt.src i).decayAt ≤ s.now → a ≠ s.now →
    ∃ t, exec (.sourceLevelDecay i) s = .next t ∧ (t.flt.src i).up = 0 ∧ (t.flt.src i).pend = false ∧ t.chans = s.chans
      ∧ t.seq = s.seq) ∧
  (∀ (s p u v w : State) (g : Nat), s.graceMin = some g → s.lastOf g = true → s.active = true → p = s.upTo g SeqItem.react.rank →
    p.itemAt .react HS = some g → u = p.settleTo g → v = u.latchFirst →
    w = { v with flt := { v.flt with
      expReset := if v.flt.expReset = some g then none else v.flt.expReset
      srcs := tmap {} (fun _ x => if x.grace = some g then { x with grace := none } else x) v.flt.srcs } } →
    exec .graceExpiry s = .next ((w.react (v.dueOf g) g).settle g)) ∧
  (∀ (s p : State) (x : Safe), s.active = true → p = s.prior → p.flt.safe = some x →
    (x.step = 2 → p.hld.drain = none → exec .safeStateAdvance s = .next (p.safeStep 3))
      ∧ (x.step = 3 → p.sec.permit = 0 → p.revokesSent = true →
          exec .safeStateAdvance s = .next (((p.safeStep 4).shutDown none 5 x.origin p.now []).settle p.now))
      ∧ (x.step = 4 → p.railsDown = true → exec .safeStateAdvance s = .next (p.safeStep 5))
      ∧ (x.step = 5 → exec .safeStateAdvance s = .next ((p.safeStep 6).recordAt 1 0x06 0 x.stamp p.now p.safeParts))) ∧
  (∀ (s u : State) (why : BitVec 4), s.active = true → 1 ≤ why.toNat → why.toNat ≤ 4 →
    u = { s with flt := { s.flt with selfWhy := why.toNat, selfEnd := s.now + Config.selfLen s.now } } →
    exec (.collectorSelfFault why) s = .next (((u.privEvent 3 u.now).safeEnter 2047 u.now).settle u.now)) ∧
  (∀ s : State, s.active = true →
    exec (.collectorSelfFault 0) s = .next { s with flt := { s.flt with corr := incTo 0xFF s.flt.corr } }) ∧
  (∀ (s u : State) (l : Level) (i : BitVec 11), s.writer 0x20070 .operator = some l → s.sec.dbg = .factory →
    s.lcs = .blank ∨ s.lcs = .returned → srcNamed s.hw.variant i.toNat = true →
    u = { s with flt := { s.flt with injCode := 0 } } →
    exec (.fltInjGo i false) s = .next ((u.chanEvent i.toNat s.now true).settle s.now) ∧
      exec (.fltInjGo i true) s = .next (u.wireEvent i.toNat s.now true)) ∧
  (∀ (s : State) (l : Level) (i : BitVec 11) (wire : Bool) (c : Nat), s.writer 0x20070 .operator = some l →
    c = (if s.sec.dbg ≠ .factory ∨ (s.lcs ≠ .blank ∧ s.lcs ≠ .returned) then 1
      else if !srcNamed s.hw.variant i.toNat then 2 else 0) → c ≠ 0 →
    exec (.fltInjGo i wire) s = .next { s with flt := { s.flt with injCode := c } }) ∧
  (∀ (s : State) (l : Level) (e : FEntry) (r : List FEntry), s.hmp.session = some l → s.hmpUp = true →
    s.notReady 0x20060 false = false → s.rungOk = true → s.islLost 16 = false → s.flt.log = e :: r →
    ∃ t, exec .fltLogRead s = .next t ∧ t.flt.log = r ∧ t.flt.logTs = e.stamp ∧ t.chans = s.chans ∧ t.seq = s.seq) ∧
  (∀ (s : State) (l : Level), s.writer 0x20068 .operator = some l →
    ∃ t, exec .fltLogClr s = .next t ∧ t.flt.log = [] ∧ t.flt.logOvf = false ∧ t.chans = s.chans ∧ t.seq = s.seq) ∧
  (∀ (s : State) (f : FirstFault) (m code t : Nat), s.flt.ff = some f → s.flt.early = [(f.src, code, t)] → m ≤ t →
    (s.ffEarly f.src m).flt.ff = some { f with react := code } ∧ (s.ffEarly f.src m).chans = s.chans)

/-- Completion, the watchdog (R307 to R331): its start, its period, check-ins, both services with their refusals, its expiry, WDO and
the clock monitor. An expiry that has come is carried out first (`p`). -/
def Obligations.WatchdogCompletes : Prop :=
  (∀ (s : State) (l : Level), s.writer 0x30008 .user = some l → s.wdg.run = false →
    ∃ t, exec .wdgStart s = .next t ∧ t.chans = s.chans ∧ t.flt = s.flt
      ∧ (l.ge .operator = true → t.wdg.run = true ∧ t.wdg.start = s.now ∧ t.wdg.opened = false ∧ t.wdg.code = 0)
      ∧ (l.ge .operator = false → t.wdg = { s.wdg with code := 0xB })) ∧
  (∀ s : State, s.wdgLive = true → s.wdg.isOpen s.sys.taken.win s.now = true → s.wdg.opened = false →
    ∃ t, exec .wdgWindowOpen s = .next t ∧ t.wdg.opened = true ∧ t.wdg.irq.st.getLsbD 0 = true ∧ t.chans = s.chans
      ∧ t.flt = s.flt) ∧
  (∀ s : State, s.wdgLive = true → s.wdg.start + s.wdg.len ≤ s.now →
    exec .wdgExpiry s = .next ((s.upTo (s.wdg.start + s.wdg.len) 0).wdgExpire (s.wdg.start + s.wdg.len))) ∧
  (∀ (s : State) (t : Nat), ∃ u : State, s.wdgExpire t = u.settle t ∧ u.wdg.nexp = incTo 255 s.wdg.nexp ∧ u.wdg.expAt = some t
    ∧ u.wdg.start = t ∧ u.wdg.expiredSince = true ∧ u.flt.priv.testBit 0 = true ∧ u.wdg.q = qNext s.wdg.q
    ∧ u.flt.expReset = (if wbit s.wdg.cfg 24 && s.running then some t else s.flt.expReset)) ∧
  (∀ (s p : State) (l : Level) (next : BitVec 13), s.writer 0x30004 .user = some l → p = s.wdgCatch →
    exec (.wdgPeriodWrite next) s = .next (
      if !l.ge .operator then p.wdgRefuse 0xB else if !p.wdg.run then p.wdgRefuse 0xC
      else if !p.wdg.isOpen p.sys.taken.win p.now then p.wdgRefuse 9
      else if next = 0 ∨ 4096 < next.toNat then p.wdgRefuse 0xA
      else { p with wdg := { p.wdg with nextMs := next.toNat, pending := true, code := 0 } })) ∧
  (∀ (s p : State) (l : Level) (i : BitVec 3) (a : BitVec 16), s.writer 0x30014 .user = some l → p = s.wdgCatch →
    p.wdg.gate true p.now = 0 → p.wdg.checked.testBit i.toNat = false → p.wdg.flag.testBit i.toNat = false →
    p.wdg.dup.testBit i.toNat = false →
    exec (.wdgAns i a) s = .next (
      if wbit (tget 0 p.wdg.tasks i.toNat) 16 ∧ a.toNat = wdgAnswer p.wdg.q (fld (tget 0 p.wdg.tasks i.toNat) 0 16) i.toNat then
        { p with wdg := { p.wdg with checked := Nat.lor p.wdg.checked (2 ^ i.toNat), code := 0 } }
      else { p with wdg := { p.wdg with flag := Nat.lor p.wdg.flag (2 ^ i.toNat) } }.wdgRefuse 4)) ∧
  (∀ (s p : State) (l : Level) (i : BitVec 3) (a : BitVec 16), s.writer 0x30014 .user = some l → p = s.wdgCatch →
    p.wdg.gate true p.now = 0 →
    (p.wdg.checked.testBit i.toNat || p.wdg.flag.testBit i.toNat || p.wdg.dup.testBit i.toNat) = true →
    exec (.wdgAns i a) s = .next ({ p with wdg := { p.wdg with dup := Nat.lor p.wdg.dup (2 ^ i.toNat) } }.wdgRefuse 3)) ∧
  (∀ (s p : State) (l : Level) (i : BitVec 3) (a v : BitVec 16) (c : Nat), p = s.wdgCatch → p.wdg.gate true p.now = c → c ≠ 0 →
    (s.writer 0x30014 .user = some l → exec (.wdgAns i a) s = .next (p.wdgRefuse c))
      ∧ (s.writer 0x30018 .user = some l → exec (.wdgSvc v) s = .next (p.wdgRefuse c))) ∧
  (∀ (s p : State) (l : Level) (v : BitVec 16) (c : Nat), s.writer 0x30018 .user = some l → p = s.wdgCatch →
    p.wdg.gate true p.now = 0 → c = p.wdg.svcCheck v.toNat p.sys.taken.win p.now →
    exec (.wdgSvc v) s = .next (if c = 0 then p.wdgAccept else if c = 1 then p.wdgRaise 1 1057
      else ({ p with wdg := { p.wdg with checked := 0, flag := 0, dup := 0 } }).wdgRaise c 1056)) ∧
  (∀ s : State, ∃ u : State, s.wdgAccept = u.settle u.now ∧ u.wdg.start = s.now ∧ u.wdg.code = 0 ∧ u.wdg.q = qNext s.wdg.q
    ∧ u.wdg.expiredSince = false ∧ u.wdg.irq.st.getLsbD 1 = true ∧ u.flt = s.flt ∧ u.chans = s.chans) ∧
  (∀ (s p : State) (l : Level) (key : BitVec 16), s.writer 0x3001C .user = some l → p = s.wdgCatch.keyEnds →
    p.wdg.gate false p.now = 0 → p.wdg.keyAt = none →
    exec (.wdgKey key) s = .next (if p.wdg.failAt = some p.now then p.wdgRefuse 6
      else if key = 0xA5C3 then { p with wdg := { p.wdg with keyAt := some p.now } } else p.keyFails)) ∧
  (∀ (s p q : State) (l : Level) (key : BitVec 16) (k : Nat), s.writer 0x3001C .user = some l → p = s.wdgCatch.keyEnds →
    p.wdg.gate false p.now = 0 → p.wdg.keyAt = some k → q = { p with wdg := { p.wdg with keyAt := none } } →
    exec (.wdgKey key) s = .next (if q.leavesKey then q.wdgRefuse 7 else if key ≠ 0x3C5A then q.keyFails
      else if p.wdg.isOpen p.sys.taken.win p.now then q.wdgAccept else q.wdgRaise 1 1057)) ∧
  (∀ (s p : State) (l : Level) (key : BitVec 16) (c : Nat), s.writer 0x3001C .user = some l → p = s.wdgCatch.keyEnds →
    p.wdg.gate false p.now = c → c ≠ 0 → exec (.wdgKey key) s = .next (p.wdgRefuse c)) ∧
  (∀ (s : State) (k : Nat), s.wdgLive = true → s.wdg.keyAt = some k → k + 1000 ≤ s.now →
    ∃ u : State, u = { s with wdg := { s.wdg with keyAt := none, failAt := some (k + 1000) } }.wdgRefuse 6 ∧
      exec .wdgKeyPairTimeout s = .next ((u.report 1056 (k + 1000)).settle (k + 1000))) ∧
  (∀ (s : State) (e : Nat), s.wdg.wdoEnd = some e → e ≤ s.now →
    ∃ t, exec .wdoPulseEnd s = .next t ∧ t.wdg.wdoEnd = none ∧ t.wdg.run = s.wdg.run ∧ t.chans = s.chans ∧ t.flt = s.flt) ∧
  (∀ (s : State) (n : Nat), s.wdg.armed = true → 800 ≤ n → n ≤ 1200 →
    ∃ t, exec (.clkmonWindowEnd n false) s = .next t ∧ t.wdg.last = n ∧ t.wdg.clkCause = false
      ∧ t.sys = s.sys ∧ t.flt = s.flt ∧ t.chans = s.chans) ∧
  (∀ (s : State) (n : Nat) (e : Bool), s.wdg.armed = true → n < 800 ∨ 1200 < n ∨ e = true →
    ∃ t, exec (.clkmonWindowEnd n e) s = .next t ∧ t.sys.mainClock = false ∧ t.wdg.armed = false ∧ t.wdg.clkCause = true
      ∧ t.wdg.wdoEnd = some (s.now + s.wdg.wdoMs * 100000) ∧ t.flt.priv.testBit 1 = true)

/-- Completion, host access to the ENV store (R333 to R339, R440): READ takes the checked line into the buffer, WRITE_FULL and WRITE_PART
begin a line write or are refused by the old line's check, the response carries the code, and the line holds the bytes once its
marker is written, 20 µs after its bank was granted. -/
def Obligations.EnvAccessCompletes : Prop :=
  (∀ (s r u v : State) (l : Level) (f : LineFlaws), s.writer 0x70034 .user = some l → s.accRefusal .read l = 0 →
    r = s.readLine f s.env.accAddr →
    u = { r with env := { r.env with
      buf := putBytes [] 0 (if s.env.check f s.env.accAddr = some .ecc then List.replicate 64 0 else s.env.lineAt s.env.accAddr)
      accCode := if tget false s.env.marked s.env.accAddr = false then 1
        else match s.env.check f s.env.accAddr with | some .tag => 2 | some _ => 3 | none => 0
      irq := Irq.set r.env.irq 4 } } →
    v = u.settle s.now →
    exec (.envRead f) s = .next (v.answerOk s.now (if v.env.accCode = 0 then 0 else 9) v.env.accCode [])) ∧
  (∀ (s r u v : State) (l : Level) (f : LineFlaws), s.writer 0x70034 .user = some l → s.accRefusal .full l = 0 →
    r = s.readLine f s.env.accAddr →
    u = (if s.env.check f s.env.accAddr = none ∨ l.ge .owner = true then
        { r with env := { r.env with
          accCode := 0, acc := some { line := r.env.accAddr, bytes := s.env.bufBytes } }.grant r.hw.variant r.now }
      else { r with env := { r.env with accCode := if s.env.check f s.env.accAddr = some .tag then 2 else 3 } }) →
    v = u.settle s.now →
    exec (.envWriteFull f) s = .next (v.answerOk s.now (if v.env.accCode = 0 then 0 else 9) v.env.accCode [])) ∧
  (∀ (s r u v : State) (l : Level) (f : LineFlaws), s.writer 0x70034 .user = some l → s.accRefusal .part l = 0 →
    r = s.readLine f s.env.accAddr →
    u = (if s.env.check f s.env.accAddr = none then
        { r with env := { r.env with
          accCode := 0
          acc := some { line := r.env.accAddr, bytes := s.env.merged (s.env.lineAt s.env.accAddr) } }.grant r.hw.variant r.now }
      else { r with env := { r.env with accCode := if s.env.check f s.env.accAddr = some .tag then 2 else 3 } }) →
    v = u.settle s.now →
    exec (.envWritePart f) s = .next (v.answerOk s.now (if v.env.accCode = 0 then 0 else 9) v.env.accCode [])) ∧
  (∀ (s : State) (l : Level) (f : LineFlaws) (c : AccCmd) (k : Nat), s.writer 0x70034 .user = some l → s.accRefusal c l = k → k ≠ 0 →
    exec (match c with | .read => .envRead f | .full => .envWriteFull f | .part => .envWritePart f) s =
      .next (({ s with env := { s.env with accCode := k } }).answerOk s.now 9 k [])) ∧
  (∀ (s : State) (f : LineFlaws) (a : Nat), s.env.check f a = none →
    (s.readLine f a).flt = s.flt ∧ (s.readLine f a).env.cells = s.env.cells ∧ (s.readLine f a).env.marked = s.env.marked) ∧
  (∀ (s : State) (o : AccOp) (g : Nat), s.env.acc = some o → o.granted = some g → g + lineTime ≤ s.now → s.ctrlUp = true →
    ∃ t, exec .envLineWriteDone s = .next t ∧ t.env.acc = none ∧ t.env.cells = (s.env.putLine o.line o.bytes).cells
      ∧ t.env.marked = (s.env.putLine o.line o.bytes).marked ∧ t.chans = s.chans ∧ t.flt = s.flt)

/-- Completion, the journal (R333, R343, R345, R346, R350 to R354): a record's marker appends it and the next write begins; hours and the
COUNT period queue their records; a harvest begins and ends; the reader loads records in the order of SEQ, those that fail their
check left out. -/
def Obligations.JournalCompletes : Prop :=
  (∀ (s p e u : State) (w : JWrite) (g t : Nat), s.env.writing = some w → w.granted = some g → s.storeUp = true →
    t = g + lineTime → t ≤ s.now → p = s.upTo t 0 →
    e = { p with env := { p.env.putLine (logAddr p.hw.variant w.line) (recLine p.env.run w.seq w.rec_) with
        writing := none, jseq := w.seq, jline := (w.line + 1) % logLines p.hw.variant } } →
    u = (e.markRec (recLine p.env.run w.seq w.rec_) t).harvestAuto p.segUsed →
    exec .journalRecordAppend s =
      .next ({ u with env := (u.env.kick p.hw.variant u.storeUp t).grant p.hw.variant t }.settle t)) ∧
  (∀ s u : State, s.ctrlUp = true → 3600 * tSec ≤ s.env.hourPart →
    u = { s with env := { s.env with hours := s.env.hours + 1, hourPart := s.env.hourPart - 3600 * tSec } } →
    exec .hoursIncrement s = .next (u.record 3 0x0C 0 u.now [(16, leBytes 4 (s.env.hours + 1))])) ∧
  (∀ s : State, s.env.hourPart < 3600 * tSec → exec .hoursIncrement s = .next s) ∧
  (∀ (s u : State) (t : Nat), s.running = true → s.env.cntNext = some t → t ≤ s.now → fld s.env.jcfg 0 8 ≠ 0 →
    u = { s with env := { s.env with cntNext := some (t + fld s.env.jcfg 0 8 * 60 * tSec) } } →
    exec .countRecordPeriod s = .next (u.countRecords t)) ∧
  (∀ (s : State) (l : Level), s.writer 0x70020 .user = some l →
    ∃ t, exec .envHarvest s = .next t ∧ t.env.queue = s.env.queue ∧ t.chans = s.chans ∧ t.flt = s.flt
      ∧ (l.ge .operator = true → s.env.harvest = none → s.storeUp = true → t.env.harvest = some s.env.jseq ∧ t.env.code = 0)
      ∧ (l.ge .operator = true → s.env.harvest.isSome = true ∨ s.storeUp = false →
          t = { s with env := { s.env with code := 0 } })
      ∧ (l.ge .operator = false → t = { s with env := { s.env with code := 1 } })) ∧
  (∀ (s r e x u : State) (f : LineFlaws) (base run k : Nat) (recs : List (List Byte)), s.env.harvest = some base → s.storeUp = true →
    k = 1 - s.env.ckpt → recs = ((s.env.readable s.hw.variant f).filter fun y => decide (lSeq y.2 ≤ base)).map (·.2) →
    run = ((newest recs [0x01]).map lRun).getD 0 →
    r = ((s.env.held s.hw.variant).filter fun y => decide (lSeq y.2 ≤ base)).foldl (fun z y => z.readLine f y.1) s →
    e = { r with env := { r.env.ckWrite s.hw.variant k (r.env.gen + 1) base (harvestPick run [] recs) with harvest := none } } →
    x = (e.env.ckAddrs s.hw.variant k).foldl (fun y a => y.readLine f a) e →
    u = (if x.env.ckValid s.hw.variant f k then
        { x with env := { x.env.retire s.hw.variant base with
          ckpt := k, gen := x.env.gen + 1, base := base, irq := Irq.set x.env.irq 0 } }
      else { x with env := { x.env with hfail := incTo 0xFF x.env.hfail, harvRetry := true, irq := Irq.set x.env.irq 1 } }) →
    exec (.harvestDone f) s = .next (u.settle u.now)) ∧
  (∀ (s : State) (l : Level) (seq : BitVec 32), s.writer 0x70080 .operator = some l →
    exec (.jrdFrom seq) s = .next ((s.jrdSet seq.toNat (Config.readFlaws s.now)).settle s.now)) ∧
  (∀ (s : State) (l : Level), s.writer 0x70084 .operator = some l →
    exec .jrdNext s = .next ((s.jrdLoad (Config.readFlaws s.now)).settle s.now)) ∧
  (∀ (s : State) (f : LineFlaws) (x : Nat × List Byte),
    ((s.env.held s.hw.variant).find? fun y => decide (s.env.jrdFrom ≤ lSeq y.2) && (s.env.check f y.1).isNone) = some x →
    (s.jrdLoad f).env.jrd = some (lSeq x.2, x.2) ∧ (s.jrdLoad f).env.jrdFrom = lSeq x.2 + 1
      ∧ (s.jrdLoad f).env.cells = s.env.cells ∧ (s.jrdLoad f).chans = s.chans) ∧
  (∀ (s : State) (f : LineFlaws),
    ((s.env.held s.hw.variant).find? fun y => decide (s.env.jrdFrom ≤ lSeq y.2) && (s.env.check f y.1).isNone) = none →
    (s.jrdLoad f).env.jrd = none ∧ (s.jrdLoad f).env.jrdFrom = s.env.jrdFrom ∧ (s.jrdLoad f).env.cells = s.env.cells)

/-- Completion, the black box (R357 to R366, R344): chunks, a host trigger, a release, which ends with its record, and the commit of a
capture, given up where its record is dropped. -/
def Obligations.BlackBoxCompletes : Prop :=
  (∀ (s u : State) (i : Nat), i < nIsl s.hw.variant → s.running = true →
    u = { s with bbx := (s.bbx.roll i s.now (s.pwr.rung == .autumn)).progress s.hw.variant s.now } →
    exec (.bbxChunkEnd i) s = .next (u.settle s.now)) ∧
  (∀ (s : State) (l : Level), s.writer 0xB0004 .user = some l →
    exec .bbxTrig s = .next (if l.ge .operator then { s with bbx := { s.bbx with code := 0 } }.bbxTrigger 4 0xFFFF s.now
      else { s with bbx := { s.bbx with code := 1 } })) ∧
  (∀ (s u : State) (l : Level), s.writer 0xB0004 .user = some l → l.ge .owner = true → s.bbx.protNum ≠ 0 →
    u = { s with bbx := { s.bbx with code := 0, relAt := if 90 ≤ s.segUsed then s.bbx.relAt else some s.now } } →
    exec .bbxRelease s = .next (u.record 2 0x0E 0 s.now [(16, leBytes 4 s.bbx.protNum)])) ∧
  (∀ (s : State) (l : Level), s.writer 0xB0004 .user = some l → l.ge .owner = false ∨ s.bbx.protNum = 0 →
    exec .bbxRelease s = .next { s with bbx := { s.bbx with code := if l.ge .owner then 2 else 1 } }) ∧
  (∀ (s : State) (t : Nat) (l : List Byte), lTyp l = 0x0E →
    (s.markRec l t).bbx = { s.bbx.restore l with relAt := none } ∧ (s.markRec l t).flt = s.flt ∧ (s.markRec l t).hld = s.hld) ∧
  (∀ (s u : State) (c : Capture), s.bbx.cap = some c → c.state = 2 → s.running = true →
    u = { s with
      env := s.env.putRound (bbxRegion s.hw.variant).1 (bbxRegion s.hw.variant).2 c.addr
        (linesOf ((s.bbx.image s.hw.variant c).length / 64 + 1) (s.bbx.image s.hw.variant c))
      bbx := if 90 ≤ s.segUsed then s.bbx.restart else { s.bbx with cap := some { c with state := 3 } } } →
    exec .bbxCaptureCommit s = .next (u.recordAt 2 0x0D 0 c.stamp s.now [(16, leBytes 4 c.num), (20, leBytes 4 c.addr),
      (24, leBytes 4 ((s.bbx.image s.hw.variant c).length / 64)), (28, leBytes 1 c.kind),
      (29, leBytes 1 (b2n c.prot + 2 * b2n c.summ)), (30, leBytes 2 c.src)]))

/-- Completion, reloads and replacements at run time (R70, R390 to R397): an OWNER session starts each or reads why not; a reload goes
through S5 to READY, or keeps the old configuration and unwraps its keys; a replacement is rejected by its verification, or takes
effect at the end of the tick on which it has passed, the servo updates of that tick after it. -/
def Obligations.ConfigurationCompletes : Prop :=
  (∀ (s : State) (l : Level) (force : BitVec 2), s.writer 0x80000 .user = some l → s.loadCheck l force.toNat false = 0 →
    ∃ t, exec (.cfgLoad force) s = .next t ∧ t.sys.phase = .s4 ∧ t.cfg.busy = true ∧ t.cfg.op = 1 ∧ t.cfg.code = 0
      ∧ t.cfg.force = force.toNat ∧ t.cfg.fromRecovery = (s.sys.phase == .recovery) ∧ t.chans = s.chans ∧ t.flt = s.flt
      ∧ t.env = s.env) ∧
  (∀ (s : State) (l : Level) (force : BitVec 2) (c : Nat), s.writer 0x80000 .user = some l → s.loadCheck l force.toNat false = c →
    c ≠ 0 → exec (.cfgLoad force) s = .next { s with cfg := { s.cfg with code := c, irq := Irq.set s.cfg.irq 3 } }) ∧
  (∀ (s r u : State) (f : LineFlaws) (k : Option Nat) (slots : List Nat), s.reloading = true → s.sys.phase = .s4 → s.ctrlUp = true →
    slots = (match s.cfg.force with | 1 => [1] | 2 => [2] | _ => [1, 2]) → s.chooseSlot f false slots = (r, k) →
    u = { r with
      sys := { r.sys with phase := if r.cfg.fromRecovery then .recovery else .ready }
      cfg := { r.cfg with busy := false, fromRecovery := false, code := 6 } } →
    exec (.reloadDone f) s = .next (match k with | some n => r.reloadS5 n | none => u.unwrapAll.settle r.now)) ∧
  (∀ (s : State) (k : Nat), (s.reloadS5 k).sys.phase = .s5 ∧ (s.reloadS5 k).sys.slot = k ∧ (s.reloadS5 k).gpio = s.gpio) ∧
  (∀ (s : State) (f : LineFlaws), s.reloading = true → s.sys.phase = .s5 → s.ctrlUp = true → s.sampled = true →
    exec .configLoadDone s = .next s.reloadOk ∧ exec (.reloadDone f) s = .next s.reloadOk) ∧
  (∀ (s : State) (l : Level), s.writer 0x80000 .user = some l → s.applyCheck l false = 0 →
    ∃ t, exec .cfgApply s = .next t ∧ t.cfg.busy = true ∧ t.cfg.op = 2 ∧ t.cfg.code = 0 ∧ t.cfg.rtBase = s.cfg.rtAddr
      ∧ t.sys = s.sys ∧ t.chans = s.chans ∧ t.flt = s.flt ∧ t.env = s.env) ∧
  (∀ (s : State) (l : Level) (c : Nat), s.writer 0x80000 .user = some l → s.applyCheck l false = c → c ≠ 0 →
    exec .cfgApply s = .next { s with cfg := { s.cfg with code := c, irq := Irq.set s.cfg.irq 3 } }) ∧
  (∀ (s r v : State) (f : LineFlaws) (m : Img) (x : List Nat × Option Rej), s.cfg.busy = true → s.cfg.op = 2 → s.cfg.rtImg = none →
    s.ctrlUp = true → m = { env := s.env, base := s.cfg.rtBase } → r = s.readLine f m.base →
    x = (match r.readHead m f true (regionEnd r.hw.variant .user - m.base) with | some y => ([], some y) | none => r.verify m f true) →
    v = x.1.foldl (fun z a => z.readLine f a) r →
    (x.2 = none → exec (.rtApplyVerified f) s = .next { v with cfg := { v.cfg with rtImg := some s.env } })
      ∧ (∀ y : Rej, x.2 = some y → exec (.rtApplyVerified f) s =
          .next ((({ v with cfg := { v.cfg with busy := false, code := 5 } }).reject y false).settle v.now))) ∧
  (∀ (s u : State) (e : Env), s.cfg.rtImg = some e →
    u = (if s.anyTransitional then (({ s with cfg := { s.cfg with busy := false, rtImg := none } }).cfgRefuse 3).settle s.now
      else (s.rtTake { env := e, base := s.cfg.rtBase }).settle s.now) →
    s.rtTick = u.rails.foldl State.servoDue u)

/-- Completion, the ports of the cascade (R401 to R404, R409, R410): a port comes UP, control pairs, what takes a port down, and
discarded frames on an UP port. -/
def Obligations.CascadePortsComplete : Prop :=
  (∀ s w : State, s.casAlive = true → s.sys.strap = false → (tget {} s.lt 2).mode = 0 → 0 < nCasPort s.hw.variant →
    (s.casPort 0).link = .down ∨ (s.casPort 0).link = .training →
    w = (s.itemNow .orphan HS).modPortC 0 (fun q => q.clear .up) →
    exec (.casPortUp 0) s = .next { w with cas := { w.cas with
      st := if w.cas.st = .down then .linked else w.cas.st, orphanEnd := none } }) ∧
  (∀ (s u : State) (p : Nat), s.casAlive = true → (tget {} s.lt (p + 2)).mode = 0 → 0 < p → p < nCasPort s.hw.variant →
    (s.casPort p).link = .down ∨ (s.casPort p).link = .training → u = s.modPortC p (fun q => q.clear .up) →
    exec (.casPortUp p) s = .next (if s.sys.strap then ({ u with cas := u.cas.found (p - 1) 1 }).enumNext
      else if u.joinedF then u.casUp (u.helloOf u.cas.path u.cas.depth false) else u)) ∧
  (∀ (s w x y : State) (p : Nat), s.portUp p = true →
    w = (s.prior.modPortC p fun q => { q.clear .down with fell := true }).irqCas 2 →
    x = (if p = 0 then w.upLost else w.subtreeLost p) →
    y = (if x.active then x.report 1047 x.now else { x with sys := x.sys.deferSrc 1047 }) →
    exec (.casLockLoss p) s = .next (if y.active then y.settle y.now else y)
      ∧ ((s.casPort p).unacked ≠ [] → (s.casPort p).sentAt + 2000 ≤ s.now →
          exec (.casAckTimeout p) s = .next (if y.active then y.settle y.now else y))) ∧
  (∀ (s : State) (p : Nat), s.casAlive = true → p < nCasPort s.hw.variant → (s.casPort p).link = .training →
    exec (.casLockLoss p) s = .next (s.modPortC p fun q => q.clear .down)) ∧
  (∀ (s : State) (p l : Nat), s.portUp p = true → (s.casPort p).late s.now = true →
    exec (.casLinkAck p l) s = exec (.casLockLoss p) s ∧ exec (.casLinkNak p l) s = exec (.casLockLoss p) s) ∧
  (∀ (s : State) (p l i : Nat), s.portUp p = true → (s.casPort p).late s.now = false →
    (s.casPort p).unacked.findIdx? (fun u => decide (u.1 = l)) = some i →
    ∃ q : CasPort, q = { s.casPort p with unacked := (s.casPort p).unacked.drop (i + 1), nakRow := 0, nakLast := none, sentAt := s.now } ∧
      exec (.casLinkAck p l) s = .next (s.modPortC p fun _ => q.pump s.now (q.waiting.length + 1))) ∧
  (∀ (s : State) (p l i : Nat), s.portUp p = true → (s.casPort p).late s.now = false →
    (s.casPort p).unacked.findIdx? (fun u => decide (u.1 = l)) = some i →
    ∃ u : State, u = (s.modPortC p fun q => q.naked i l s.now) ∧
      exec (.casLinkNak p l) s = .next (if 3 ≤ (u.casPort p).nakRow then u.portDown p else u)) ∧
  (∀ (s : State) (p : Nat), s.portUp p = true → exec (.casInterbyteTimeout p) s = .next (s.tpAdd (3 + p) 0 0 1)) ∧
  (∀ (s : State) (p l : Nat), s.portUp p = true →
    ∃ t, exec (.casFrameInvalid p 3#2 l) s = .next t ∧ (t.casPort p).err = incTo 0xFFFF (s.casPort p).err
      ∧ (t.casPort p).nak = (s.casPort p).nak ∧ t.chans = s.chans ∧ t.seq = s.seq ∧ t.flt = s.flt) ∧
  (∀ (s : State) (p l : Nat) (why : BitVec 2), s.portUp p = true → why ≠ 3 →
    ∃ u : State, u.chans = s.chans ∧ u.seq = s.seq ∧ u.flt = s.flt
      ∧ u.casPort p = { s.casPort p with
          err := if why = 1 then incTo 0xFFFF (s.casPort p).err else (s.casPort p).err }.nakSent l ∧
      exec (.casFrameInvalid p why l) s = .next (if 3 ≤ (u.casPort p).rxNakRow then u.portDown p else u))

/-- Completion, enumeration and the timebase of the domain (R400, R407 to R418, R137): ENUM and HELLO, the leader's next ENUM frame, TIME,
its absence, JOIN, LOST and the orphan delay. -/
def Obligations.CascadeMembershipCompletes : Prop :=
  (∀ (s u v : State) (l depth : Nat) (path : BitVec 16) (addr : BitVec 12) (delay : BitVec 8), s.sys.strap = false →
    s.portUp 0 = true → s.rungOk = true → depth ≤ 7 → addr ≠ 0 →
    s.joinedF = false ∨ (s.cas.path = path.toNat ∧ s.cas.depth = depth) →
    u = s.rxFrame 0 l (.enum path.toNat depth addr.toNat) id →
    v = { u with cas := { u.cas with
      st := if u.joinedF then u.cas.st else .joined, addr := addr.toNat, path := path.toNat, depth := depth, delay := delay.toNat
      irq := if u.joinedF then u.cas.irq else Irq.set u.cas.irq 0 } } →
    exec (.casEnum 0 l path depth addr delay) s = .next ((v.casUp (v.helloOf path.toNat depth false)).casUp (.state v.seqCode)).casSubs) ∧
  (∀ (s u v : State) (l depth : Nat) (path : BitVec 16) (addr : BitVec 12) (delay : BitVec 8), s.sys.strap = false →
    s.portUp 0 = true → s.rungOk = true → 7 < depth ∨ addr = 0 →
    s.joinedF = false ∨ (s.cas.path = path.toNat ∧ s.cas.depth = depth) →
    u = s.rxFrame 0 l (.enum path.toNat depth addr.toNat) id → v = { u with cas := { u.cas with st := .refused } } →
    exec (.casEnum 0 l path depth addr delay) s = .next (v.casUp (v.helloOf path.toNat depth true))) ∧
  (∀ (s u : State) (l depth : Nat) (path : BitVec 16) (addr : BitVec 12) (delay : BitVec 8), s.sys.strap = false →
    s.portUp 0 = true → s.joinedF = true → s.cas.path ≠ path.toNat ∨ s.cas.depth ≠ depth →
    u = s.rxFrame 0 l (.enum path.toNat depth addr.toNat) id →
    exec (.casEnum 0 l path depth addr delay) s = .next
      { u with cas := u.cas.out (1 + hopAt path.toNat s.cas.depth) (.enum path.toNat depth addr.toNat) s.now }) ∧
  (∀ (s : State) (p l time delay depth : Nat) (addr : BitVec 12) (uid : BitVec 64) (variant : BitVec 4) (path : BitVec 16)
    (phase : BitVec 3) (ports : BitVec 4) (refused : Bool), p ≠ 0 → s.portUp p = true → s.sys.strap = true → s.rungOk = true →
    s.cas.st ≠ .refused →
    exec (.casHello p l addr uid variant time delay path depth { phase := phase, ports := ports } refused) s = .next
      ((s.rxFrame p l (.hello uid.toNat variant.toNat time delay path.toNat depth phase.toNat ports.toNat refused) id).leaderHello
        addr.toNat variant.toNat time delay path.toNat depth phase.toNat ports.toNat refused)) ∧
  (∀ (s u v : State) (p l time delay depth : Nat) (addr : BitVec 12) (uid : BitVec 64) (variant : BitVec 4) (path : BitVec 16)
    (phase : BitVec 3) (ports : BitVec 4) (refused : Bool), p ≠ 0 → s.portUp p = true → s.sys.strap = false →
    u = s.rxFrame p l (.hello uid.toNat variant.toNat time delay path.toNat depth phase.toNat ports.toNat refused) id →
    v = { u with cas := { u.cas with devs := (if refused then u.cas.devs
      else tset {} u.cas.devs addr.toNat { joined := true, path := path.toNat, depth := depth, phase := phase.toNat }) } } →
    exec (.casHello p l addr uid variant time delay path depth { phase := phase, ports := ports } refused) s = .next (v.casUp
    (.fwd addr.toNat
      (.hello uid.toNat variant.toNat time
      (if s.rungOk then delay + s.cas.delay else delay) path.toNat depth phase.toNat ports.toNat refused)))) ∧
  (∀ (s : State) (path d : Nat) (r : List (Nat × Nat)), s.cas.todo = (path, d) :: r → s.cas.offer = none →
    s.enumNext.cas.todo = r ∧ s.enumNext.chans = s.chans ∧ s.enumNext.seq = s.seq ∧ s.enumNext.cas.offer = some
      { path := path, depth := d, at_ := s.now
        addr := if 7 < d then 0 else (((s.cas.addrOf path d).filter (· ≠ 0)).or s.cas.lowestFree).getD 0 }) ∧
  (∀ s : State, s.sys.strap = true → s.casAlive = true → s.rungOk = true → s.cas.timeSent + 1000 ≤ s.now →
    ∃ t, exec .casTimeSend s = .next t ∧ t.cas.timeSent = s.now ∧ t.sys = s.sys ∧ t.chans = s.chans
      ∧ t.seq = s.seq ∧ t.flt = s.flt) ∧
  (∀ (s u w : State) (l value atSof : Nat), s.sys.strap = false → s.portUp 0 = true → s.joinedF = true → s.rungOk = true →
    u = s.rxFrame 0 l (.time value) id → w = u.timeTaken value atSof →
    w.cas.tbErr = (value : Int) - atSof ∧ w.cas.timeAt = w.now ∧
      exec (.casTime l value atSof) s = .next (w.settleIf.casDown (.time (value + u.cas.delay)))) ∧
  (∀ (s u : State) (l value atSof : Nat), s.sys.strap = false → s.portUp 0 = true → s.joinedF = false →
    u = s.rxFrame 0 l (.time value) id →
    exec (.casTime l value atSof) s = .next (u.casDown (.time (if s.rungOk then value + s.cas.delay else value)))) ∧
  (∀ s w : State, s.casAlive = true → s.cas.st = .locked → s.cas.timeAt + 10000 ≤ s.now →
    w = { s with cas := { s.cas.setLock .joined with goodTimes := 0 } } →
    w.cas.st = .joined ∧ exec .casTimeAbsence s = .next (if w.active then w.settle w.now else w)) ∧
  (∀ (s : State) (l : Nat) (addr : BitVec 12), s.sys.strap = false → s.portUp 0 = true → s.rungOk = true → s.cas.st ≠ .refused →
    exec (.casJoin l addr) s = .next
      (((s.rxFrame 0 l (.join addr.toNat) id).hearJoin addr.toNat).casDown (.join addr.toNat))) ∧
  (∀ (s : State) (p l : Nat) (addrs : List (BitVec 12)), s.portUp p = true → s.sys.strap = true → s.rungOk = true →
    s.cas.st ≠ .refused →
    exec (.casLost p l addrs) s = .next
      ((s.rxFrame p l (.lost (addrs.map BitVec.toNat)) id).leaderLostAll (addrs.map BitVec.toNat))) ∧
  (∀ (s u v : State) (p l : Nat) (addrs : List (BitVec 12)), s.portUp p = true → s.sys.strap = false → s.rungOk = true →
    s.cas.st ≠ .refused → u = s.rxFrame p l (.lost (addrs.map BitVec.toNat)) id →
    v = { u with
      seq := u.seq.lose (fun r => (addrs.map BitVec.toNat).contains r.addr) u.now
      cas := { u.cas with devs := (addrs.map BitVec.toNat).foldl (fun t a => tdel t a) u.cas.devs } } →
    exec (.casLost p l addrs) s = .next
      (if p = 0 then v.casDown (.lost (addrs.map BitVec.toNat)) else v.casUp (.lost (addrs.map BitVec.toNat)))) ∧
  (∀ (s p u v : State) (t : Nat), s.itemAt .orphan HS = some t → s.lastOf t = true → p = s.upTo t SeqItem.orphan.rank →
    p.itemAt .orphan HS = some t → u = (p.settleTo t).orphanEnds t →
    v = { u with cas := { u.cas with orphanEnd := none } } →
    exec .orphanDelayExpiry s = .next (if !u.orphanOff && (dueAt u.cas.orphanEnd u.now).isSome then v else u)) ∧
  (∀ (s u : State) (t : Nat), u = { s with cas := { s.cas with orphanEnd := none } } →
    s.orphanEnds t = if u.orphanOff then (u.shutDown none 2 0 t []).settle t else u) ∧
  (∀ (s : State) (t : Nat), s.orphanOff = false → s.cas.orphanEnd = some t → t ≤ s.now →
    exec .orphanDelayExpiry s = .next { s with cas := { s.cas with orphanEnd := none } })

/-- Completion, remote rails, faults and device states (R405, R415, R416, R421, R423, R428): RAIL, SUB, FAULT and STATE frames on an UP
port;
a RAIL or SUB frame for another device goes on along the tree. -/
def Obligations.CascadeReportsComplete : Prop :=
  (∀ (s : State) (p l : Nat) (dst org : BitVec 12) (rail : BitVec 8) (code : BitVec 3), s.portUp p = true → s.rungOk = true →
    s.cas.st ≠ .refused → dst.toNat = s.cas.addr → code.toNat ≤ 4 →
    exec (.casRail p l { dst := dst, org := org } rail code) s = .next
      ((s.rxFrame p l (.rail dst.toNat rail.toNat code.toNat) id).railTaken org.toNat rail.toNat code.toNat)) ∧
  (∀ (s u : State) (p l : Nat) (dst org : BitVec 12) (rail : BitVec 8) (code : BitVec 3), s.portUp p = true →
    dst.toNat ≠ s.cas.addr → u = s.rxFrame p l (.rail dst.toNat rail.toNat code.toNat) id →
    exec (.casRail p l { dst := dst, org := org } rail code) s = .next (if u.cas.portTo u.sys.strap dst.toNat = some p then u
      else u.casTo dst.toNat (.fwd org.toNat (.rail dst.toNat rail.toNat code.toNat)))) ∧
  (∀ (s : State) (org rail code k : Nat) (p : State), p = s.prior → p.running = false →
    (s.railTaken org rail code).chans = p.chans ∧
      tget {} (s.railTaken org rail code).seq.remote k =
        (let r := tget {} p.seq.remote k
         if r.valid ∧ r.addr = org ∧ r.rail = rail ∧ r.state ≠ code ∧ ¬(r.state = 4 ∧ r.stamp = p.now) then
           { r with state := code, stamp := p.now } else r)) ∧
  (∀ (s : State) (p l : Nat) (dst org : BitVec 12) (rail : BitVec 8), s.portUp p = true → s.rungOk = true → s.cas.st ≠ .refused →
    dst.toNat = s.cas.addr →
    ∃ t, exec (.casSub p l { dst := dst, org := org } rail false) s = .next t ∧
    t.cas.pub = s.cas.pub.filter (fun e => !decide (e.2 = pubWord org.toNat rail.toNat))
      ∧ t.chans = s.chans ∧ t.seq = s.seq ∧ t.flt = s.flt) ∧
  (∀ (s : State) (p l : Nat) (dst org : BitVec 12) (rail : BitVec 8), s.portUp p = true → s.rungOk = true → s.cas.st ≠ .refused →
    dst.toNat = s.cas.addr →
    ∃ t, exec (.casSub p l { dst := dst, org := org } rail true) s = .next t ∧ t.chans = s.chans ∧ t.seq = s.seq ∧ t.flt = s.flt
      ∧ (t.cas.pubFull = true ∨ ∃ e ∈ t.cas.pub, e.2 = pubWord org.toNat rail.toNat)) ∧
  (∀ (s u : State) (p l : Nat) (dst org : BitVec 12) (rail : BitVec 8) (on : Bool), s.portUp p = true → dst.toNat ≠ s.cas.addr →
    u = s.rxFrame p l (.sub dst.toNat rail.toNat on) id →
    exec (.casSub p l { dst := dst, org := org } rail on) s = .next (if u.cas.portTo u.sys.strap dst.toNat = some p then u
      else u.casTo dst.toNat (.fwd org.toNat (.sub dst.toNat rail.toNat on)))) ∧
  (∀ (s : State) (p l : Nat) (org : BitVec 12) (src : BitVec 11) (level : BitVec 2) (stamp : BitVec 64), p ≠ 0 →
    s.portUp p = true → s.rungOk = true → s.cas.st ≠ .refused →
    ∃ t, exec (.casFault p l org src level false stamp) s = .next t
      ∧ t.cas.rfault = wpack [(0, 12, org.toNat), (12, 11, src.toNat), (23, 2, level.toNat), (25, 1, 0), (31, 1, 1)]
      ∧ t.cas.rfaultTs = stamp.toNat % 2 ^ 32 ∧ t.cas.irq = s.cas.irq ∧ t.chans = s.chans ∧ t.seq = s.seq ∧ t.flt = s.flt) ∧
  (∀ (s : State) (p l : Nat) (org : BitVec 12) (src : BitVec 11) (level : BitVec 2) (stamp : BitVec 64), p ≠ 0 →
    s.portUp p = true → s.rungOk = true → s.cas.st ≠ .refused →
    ∃ u : State, u.cas.irq = Irq.set s.cas.irq 3 ∧ u.flt = s.flt ∧ u.chans = s.chans ∧ u.seq = s.seq
      ∧ u.cas.rfault = wpack [(0, 12, org.toNat), (12, 11, src.toNat), (23, 2, level.toNat), (25, 1, 1), (31, 1, 1)] ∧
      exec (.casFault p l org src level true stamp) s = .next
        ((u.raiseOrDefer 1048).casUp (.fault org.toNat src.toNat level.toNat true stamp.toNat))) ∧
  (∀ (s w v : State) (p l : Nat) (org : BitVec 12) (seq : BitVec 3), p ≠ 0 → s.portUp p = true → s.sys.strap = true →
    s.rungOk = true → s.cas.st ≠ .refused → w = (s.rxFrame p l (.state seq.toNat) id).domTimeout →
    v = { w with cas := { w.cas with
      devs := tmod {} w.cas.devs org.toNat fun d => { d with seq := some seq.toNat, skipAt := none }
      nSkip := if seq = 0 ∧ (tget {} w.cas.devs org.toNat).skipAt = some w.now then w.cas.nSkip - 1 else w.cas.nSkip } } →
    exec (.casState p l org seq) s = .next (if seq = 0 then v.domLeave org.toNat false else v)) ∧
  (∀ (s : State) (p l : Nat) (org : BitVec 12) (seq : BitVec 3), p ≠ 0 → s.portUp p = true → s.sys.strap = false →
    exec (.casState p l org seq) s = .next
      ((s.rxFrame p l (.state seq.toNat) id).casUp (.fwd org.toNat (.state seq.toNat))))

/-- Completion, the domain (R206, R208, R419 to R427, R493): DOM, act ticks, phase timeouts, equinox snapshots, campaigns and RESET, as
frames and as written by the host on the leader, with what refuses a write. -/
def Obligations.CascadeDomainCompletes : Prop :=
  (∀ (s u : State) (l act : Nat) (on : Bool) (phase : BitVec 3), s.sys.strap = false → s.portUp 0 = true → s.joinedF = true →
    (if on then wbit s.cas.cfg 0 = true else fld s.cas.cfg 1 3 = phase.toNat) → u = s.rxFrame 0 l (.dom on phase.toNat act) id →
    exec (.casDom l on phase act) s = .next
      ((if s.rungOk then { u with cas := { u.cas with domActs := u.cas.domActs ++ [(on, act)] } }
        else if on then u.wakeEvent 3 else u).casDown (.dom on phase.toNat act))) ∧
  (∀ (s p u : State) (t : Nat), s.itemAt .domOff HS = some t → s.lastOf t = true → p = s.upTo t SeqItem.domOff.rank →
    p.itemAt .domOff HS = some t → u = p.settleTo t →
    exec .domAct s = .next ((({ u with cas := { u.cas with
      domActs := u.cas.domActs.filter fun a => a.1 || decide (a.2 ≠ t) } }.shutDown none 2 0 t []).settle t).rowEnds .domOn HS)) ∧
  (∀ (s p u : State) (t : Nat), s.itemAt .domOff HS = none → s.itemAt .domOn HS = some t → s.lastOf t = true →
    p = s.upTo t SeqItem.domOn.rank → p.itemAt .domOn HS = some t → u = p.settleTo t →
    exec .domAct s = .next (({ u with cas := { u.cas with
      domActs := u.cas.domActs.filter fun a => !a.1 || decide (a.2 ≠ t) } }.onReq 2 t).settle t)) ∧
  (∀ (s : State) (d : DomPhase) (c : Cas), s.cas.domPhase = some d → s.rungOk = true → s.ctrlUp = true →
    d.act + fld s.cas.cfg 16 8 * 1000000 < s.now →
    c = { s.cas with
      nSkip := s.cas.nSkip + d.waiting.length
      domTo := if wbit s.cas.domTo 31 then s.cas.domTo
        else wpack [(0, 12, d.waiting.foldl min (d.waiting.headD 0)), (31, 1, 1)] } →
    exec .domPhaseTimeout s = .next (if d.phase = 0 then
        { s with cas := { c with domPhase := none, domBusy := false, irq := Irq.set c.irq 4 } }
      else State.domBegin 8 (d.phase - 1) { s with cas := { c with domPhase := none } })) ∧
  (∀ (s u : State) (l tick : Nat) (cnt : Bool), s.sys.strap = false → s.portUp 0 = true → s.cas.st ≠ .refused →
    u = s.rxFrame 0 l (.eqx tick cnt) id →
    exec (.casEqx l tick cnt) s = .next
      ((if !s.rungOk then u.eqxReply false 2 else if tick < s.now then u.eqxReply false 3
        else u.dropView.viewAccept tick cnt true).casDown (.eqx tick cnt))) ∧
  (∀ (s : State) (p l : Nat) (org : BitVec 12) (ok : Bool) (why : BitVec 4), p ≠ 0 → s.portUp p = true → s.sys.strap = true →
    s.rungOk = true → s.cas.st ≠ .refused →
    ∃ t, exec (.casEqxRep p l org ok why) s = .next t ∧ t.chans = s.chans ∧ t.seq = s.seq ∧ t.flt = s.flt
      ∧ t.cas.eqxBusy = (s.cas.eqxCount org.toNat ok why.toNat).eqxBusy ∧ t.cas.nOk = (s.cas.eqxCount org.toNat ok why.toNat).nOk
      ∧ t.cas.nMiss = (s.cas.eqxCount org.toNat ok why.toNat).nMiss) ∧
  (∀ (s : State) (l tick : Nat) (corner : BitVec 2) (abort : Bool), s.sys.strap = false → s.portUp 0 = true → s.joinedF = true →
    s.rungOk = true → corner ≠ 3 →
    ∃ t, exec (.casMgn l corner tick abort) s = .next t ∧ t.camp.pendAt = s.camp.pendAt ++ [(tick, corner.toNat)] ∧ t.chans = s.chans
      ∧ t.seq = s.seq ∧ t.flt = s.flt) ∧
  (∀ (s u : State) (p l : Nat) (org : BitVec 12) (nmember npass nfail rail : BitVec 8) (why : BitVec 4), p ≠ 0 →
    s.portUp p = true → s.rungOk = true → s.cas.st ≠ .refused →
    u = s.rxFrame p l (.mgnRep org.toNat nmember.toNat npass.toNat nfail.toNat rail.toNat why.toNat) id →
    exec (.casMgnRep p l org nmember npass nfail rail why) s = .next
      (if s.sys.strap then u.campCount org.toNat (decide (nfail.toNat ≠ 0)) rail.toNat why.toNat u.now
       else u.casUp (.mgnRep org.toNat nmember.toNat npass.toNat nfail.toNat rail.toNat why.toNat))) ∧
  (∀ (s u : State) (l : Nat), s.sys.strap = false → s.portUp 0 = true → s.cas.st ≠ .refused → u = s.rxFrame 0 l (.reset 0xFFF) id →
    exec (.casReset l 0xFFF#12) s = .next ((u.casDown (.reset 0xFFF)).orderly 32)) ∧
  (∀ (s u : State) (l : Nat) (dst : BitVec 12), s.sys.strap = false → s.portUp 0 = true → s.joinedF = true → dst ≠ 0xFFF →
    u = s.rxFrame 0 l (.reset dst.toNat) id →
    exec (.casReset l dst) s = .next (if dst.toNat = s.cas.addr then u.orderly 32
      else if (tget {} s.cas.devs dst.toNat).joined then u.casTo dst.toNat (.reset dst.toNat) else u)) ∧
  (∀ (s : State) (l : Level), s.writer 0x90050 .user = some l → l.ge .operator = true → s.sys.strap = true →
    s.cas.domBusy = false →
    ∃ t, exec .casDomOn s = .next t ∧ t.cas.domCode = 0 ∧ t.cas.domOff = false
      ∧ t.cas.domActs = s.cas.domActs ++ [(true, s.now + 500)] ∧ t.chans = s.chans ∧ t.seq = s.seq ∧ t.flt = s.flt) ∧
  (∀ (s u : State) (l : Level), s.writer 0x90050 .user = some l → l.ge .operator = true → s.sys.strap = true →
    s.cas.domBusy = false →
    u = { s with cas := { s.cas with domCode := 0, domBusy := true, domOff := true, nSkip := 0, domTo := 0 } } →
    exec .casDomOff s = .next (State.domBegin 8 (s.cas.devs.foldl (fun m e =>
      if e.2.joined && !e.2.lost then max m e.2.phase else m) (fld s.cas.cfg 1 3)) u)) ∧
  (∀ (s : State) (l : Level) (c : Nat), s.writer 0x90050 .user = some l →
    c = (if !l.ge .operator then 1 else if !s.sys.strap then 2 else if s.cas.domBusy then 3 else 0) → c ≠ 0 →
    exec .casDomOn s = .next { s with cas := { s.cas with domCode := c } }
      ∧ exec .casDomOff s = .next { s with cas := { s.cas with domCode := c } }) ∧
  (∀ (s u : State) (l : Level) (cnt : Bool), s.writer 0x90060 .user = some l → l.ge .operator = true → s.sys.strap = true →
    s.cas.eqxBusy = false → s.now + 500 ≤ s.cas.eqxAt → s.cas.eqxAt ≤ s.now + 0x1000000 →
    u = { s with cas := { s.cas with
        eqxCode := 0, eqxBusy := true, eqxDone := false, nOk := 0, nMiss := 0, eqxCounted := [], eqxMiss := 0 } } →
    exec (.casEqxGo cnt) s = .next ((u.casDown (.eqx s.cas.eqxAt cnt)).dropView.viewAccept s.cas.eqxAt cnt true)) ∧
  (∀ (s : State) (l : Level) (cnt : Bool) (c : Nat), s.writer 0x90060 .user = some l →
    c = (if !l.ge .operator then 5 else if !s.sys.strap then 4 else if s.cas.eqxBusy then 1
      else if s.cas.eqxAt < s.now + 500 then 2 else if s.now + 0x1000000 < s.cas.eqxAt then 3 else 0) → c ≠ 0 →
    exec (.casEqxGo cnt) s = .next { s with cas := { s.cas with eqxCode := c } }) ∧
  (∀ (s u : State) (l : Level) (t : BitVec 12), s.writer 0x90040 .user = some l → l.ge .owner = true → s.sys.strap = true →
    t = 0xFFF ∨ ((tget {} s.cas.devs t.toNat).joined && !(tget {} s.cas.devs t.toNat).lost) = true →
    u = { s with cas := { s.cas with ctrlCode := 0 } } →
    exec (.casCtrlReset t) s = .next (if t = 0xFFF then u.casDown (.reset 0xFFF) else u.casTo t.toNat (.reset t.toNat))) ∧
  (∀ (s : State) (l : Level) (t : BitVec 12) (c : Nat), s.writer 0x90040 .user = some l →
    c = (if !l.ge .owner then 1 else if !s.sys.strap then 2
      else if t ≠ 0xFFF ∧ ((tget {} s.cas.devs t.toNat).joined && !(tget {} s.cas.devs t.toNat).lost) = false then 3 else 0) →
    c ≠ 0 → exec (.casCtrlReset t) s = .next { s with cas := { s.cas with ctrlCode := c } })

/-- Refused frames of the host port (R433, R436, R437): checks 1 to 4 of each request, in their order. `early` is the STATUS that checks 2
and 3 give, 0 where they pass; a frame begun behind a timeout of its transaction fails check 4 like one whose CRC or payload length is
wrong. The held response of an earlier frame survives a refused RESEND alone. -/
def Obligations.HmpFramesRefused : Prop :=
  (∀ (s v : State) (c : Instr) (early n : Nat) (good : Bool), s.hmpHears = true →
    v = { s.hmpDue with hmp := { s.hmpDue.hmp with broken := false } } →
    (∃ (a : BitVec 24) (k : BitVec 16) (crc : BitVec 32), c = .hmpRead a k crc
      ∧ early = (if !lenOk k.toNat then 2 else if !addrOk a.toNat k.toNat then 3 else 0) ∧ n = 10
      ∧ good = (crc32c (leBytes 1 1 ++ leBytes 3 a.toNat ++ leBytes 2 k.toNat) == crc)) ∨
    (∃ (a : BitVec 24) (k : BitVec 16) (ws : List (BitVec 32)) (crc : BitVec 32), c = .hmpWrite a k ws crc
      ∧ early = (if !lenOk k.toNat then 2 else if !addrOk a.toNat k.toNat then 3 else 0) ∧ n = 10 + k.toNat
      ∧ good = (decide ((wordBytes ws).length = k.toNat)
          && crc32c (leBytes 1 2 ++ leBytes 3 a.toNat ++ leBytes 2 k.toNat ++ wordBytes ws) == crc)) ∨
    (∃ (a : BitVec 24) (k : BitVec 16) (crc : BitVec 32), c = .hmpChal a k crc
      ∧ early = (if k ≠ 0 then 2 else if 4 ≤ a.toNat then 3 else 0) ∧ n = 10
      ∧ good = (crc32c (leBytes 1 0x10 ++ leBytes 3 a.toNat ++ leBytes 2 k.toNat) == crc)) ∨
    (∃ (a : BitVec 24) (k : BitVec 16) (mac : List (BitVec 8)) (crc : BitVec 32), c = .hmpOpen a k mac crc
      ∧ early = (if k ≠ 32 then 2 else if 4 ≤ a.toNat then 3 else 0) ∧ n = 42
      ∧ good = (decide (mac.length = 32) && crc32c (leBytes 1 0x11 ++ leBytes 3 a.toNat ++ leBytes 2 k.toNat ++ mac) == crc)) ∨
    (∃ (a : BitVec 24) (k : BitVec 16) (crc : BitVec 32), c = .hmpClose a k crc
      ∧ early = (if k ≠ 0 then 2 else if a ≠ 0 then 3 else 0) ∧ n = 10
      ∧ good = (crc32c (leBytes 1 0x12 ++ leBytes 3 a.toNat ++ leBytes 2 k.toNat) == crc)) →
    (early ≠ 0 → exec c s = .next ((v.badFrame early 0).wakeEvent 2)) ∧
    (early = 0 → s.hmp.broken = true ∨ good = false → exec c s = .next ((v.badFrame 4 n).wakeEvent 2))) ∧
  (∀ (s v w : State) (a : BitVec 24) (k : BitVec 16) (crc : BitVec 32) (early st n : Nat), s.hmpHears = true →
    v = { s.hmpDue with hmp := { s.hmpDue.hmp with broken := false } } →
    early = (if k ≠ 0 then 2 else if a ≠ 0 then 3 else 0) →
    (early ≠ 0 ∧ st = early ∧ n = 0) ∨ (early = 0 ∧ st = 4 ∧ n = 10 ∧ (s.hmp.broken = true
      ∨ crc32c (leBytes 1 0x0E ++ leBytes 3 a.toNat ++ leBytes 2 k.toNat) ≠ crc)) →
    w = (v.badFrame st n).wakeEvent 2 →
    exec (.hmpResend a k crc) s = .next { w with hmp := { w.hmp with resp := s.hmp.resp } }) ∧
  (∀ (s : State) (c n : Nat), (s.badFrame c n).hmp.resp = some { status := c, detail := 0, payload := [] }
    ∧ (s.badFrame c n).hmp.status = c ∧ (s.badFrame c n).hmp.session = s.hmp.session ∧ (s.badFrame c n).chans = s.chans
    ∧ (s.badFrame c n).flt = s.flt ∧ (s.badFrame c n).env = s.env ∧ (s.badFrame c n).gpio = s.gpio)

/-- Completion, register accesses of the host port (R3, R8 to R13, R20, R433, R436, R437, R439, R440): a frame that passes the eight checks
acts, and its response is held; one that checks 5 to 8 refuse is answered with their STATUS and has no other effect. Then what reading
and writing a word does by the access code of its address, for the debugger's accesses too: an address that holds no register reads 0
and takes no write; a lost island reads all ones; a read of a _LO captures its _HI; W1C bits are cleared by ones unless set on that tick;
RW fields take what is written and read it back; RO words and words of absent or unused resources take no write; RWL fields keep their
value once locked; what is only written reads 0. A word is taken where no coherent view is held over its address. -/
def Obligations.HmpRegisterAccessCompletes : Prop :=
  (∀ (s v u : State) (a : BitVec 24) (n : BitVec 16) (crc : BitVec 32) (k : Nat), s.hmpHears = true → s.hmp.broken = false →
    v = { s.hmpDue with hmp := { s.hmpDue.hmp with broken := false } } → lenOk n.toNat = true → addrOk a.toNat n.toNat = true →
    crc = crc32c (leBytes 1 1 ++ leBytes 3 a.toNat ++ leBytes 2 n.toNat) → u = v.tpAdd 0 10 1 0 →
    k = (if u.wakesNow then 7 else State.readCheck (addrsOf a.toNat n.toNat) u) →
    exec (.hmpRead a n crc) s = .next ((if k = 0 then u.readAct (addrsOf a.toNat n.toNat) else u.answer k 0 []).wakeEvent 2)) ∧
  (∀ (u w : State) (a : Nat), w = u.readEffect a → u.readAct [a] = w.answerOk u.now (if u.islLost (islServing a) then 8 else 0) 0
    (leBytes 4 (u.hostWord a).toNat)) ∧
  (∀ (s v u w : State) (l : Level) (d : Nat) (a : BitVec 24) (n : BitVec 16) (ws : List (BitVec 32)) (crc : BitVec 32)
    (f : LineFlaws), f = Config.readFlaws s.now → s.hmpHears = true → s.hmp.broken = false →
    v = { s.hmpDue with hmp := { s.hmpDue.hmp with broken := false } } → lenOk n.toNat = true → addrOk a.toNat n.toNat = true →
    4 * ws.length = n.toNat → crc = crc32c (leBytes 1 2 ++ leBytes 3 a.toNat ++ leBytes 2 n.toNat ++ wordBytes ws) →
    u = v.tpAdd 0 (10 + n.toNat) 1 0 → u.hmp.session = some l → u.wakesNow = false →
    State.writeCheck (addrsOf a.toNat n.toNat) u = 0 →
    u.writeRegs l f ((addrsOf a.toNat n.toNat).zip ws) 0 = (w, d) →
    exec (.hmpWrite a n ws crc) s = .next ((w.answerOk u.now (if d = 0 then 0 else 9) (d % 256) []).wakeEvent 2)) ∧
  (∀ (s v u : State) (a : BitVec 24) (n : BitVec 16) (ws : List (BitVec 32)) (crc : BitVec 32) (k : Nat), s.hmpHears = true →
    s.hmp.broken = false → v = { s.hmpDue with hmp := { s.hmpDue.hmp with broken := false } } → lenOk n.toNat = true →
    addrOk a.toNat n.toNat = true → 4 * ws.length = n.toNat →
    crc = crc32c (leBytes 1 2 ++ leBytes 3 a.toNat ++ leBytes 2 n.toNat ++ wordBytes ws) →
    u = v.tpAdd 0 (10 + n.toNat) 1 0 → k = (if u.wakesNow then 7 else State.writeCheck (addrsOf a.toNat n.toNat) u) → k ≠ 0 →
    exec (.hmpWrite a n ws crc) s = .next ((u.answer k 0 []).wakeEvent 2)) ∧
  (∀ (s v u w : State) (crc : BitVec 32) (r : HmpResp) (k : Nat), s.hmpHears = true → s.hmp.broken = false →
    v = { s.hmpDue with hmp := { s.hmpDue.hmp with broken := false } } → u = v.tpAdd 0 10 1 0 →
    crc = crc32c (leBytes 1 0x0E ++ leBytes 3 0 ++ leBytes 2 0) →
    r = s.hmp.resp.getD { status := 0x0D, detail := 0, payload := [] } →
    k = (if u.wakesNow then 7 else u.plainCheck) →
    w = (if k = 0 then { u with hmp := { u.hmp with status := r.status, detail := r.detail, out := some r, acceptedAt := u.now } }
      else u.answer k 0 []).wakeEvent 2 →
    exec (.hmpResend 0 0 crc) s = .next { w with hmp := { w.hmp with resp := s.hmp.resp } }) ∧
  (∀ (s v : State) (c : BitVec 8), s.hmpHears = true → v = { s.hmpDue with hmp := { s.hmpDue.hmp with broken := false } } →
    hmpCmds.contains c.toNat = false → exec (.hmpEcmd c) s = .next ((v.badFrame 1 0).wakeEvent 2)) ∧
  (∀ s w : State, s.hmpHears = true → w = { s with hmp := { s.hmp with eAbort := incTo 0xFF s.hmp.eAbort, broken := false } } →
    exec .hmpCsRise s = .next ((w.tpAdd 0 0 0 1).softActs true) ∧
    (s.sys.softAt = none → exec .hmpCsRise s = .next (w.tpAdd 0 0 0 1))) ∧
  (∀ s w : State, s.hmpHears = true →
    w = { s with hmp := { s.hmp with eTout := incTo 0xFF s.hmp.eTout, broken := Config.moreBytes s.now } } →
    exec .hmpInterbyteTimeout s = .next (w.tpAdd 0 0 0 1)) ∧
  (∀ (s : State) (l : Level) (a : Nat) (w : Word) (f : LineFlaws), blkOf a = none → s.regWord a = 0 ∧ s.putReg l a w f = s) ∧
  (∀ (s : State) (a : Nat), s.islLost (islServing a) = true → s.hostWord a = 0xFFFFFFFF#32 ∧ s.readEffect a = s) ∧
  (∀ (s t u : State) (a : Nat), isLo a = true → s.islLost (islServing a) = false → s.islLost (islServing (a + 4)) = false →
    t = s.readEffect a → u = t.readEffect (a + 4) → t.hostWord (a + 4) = s.regWord (a + 4) ∧ u.hostWord (a + 4) = u.regWord (a + 4)) ∧
  (∀ (s : State) (a : Nat), s.islLost (islServing a) = false → tget none s.sys.hiCap a = none →
    s.hostWord a = if 0x31000 ≤ a ∧ a < 0x310C0 ∧ a % 0x40 = 0x28 then 0 else s.regWord a) ∧
  (∀ (x : Irq) (w : Word) (i : Nat), i < 32 → wbit (x.w1c w).st i = (wbit x.st i && (!wbit w i || wbit x.fresh i))) ∧
  (∀ (s : State) (l : Level) (w : Word) (f : LineFlaws) (e : Nat × (State → Irq)),
    e ∈ [(0x50, fun t : State => t.sys.irq), (0x1020, fun t => t.pwr.irq), (0x2050, fun t => t.seq.irq), (0x20B8, fun t => t.seq.springIrq),
      (0x18140, fun t => t.hs.hvsStat), (0x20050, fun t => t.flt.irq), (0x30050, fun t => t.wdg.irq), (0x31110, fun t => t.gpio.irq),
      (0x31118, fun t => t.gpio.intStat), (0x40020, fun t => t.cnt.irq), (0x50080, fun t => t.hld.irq), (0x601C0, fun t => t.sec.irq),
      (0x70028, fun t => t.env.irq), (0x80080, fun t => t.cfg.irq), (0x90090, fun t => t.cas.irq), (0xA0100, fun t => t.mcp.irq),
      (0xB0020, fun t => t.bbx.irq)] → tget 0 s.sys.view e.1 = 0 →
    s.regWord e.1 = (e.2 s).st ∧ e.2 (s.putReg l e.1 w f) = (e.2 s).w1c w ∧ (s.putReg l e.1 w f).chans = s.chans) ∧
  (∀ (s : State) (l : Level) (w : Word) (f : LineFlaws) (n : Nat), s.inUse n = true → n < 128 →
    (((s.putReg l (0x10044 + 0x100 * n) w f).chan n).sense.irq = (s.chan n).sense.irq.w1c w) ∧
    (((s.putReg l (0x100B8 + 0x100 * n) w f).chan n).mgn.irq = (s.chan n).mgn.irq.w1c w)) ∧
  (∀ (s : State) (l : Level) (w : Word) (f : LineFlaws) (e : Nat × Word),
    e ∈ [(0x54, 0xF#32), (0x1024, 7), (0x2054, 0xFF), (0x20BC, 3), (0x20054, 0x1FF), (0x30054, 0xF), (0x31114, 0x3FF), (0x40024, 7),
      (0x50084, 0x7F), (0x601C4, 0x7F), (0x7002C, 0x1F), (0x80084, 0xF), (0x90094, 0xFF), (0xA0104, 0xFF), (0xB0024, 7)] →
    tget 0 s.sys.view e.1 = 0 →
    (s.putReg l e.1 w f).regWord e.1 = w &&& e.2 ∧ (s.putReg l e.1 w f).chans = s.chans) ∧
  (∀ (s : State) (l : Level) (lo hi : Word) (f : LineFlaws), s.sys.viewAt < 2 ^ 64 →
    ((s.putReg l 0x24 lo f).putReg l 0x28 hi f).sys.viewAt = lo.toNat + 2 ^ 32 * hi.toNat) ∧
  (∀ (s : State) (l : Level) (a : Nat) (w : Word) (f : LineFlaws),
    a ∈ [0x0, 0x10, 0x14, 0x18, 0x1C, 0x2C, 0x30, 0x34, 0x38, 0x40, 0x68, 0x6C, 0x70, 0x74, 0x78, 0x7C, 0x1000, 0x2004, 0x2008, 0x2060,
      0x2064, 0x20000, 0x20010, 0x20014, 0x20020, 0x20024, 0x20060, 0x20064, 0x3000C, 0x30010, 0x30020, 0x30030, 0x3110C, 0x40018, 0x4001C] →
    s.putReg l a w f = s) ∧
  (∀ (s : State) (a : Nat), a ∈ [0x30008, 0x30014, 0x30018, 0x3001C, 0x31008, 0x3100C, 0x31048, 0x3104C] →
    tget 0 s.sys.view a = 0 → s.regWord a = 0) ∧
  (∀ (s : State) (l : Level) (w : Word) (f : LineFlaws) (n k : Nat), s.inUse n = true → n < 128 → k < 6 →
    (s.chan n).sense.locked = true →
    ((s.putReg l (0x10004 + 0x100 * n + 4 * k) w f).chan n).sense.stg = (s.chan n).sense.stg ∧
    ((s.putReg l (0x10080 + 0x100 * n) w f).chan n).ch = (s.chan n).ch ∧
    ((s.putReg l (0x10084 + 0x100 * n) w f).chan n).ch = (s.chan n).ch) ∧
  (∀ (s : State) (l : Level) (w : Word) (f : LineFlaws) (n : Nat), s.inUse n = true → n < 128 → (s.chan n).sense.locked = false →
    ((s.putReg l (0x10080 + 0x100 * n) w f).chan n).ch.mgnCfg = w &&& 0x00FFFFF7#32 ∧
    ((s.putReg l (0x10084 + 0x100 * n) w f).chan n).ch.mgnTgt = w &&& 0x01FFFFFF#32) ∧
  (∀ (s : State) (l : Level) (w : Word) (f : LineFlaws) (p i : Nat), p < nGpio s.hw.variant → i < 16 →
    ((s.putReg l (0x31014 + 0x40 * p) w f).port p).od.testBit i =
      if (s.portMask p).testBit i && !(s.port p).locked.testBit i then wbit w i else (s.port p).od.testBit i) ∧
  (∀ (s : State) (l : Level) (a : Nat) (w : Word) (f : LineFlaws), 0x10000 ≤ a → a < 0x18000 → s.inUse ((a - 0x10000) / 0x100) = false →
    s.regWord a = 0 ∧ s.putReg l a w f = s) ∧
  (∀ (s : State) (l : Level) (a : Nat) (w : Word) (f : LineFlaws), s.hw.variant = .dz32 → tget 0 s.sys.view a = 0 →
    (0x12000 ≤ a ∧ a < 0x18000) ∨ (0x31080 ≤ a ∧ a < 0x310C0) ∨ (0x41800 ≤ a ∧ a < 0x43000) →
    s.regWord a = 0 ∧ s.putReg l a w f = s)

/-- Completion, sessions of the host port (R442 to R445): CHAL gives a nonce, OPEN with the right HMAC opens the session of the
nonce's level and otherwise ends the session there was, CLOSE ends it; checks 6 and 7 refuse each; idle limit, nonce and lockout expire. -/
def Obligations.HmpSessionsComplete : Prop :=
  (∀ (s v u : State) (lv : BitVec 24) (crc : BitVec 32) (k : Nat), s.hmpHears = true → s.hmp.broken = false →
    v = { s.hmpDue with hmp := { s.hmpDue.hmp with broken := false } } → u = v.tpAdd 0 10 1 0 →
    k = (if u.wakesNow then 7 else u.plainCheck) → lv.toNat < 4 →
    crc = crc32c (leBytes 1 0x10 ++ leBytes 3 lv.toNat ++ leBytes 2 0) →
    ∃ (w : State) (b : List Byte), (b, w) = u.draw 32 ∧ w.now = u.now ∧ exec (.hmpChal lv 0 crc) s = .next
      ((if k ≠ 0 then u.answer k 0 [] else if u.hmp.lockEnd.isSome then u.answer 0x0B 0 []
        else ({ w with hmp := { w.hmp with nonce := some (Level.ofCode lv.toNat, b, w.now) } }).answerOk w.now 0 0 b).wakeEvent 2)) ∧
  (∀ (s v u w : State) (l : Level) (lv : BitVec 24) (crc : BitVec 32) (mac : List (BitVec 8)), s.hmpHears = true →
    s.hmp.broken = false → v = { s.hmpDue with hmp := { s.hmpDue.hmp with broken := false } } → u = v.tpAdd 0 42 1 0 →
    lv.toNat < 4 → l = Level.ofCode lv.toNat → mac.length = 32 →
    crc = crc32c (leBytes 1 0x11 ++ leBytes 3 lv.toNat ++ leBytes 2 32 ++ mac) →
    u.wakesNow = false → u.plainCheck = 0 →
    w = { u.endSession with hmp := { u.endSession.hmp with nonce := none } } →
    (u.hmp.nonce = none → exec (.hmpOpen lv 32#16 mac crc) s = .next ((w.answer 0x0C 0 []).wakeEvent 2)) ∧
    (∀ (nl : Level) (b : List Byte) (at_ : Nat), u.hmp.nonce = some (nl, b, at_) →
      (nl ≠ l → exec (.hmpOpen lv 32#16 mac crc) s = .next ((w.answer 0x0C 0 []).wakeEvent 2)) ∧
      (nl = l → w.openMac l b = some mac → exec (.hmpOpen lv 32#16 mac crc) s = .next
        ((({ w with hmp := { w.hmp with session := some l, fails := 0 } }).answerOk w.now 0 0 []).wakeEvent 2)) ∧
      (nl = l → w.openMac l b ≠ some mac → exec (.hmpOpen lv 32#16 mac crc) s = .next (w.openFails.wakeEvent 2)))) ∧
  (∀ (s v u : State) (lv : BitVec 24) (crc : BitVec 32) (mac : List (BitVec 8)) (k : Nat), s.hmpHears = true →
    s.hmp.broken = false → v = { s.hmpDue with hmp := { s.hmpDue.hmp with broken := false } } → u = v.tpAdd 0 42 1 0 →
    lv.toNat < 4 → mac.length = 32 → crc = crc32c (leBytes 1 0x11 ++ leBytes 3 lv.toNat ++ leBytes 2 32 ++ mac) →
    k = (if u.wakesNow then 7 else u.plainCheck) → k ≠ 0 → exec (.hmpOpen lv 32#16 mac crc) s = .next ((u.answer k 0 []).wakeEvent 2)) ∧
  (∀ (s v u : State) (crc : BitVec 32) (k : Nat), s.hmpHears = true → s.hmp.broken = false →
    v = { s.hmpDue with hmp := { s.hmpDue.hmp with broken := false } } → u = v.tpAdd 0 10 1 0 →
    crc = crc32c (leBytes 1 0x12 ++ leBytes 3 0 ++ leBytes 2 0) →
    k = (if u.wakesNow then 7 else u.plainCheck) → exec (.hmpClose 0 0 crc) s = .next ((if k ≠ 0 then u.answer k 0 []
      else u.endSession.answerOk u.now 0 0 []).wakeEvent 2)) ∧
  (∀ (s : State) (c d t : Nat) (p : List Byte), (s.answerOk t c d p).hmp.resp = some { status := c, detail := d, payload := p }
    ∧ (s.answerOk t c d p).hmp.acceptedAt = t ∧ (s.answer c d p).hmp.resp = some { status := c, detail := d, payload := p }
    ∧ (s.answer c d p).hmp.session = s.hmp.session ∧ s.endSession.hmp.session = none ∧ s.openFails.hmp.fails = min 7 (s.hmp.fails + 1)) ∧
  (∀ s : State, s.hmp.session.isSome = true → s.hmp.idle ≠ 0 → s.hmp.acceptedAt + s.hmp.idle * 100000000 ≤ s.now →
    exec .hmpSessionIdleExpiry s = .next s.endSession) ∧
  (∀ (s : State) (l : Level) (b : List Byte) (at_ : Nat), s.hmp.nonce = some (l, b, at_) → at_ + 100000000 ≤ s.now →
    exec .hmpNonceExpiry s = .next { s with hmp := { s.hmp with nonce := none } }) ∧
  (∀ (s : State) (e : Nat), s.hmp.lockEnd = some e → e ≤ s.now →
    exec .hmpLockoutEnd s = .next { s with hmp := { s.hmp with lockEnd := none, fails := 0 } })

/-- Completion, the JTAG port (R462, R475 to R478, R503, R508, R517): boundary scan and authenticated debug. -/
def Obligations.DebugPortCompletes : Prop :=
  (∀ (s : State) (i : JtagIr), (s.takeIr i).jtag = { s.jtag with ir := i } ∧ (s.takeIr i).sec = s.sec ∧ (s.takeIr i).chans = s.chans
    ∧ (s.takeIr i).seq = s.seq ∧ (s.takeIr i).flt = s.flt
    ∧ (s.takeIr i).gpio = (if s.scanHolds = (i.holds && (s.sec.dbg == .control || s.sec.dbg == .factory)) then s.gpio else s.parkAll.gpio)) ∧
  (∀ s : State, s.tapUp = true → exec .jtagBypass s = .next ((s.takeIr .bypass).shiftOut 0)
    ∧ exec .jtagIdcode s = .next ((s.takeIr .idcode).shiftOut s.idcode.toNat)) ∧
  (∀ (s : State) (pads : List (BitVec 16)), s.tapUp = true →
    ∃ t, exec (.jtagSamplePreload pads) s = .next t ∧ t.jtag = { s.jtag with
      ir := .sample, pads := pads, loads := s.jtag.loads + 1, dr := pads.foldr (fun p a => p.toNat + 2 ^ 16 * a) 0 }
      ∧ (∀ p, t.port p = if p < nGpio s.hw.variant
          then { (s.takeIr .sample).port p with pad := (pads[p]?.map BitVec.toNat).getD ((s.takeIr .sample).port p).pad }
          else (s.takeIr .sample).port p)
      ∧ t.sec = s.sec ∧ t.chans = s.chans ∧ t.seq = s.seq) ∧
  (∀ (s : State) (c : Instr) (i : JtagIr), s.tapUp = true →
    (c = .jtagExtest ∧ i = .extest) ∨ (c = .jtagClamp ∧ i = .clamp) ∨ (c = .jtagHighz ∧ i = .highz) →
    exec c s = .next (if (s.sec.dbg == .control || s.sec.dbg == .factory) && s.railsOff
      then { s.takeIr i with
        seq := { (s.takeIr i).seq with onLatch := none }
        jtag := { s.jtag with
          ir := i, loads := if i = .extest then s.jtag.loads + 1 else s.jtag.loads
          dr := if i = .extest then (s.takeIr i).padChain else 0 } }
      else (s.takeIr .bypass).shiftOut 0)) ∧
  (∀ s : State, s.tapUp = true → exec .trstNFall s = .next (s.takeIr .idcode).dbgToOff) ∧
  (∀ s u : State, s.dbgUp = true → u = (s.takeIr .dbgChal).dbgLockPast → u.jtag.lockEnd = none →
    ∃ (w : State) (b : List Byte), (b, w) = u.draw 32 ∧ exec .dbgChal s = .next
      { w with jtag := { w.jtag with nonce := some (b, w.now), dr := leNat b } }) ∧
  (∀ s u : State, s.dbgUp = true → u = (s.takeIr .dbgChal).dbgLockPast → u.jtag.lockEnd.isSome = true →
    exec .dbgChal s = .next (u.shiftOut 0)) ∧
  (∀ (s u v : State) (lv : BitVec 8) (mac : List (BitVec 8)), s.dbgUp = true →
    u = ((s.takeIr .dbgAuth).dbgLockPast).dbgNonceEnds → v = { u with jtag := { u.jtag with nonce := none } } →
    (u.jtag.lockEnd.isSome = true ∨ u.lcsJudge.dbgMax.code < lv.toNat → exec (.dbgAuth lv mac) s = .next v) ∧
    (u.jtag.lockEnd = none → lv.toNat ≤ u.lcsJudge.dbgMax.code → u.dbgMac lv.toNat = some mac → exec (.dbgAuth lv mac) s = .next
      (({ v with jtag := { v.jtag with unlocks := incTo 0xFF u.jtag.unlocks } }).dbgTo
        (if u.sec.transAt = some u.now then .off else Dbg.ofCode lv.toNat))) ∧
    (u.jtag.lockEnd = none → lv.toNat ≤ u.lcsJudge.dbgMax.code → u.dbgMac lv.toNat ≠ some mac → exec (.dbgAuth lv mac) s = .next
      { v with jtag := { v.jtag with
        fails := min 7 (u.jtag.fails + 1), lockEnd := if 4 ≤ min 7 (u.jtag.fails + 1) then some (u.now + 100000000) else none } })) ∧
  (∀ s : State, s.dbgUp = true →
    exec .dbgStat s = .next ((s.takeIr .dbgStat).shiftOut (s.secReg 0x0B0).toNat)) ∧
  (∀ (s u : State) (a : BitVec 24) (d : BitVec 32), s.dbgUp = true →
    u = (s.takeIr .dbgReg).shiftOut s.jtag.prevRead.toNat →
    exec (.dbgReg a false d) s = .next (if u.dbgRefuses a.toNat false = true ∨ a.toNat % 4 ≠ 0 ∨ s.sec.dbg = .off then u
      else { u with jtag := { u.jtag with prevRead := u.dbgWord a.toNat } })) ∧
  (∀ (s u : State) (l : Level) (a : BitVec 24) (d : BitVec 32) (f : LineFlaws), f = Config.readFlaws s.now → s.dbgUp = true →
    s.sec.dbg.rights = some l →
    u = (s.takeIr .dbgReg).shiftOut s.jtag.prevRead.toNat →
    exec (.dbgReg a true d) s = .next (if u.dbgRefuses a.toNat true = true ∨ a.toNat % 4 ≠ 0 ∨ u.islLost (islServing a.toNat) = true
      then u else (u.putReg l a.toNat d f).outNote a.toNat d)) ∧
  (∀ (s : State) (a : BitVec 24) (d : BitVec 32), s.dbgUp = true → s.sec.dbg.rights = none →
    exec (.dbgReg a true d) s = .next ((s.takeIr .dbgReg).shiftOut s.jtag.prevRead.toNat)) ∧
  (∀ s : State, s.dbgUp = true → exec .dbgReset s = .next (if s.sec.dbg = .control ∨ s.sec.dbg = .factory
    then (s.takeIr .dbgReset).orderly 64 else s.takeIr .dbgReset)) ∧
  (∀ s : State, s.dbgUp = true → exec .dbgOff s = .next ((s.takeIr .dbgOff).dbgTo .off)) ∧
  (∀ (s : State) (b : List Byte) (at_ : Nat), s.jtag.nonce = some (b, at_) → at_ + 100000000 ≤ s.now →
    exec .dbgNonceExpiry s = .next { s with jtag := { s.jtag with nonce := none } }) ∧
  (∀ (s : State) (e : Nat), s.jtag.lockEnd = some e → e ≤ s.now →
    exec .dbgLockoutEnd s = .next { s with jtag := { s.jtag with lockEnd := none, fails := 0 } })

/-- Completion, the link test (R463, R464): a write of each mode, with the codes that refuse it, error injection, clearing, and a
checker's finding. A target that is not there records ABSENT and takes nothing else. -/
def Obligations.LinkTestCompletes : Prop :=
  (∀ (s : State) (l : Level) (t m p : Nat) (c : Instr), s.writer (ltReg t) .user = some l →
    (c = .ltModeOff t ∧ m = 0 ∧ p = (tget {} s.lt t).poly) ∨ (∃ q : BitVec 2, c = .ltModePrbs t q ∧ m = 1 ∧ p = q.toNat) ∨
      (c = .ltModeNear t ∧ m = 2 ∧ p = (tget {} s.lt t).poly) ∨ (c = .ltModeFar t ∧ m = 3 ∧ p = (tget {} s.lt t).poly) →
    (l.ge .owner = false → exec c s = .next (s.modLt t fun x => { x with code := 1 })) ∧
    (ltPresent s.hw.variant t = false → l.ge .owner = true → exec c s = .next (s.modLt t fun x => { x with code := 3 })) ∧
    (ltPresent s.hw.variant t = true → l.ge .owner = true → m ≠ 0 → s.ltMay t = false →
      exec c s = .next (s.modLt t fun x => { x with code := 2 })) ∧
    (ltPresent s.hw.variant t = true → l.ge .owner = true → m = 0 ∨ s.ltMay t = true →
      exec c s = .next ((s.ltMode t m p).modLt t fun x => x))) ∧
  (∀ (s : State) (t m p : Nat) (x : Lt), x = tget {} s.lt t →
    tget {} (s.ltMode t m p).lt t = { x with
        mode := m, poly := p, code := 0, lock := x.lock && decide (x.mode = m ∧ x.poly = p), inj := if x.mode = m then x.inj else 0
        recent := if x.mode = m ∧ x.poly = p then x.recent else [] }
      ∧ (∀ k, k ≠ t → tget {} (s.ltMode t m p).lt k = tget {} s.lt k)
      ∧ (2 ≤ t → (s.ltMode t m p).hld = s.hld ∧ (s.ltMode t m p).mcp = s.mcp ∧ (s.ltMode t m p).flt = s.flt
        ∧ ((x.mode = 0 ↔ m ≠ 0) → ((s.ltMode t m p).casPort (t - 2)).link =
          (if m ≠ 0 then .down else if s.portEnabled (t - 2) then .training else .disabled)))) ∧
  (∀ (s : State) (l : Level) (t : Nat) (x : Lt), s.writer (ltReg t) .user = some l → l.ge .owner = true → x = tget {} s.lt t →
    ltPresent s.hw.variant t = true → x.mode = 0 ∨ s.ltMay t = true →
    ∃ a b : State, exec (.ltInj t) s = .next a ∧ exec (.ltClr t) s = .next b
      ∧ tget {} a.lt t = (if x.mode = 0 then { x with code := 0 } else { x with
        code := 0, inj := if x.mode = 2 then x.inj + 1 else x.inj
        injAt := (s.now, if x.injAt.1 = s.now then x.injAt.2 + 1 else 1) })
      ∧ tget {} b.lt t = { x with code := 0, errs := 0, bits := 0 }
      ∧ (∀ y ∈ [a, b], y.mcp = s.mcp ∧ y.cas = s.cas ∧ y.hld = s.hld ∧ y.flt = s.flt
        ∧ ∀ k, k ≠ t → tget {} y.lt k = tget {} s.lt k)) ∧
  (∀ (s : State) (t good errors window : Nat), ltPresent s.hw.variant t = true →
    ∃ x, exec (.ltCheckerLock t good errors window) s = .next x
      ∧ tget {} x.lt t = (tget {} s.lt t).checked good errors window ∧ x.cas = s.cas ∧ x.flt = s.flt ∧ x.hld = s.hld) ∧
  (∀ (s : State) (t good errors window : Nat), ltPresent s.hw.variant t = false →
    exec (.ltCheckerLock t good errors window) s = .next s)

/-- Completion, lifecycle and fuse operations (R466 to R471): each operation of SEC_LC_CTRL in a session and state of its row, refused
with its code otherwise, and the end of the operation in progress, with its read-back right or not. -/
def Obligations.LifecycleCompletes : Prop :=
  (∀ (s : State) (l : Level) (key : BitVec 16) (w2 : BitVec 2) (hs : Bool) (o : LcReq) (c : Instr), s.writer 0x60004 .user = some l →
    (o = .prov ∧ c = .toProvisioned key) ∨ (o = .depl ∧ c = .toDeployed key) ∨ (o = .ret ∧ c = .toReturned key)
      ∨ (o = .retire ∧ c = .toRetired key) ∨ (o = .root ∧ c = .root key) ∨ (o = .arb ∧ c = .arb key) ∨ (o = .wdg ∧ c = .wdgFuse key w2 hs) →
    s.lcCheck o l key.toNat ≠ 0 → exec c s = .next { s with sec := { s.sec with lcCode := s.lcCheck o l key.toNat } }) ∧
  (∀ (s : State) (l : Level) (o : LcReq), s.writer 0x60004 .user = some l → s.lcCheck o l 0x1C5A = 0 →
    ∃ u : State, u = { s with sec := { s.sec with lcCode := 0, lcOp := some { op := o.code, win := 0, hwStart := false, arb := s.cfg.arbVer } } } ∧
      (o = .prov → exec (.toProvisioned 0x1C5A#16) s = .next ((u.zeroize.lcErase o).settle s.now)) ∧
      (o = .depl → exec (.toDeployed 0x1C5A#16) s = .next ((u.zeroize.lcErase o).settle s.now)) ∧
      (o = .ret → exec (.toReturned 0x1C5A#16) s = .next ((u.zeroize.lcErase o).settle s.now)) ∧
      (o = .retire → exec (.toRetired 0x1C5A#16) s = .next ((u.zeroize.lcErase o).settle s.now)) ∧
      (o = .root → exec (.root 0x1C5A#16) s = .next u) ∧
      (o = .arb → exec (.arb 0x1C5A#16) s = .next u)) ∧
  (∀ (s : State) (l : Level) (win : BitVec 2) (hs : Bool), s.writer 0x60004 .user = some l → s.lcCheck .wdg l 0x1C5A = 0 →
    exec (.wdgFuse 0x1C5A#16 win hs) s = .next { s with sec := { s.sec with
      lcCode := 0, lcOp := some { op := 10, win := win.toNat, hwStart := hs, arb := s.cfg.arbVer } } }) ∧
  (∀ (s u v : State) (o : LcOp) (f : Fuses) (ok : Bool), s.sec.lcOp = some o → s.ctrlUp = true →
    f = (if ok || Config.fuseReads s.now then s.blown o else s.hw.fuses) →
    u = { s.takeFuses f with sec := { s.sec with lcOp := none, lcCode := if ok then 0 else 7, irq := Irq.set s.sec.irq 4 } } →
    v = (if u.lcs = s.lcs then u else (({ u with sec := { u.sec with transAt := some u.now } }).endSession).setDbg .off) →
    exec (.lcOperationDone ok) s = .next ((if o.op ≤ 4 ∧ (ok = true ∨ u.lcs ≠ s.lcs) then v.unwrapAll else v).settle s.now))

/-- Completion, keys and tamper (R472 to R474, R480 to R482, R486, R487, R495, R496): the key commands, each refused with its code or
carried out, the end of their line write, of unwrapping, when SEC_PERMIT and SEC_READY are set and cleared, and tamper in every rung. -/
def Obligations.KeysComplete : Prop :=
  (∀ (s : State) (l : Level) (lv : BitVec 2) (c : Nat), s.writer 0x60010 .user = some l →
    c = (if l.ge .owner = false then 1 else if lv = 3 then 7
      else if lv = 2 ∧ l = .vendor ∧ s.lcs ≠ .blank ∧ s.lcs ≠ .provisioned then 2
      else if lv = 2 ∧ l ≠ .vendor ∧ s.lcs ≠ .provisioned ∧ s.lcs ≠ .deployed ∧ s.lcs ≠ .returned then 2
      else if lv ≠ 2 ∧ s.lcs = .retired then 2 else if s.sec.keyBusy.isSome then 5 else if s.unblob l = none then 3 else 0) →
    (c ≠ 0 → exec (.installSkey lv) s = .next (s.keyRefuse c)) ∧
    (∀ k, c = 0 → s.unblob l = some k →
      exec (.installSkey lv) s = .next (s.keyStore k (s.secBase + 0x40 * lv.toNat) (lv.toNat + 1) 0))) ∧
  (∀ (s : State) (l : Level) (c : Nat), s.writer 0x60010 .user = some l →
    c = (if l.ge .owner = false then 1 else if s.lcs ≠ .provisioned ∧ s.lcs ≠ .deployed then 2 else if s.sec.keyBusy.isSome then 5
      else if s.unblob l = none then 3 else 0) →
    (c ≠ 0 → exec .installPair s = .next (s.keyRefuse c)) ∧
    (∀ (k : List Byte) (u : State), c = 0 → s.unblob l = some k → u = s.keyStore k (s.secBase + 0xC0) 4 0 →
      exec .installPair s = .next { u with sec := { u.sec with paired := true, kp := k } })) ∧
  (∀ (s : State) (l : Level) (i : BitVec 8) (c : Nat), s.writer 0x60010 .user = some l →
    c = (if l ≠ .owner then 1 else if s.lcs ≠ .provisioned ∧ s.lcs ≠ .deployed then 2 else if (s.kpol i.toNat).valid = false then 4
      else if (s.kpol i.toNat).line < 16 then 6 else if s.sec.keyBusy.isSome then 5 else if s.unblob l = none then 3 else 0) →
    (c ≠ 0 → exec (.installCkey i) s = .next (s.keyRefuse c)) ∧
    (∀ k, c = 0 → s.unblob l = some k → exec (.installCkey i) s = .next (s.keyStore k (s.ckeyLine i.toNat) 0x10 i.toNat))) ∧
  (∀ (s u : State) (l : Level) (i : BitVec 8) (c : Nat), s.writer 0x60010 .user = some l →
    c = (if l ≠ .owner then 1 else if s.lcs = .retired then 2 else if (s.kpol i.toNat).valid = false then 4
      else if (s.kpol i.toNat).line < 16 then 6 else if s.sec.keyBusy.isSome then 5 else 0) →
    u = { s with
      env := s.env.clearLines (s.ckeyLine i.toNat) (s.ckeyLine i.toNat + 64)
      sec := { s.sec with keyCode := 0, restored := none, kram := tset [] s.sec.kram i.toNat []
                          ready := s.sec.ready &&& ~~~ BitVec.ofNat 256 (2 ^ i.toNat) } } →
    exec (.eraseCkey i) s = .next (if c = 0 then u.settle u.now else s.keyRefuse c)) ∧
  (∀ (s u : State) (l : Level) (i : BitVec 8) (c : Nat), s.writer 0x60010 .user = some l →
    c = (if l ≠ .owner then 1 else if s.lcs ≠ .deployed then 2 else if (s.kpol i.toNat).valid = false then 4
      else if (s.kpol i.toNat).line < 16 then 6 else if s.sec.keyBusy.isSome then 5
      else if tget 0 s.sec.alarmTs i.toNat = s.now + 1 then 2 else 0) →
    u = { s with sec := { s.sec with
      keyCode := 0, held := s.sec.held &&& ~~~ BitVec.ofNat 256 (2 ^ i.toNat), restored := some (s.now, i.toNat) } } →
    exec (.restore i) s = .next (if c = 0 then u.settle u.now else s.keyRefuse c)) ∧
  (∀ (s : State) (c : Nat), s.keyRefuse c = { s with sec := { s.sec with keyCode := c, restored := none } }) ∧
  (∀ (s u : State) (a : Nat) (l : List Byte), s.sec.keyBusy = some (a, l) → s.ctrlUp = true → s.rungOk = true →
    u = { s with env := s.env.putLine a l, sec := { s.sec with keyBusy := none } } →
    exec .keyCmdDone s = .next (if leAt l 40 1 = 0x10 then u.unwrapStart [leAt l 41 1] else u)) ∧
  (∀ (s : State) (fl : LineFlaws) (l : List Nat), s.sec.unwrapping = some l → s.ctrlUp = true → s.rungOk = true →
    s.islLost 18 = false →
    ∃ u : State, u = l.foldl (State.unwrapOne fl) { s with sec := { s.sec with unwrapping := none } } ∧
      exec (.unwrapDone fl) s = .next (u.settle u.now)) ∧
  (∀ (s t : State) (fl : LineFlaws) (i : Nat) (good : Bool), i < 256 → t = s.unwrapOne fl i →
    good = ((s.env.check fl (s.ckeyLine i)).isNone && decide (leAt (s.env.lineAt (s.ckeyLine i)) 41 1 = i)
      && ((s.readLine fl (s.ckeyLine i)).keyAt (s.ckeyLine i) 0x10).isSome) →
    t.sec.ready.getLsbD i = good ∧ t.sec.bad.getLsbD i = !good
      ∧ (∀ j, j < 256 → j ≠ i → t.sec.ready.getLsbD j = s.sec.ready.getLsbD j ∧ t.sec.bad.getLsbD j = s.sec.bad.getLsbD j)) ∧
  (∀ s : State, s.zeroize.sec.ready = 0 ∧ s.zeroize.sec.kram = [] ∧ s.zeroize.sec.bad = s.sec.bad ∧ s.zeroize.permitMap = 0) ∧
  (∀ (s : State) (i : Nat), i < 256 → (s.permitMap.getLsbD i = true ↔
    s.lcs = .deployed ∧ (s.sec.dbg = .off ∨ s.sec.dbg = .observe ∧ (s.kpol i).cond.testBit 1 = true) ∧
    (s.pwr.rung = .summer ∨ s.pwr.rung = .autumn ∧ (s.kpol i).cond.testBit 0 = true) ∧
    ((s.kpol i).cond.testBit 2 = true → s.seqCode = 2) ∧ ((s.kpol i).cond.testBit 3 = true → s.cas.st = .leader ∨ s.cas.st = .locked) ∧
    ((s.kpol i).cond.testBit 4 = true → s.sec.rel.getLsbD i = true) ∧ s.sec.ready.getLsbD i = true ∧ s.sec.bad.getLsbD i = false ∧
    s.sec.held.getLsbD i = false ∧ s.flt.safe = none ∧ s.wdg.expiredSince = false ∧ s.flt.priv.testBit 4 = false ∧ s.mcp.up = true ∧
    s.sys.phase ≠ .recovery ∧ s.pwr.prepared = false ∧ ∃ e ∈ s.sec.kram, e.1 = i)) ∧
  (∀ s : State, s.permits.sec.permit = s.sec.permit &&& s.permitMap ∧ s.permitTick.sec.permit = s.permitMap
    ∧ s.permitTick.sec.revoked = 0 ∧ (s.permits.sec.permit ≠ s.sec.permit → s.permits.sec.irq = Irq.set s.sec.irq 1)) ∧
  (∀ (s u v : State), s.ctrlUp = true → s.sys.vauxDown = false →
    u = { s with sec := { s.sec with tamperN := incTo 0xFF s.sec.tamperN, tamperLast := 2, irq := Irq.set s.sec.irq 3 } } →
    v = { s with sec := { s.sec with
      tamperN := incTo 0xFF s.sec.tamperN, tamperLast := 1, irq := Irq.set s.sec.irq 3, tamperEnd := s.now + Config.tamperLen s.now } } →
    (s.rungOk = true →
      exec .tamperGlitch s = .next (((((u.zeroize.setDbg .off).privEvent 5 s.now).wakeEvent 6).safeEnter 2047 s.now).settle s.now) ∧
      exec .tamperPin s = .next (((((v.zeroize.setDbg .off).privEvent 5 s.now).wakeEvent 6).safeEnter 2047 s.now).settle s.now)) ∧
    (∀ w : State, s.rungOk = false → w = (v.zeroize.setDbg .off).privEvent 5 s.now →
      exec .tamperGlitch s = .next s ∧ exec .tamperPin s = .next { w with pwr := { w.pwr with
        exit := some (.summer, (w.pwr.exit.map (·.2)).getD s.now), tamperWake := some s.now, wake := 6
        irq := if w.pwr.exit.isNone then Irq.set w.pwr.irq 1 else w.pwr.irq } }))

/-- Completion, the power ladder (R488 to R494, R496, R510, R511, R537): requests that R490 accepts, the steps of an entry at the end of a
tick, its stop, the timers, wake and exit, and OVERTEMP. -/
def Obligations.PowerLadderCompletes : Prop :=
  (∀ (s : State) (l : Level), s.writer 0x1004 .user = some l → l.ge .operator = true → s.pwr.entry = none → s.pwr.exit = none →
    ∃ u : State, u = { s with pwr := { s.pwr with code := 0 } } ∧
      (s.pwr.rung = .autumn → exec .pwrToSummer s = .next ((u.rungTo .summer).settle s.now)) ∧
      (s.pwr.rung = .summer → exec .pwrToAutumn s = .next (((u.leaveSummer s.now).rungTo .autumn).settle s.now)) ∧
      (s.pwr.rung ≠ .winter → s.canSleep = true → exec .pwrToWinter s = .next ((u.rungEnter .winter true).settle s.now)) ∧
      (s.pwr.rung ≠ .midwinter → s.canSleep = true → exec .pwrToMidwinter s = .next ((u.rungEnter .midwinter true).settle s.now))) ∧
  (∀ (s : State) (r : Rung), s.rungTo r = { s with pwr := { s.pwr with rung := r, entryTs := s.now, irq := Irq.set s.pwr.irq 0 } }
    ∧ s.rungEnter r true = { s with pwr := { s.pwr with entry := some r, prepared := false, asked := true, woke := none } }) ∧
  (∀ s t : State, t = (if s.pwr.rung = .summer then s.leaveSummer s.now else s).rungPrepare →
    s.entryTick = if s.entryReady then (if s.pwr.entry = some .midwinter then t.portsLost fun _ => true else t) else s) ∧
  (∀ (s u v w : State) (r : Rung), u = s.wdgCatch → u.pwr.entry = some r → u.pwr.prepared = true → u.railsDown = true →
    u.sys.mainClock = true → v = (u.zeroize.endSession).setDbg .off →
    w = { v with
      sys := { v.sys with mainClock := false, rcAcc := 0 }
      cas := v.cas.clockStops
      gpio := { v.gpio with latched := true, mirHeld := (List.range 8).foldl (fun a k => a + b2n (v.mirror k) * 2 ^ k) 0 }
      pwr := { v.pwr with rung := r, entry := none, prepared := false, entryTs := v.now, irq := Irq.set v.pwr.irq 0 } } →
    exec .rungEntryStop s = .next w.wakeKept) ∧
  (∀ s u : State, u = s.wdgCatch → u.pwr.entry = none ∨ u.pwr.prepared = false ∨ u.railsDown = false →
    exec .rungEntryStop s = .next u.wakeKept) ∧
  (∀ s : State, s.pwr.rung = .winter → s.pwr.exit = none → s.vinComes = false → fld s.pwr.policy 8 8 ≠ 0 →
    s.pwr.entryTs + fld s.pwr.policy 8 8 * 100000000 ≤ s.now →
    exec .winMidExpiry s = .next { s.casDisable.portsLost
    (fun _ => true) with pwr := { s.pwr with rung := .midwinter, entryTs := s.now, irq := Irq.set s.pwr.irq 0 } }) ∧
  (∀ s : State, fld s.pwr.policy 16 16 ≠ 0 → s.pwr.entryTs + fld s.pwr.policy 16 16 * 100000000 ≤ s.now →
    exec .wakeTExpiry s = exec (.wake 5) s) ∧
  (∀ (s : State) (src : BitVec 4), s.wakeEnabled src.toNat = false → exec (.wake src) s = .next s) ∧
  (∀ (s : State) (src : BitVec 4), s.wakeEnabled src.toNat = true → s.rungOk = false → s.pwr.exit = none →
    exec (.wake src) s = .next { s with pwr := { s.pwr with
      domOn := s.pwr.domOn || decide (src = 3), wake := src.toNat, irq := Irq.set s.pwr.irq 1
      exit := some (if src = 6 then .summer else if wbit s.pwr.policy 2 then .autumn else .summer, s.now) } }) ∧
  (∀ (s : State) (src : BitVec 4), s.wakeEnabled src.toNat = true → s.rungOk = true → s.pwr.entry.isSome = true →
    exec (.wake src) s = .next { s with pwr := { s.pwr with woke := some (src.toNat, s.now) } }) ∧
  (∀ (s : State) (k : Nat), 1 ≤ k → k ≤ 6 →
    (s.pwr.entry.getD s.pwr.rung = .winter → s.wakeEnabled k = (decide (k = 6) || wbit s.pwr.wakeWinter (k - 1) && decide (k ≠ 6))) ∧
    (s.pwr.entry.getD s.pwr.rung = .midwinter →
      s.wakeEnabled k = (decide (k = 6) || wbit s.pwr.wakeMid (k - 1) && decide (k ≠ 3 ∧ k ≠ 6))) ∧
    (s.pwr.entry.getD s.pwr.rung = .summer ∨ s.pwr.entry.getD s.pwr.rung = .autumn → s.wakeEnabled k = false)) ∧
  (∀ (s u v w x y : State) (r : Rung) (at_ : Nat), s.pwr.exit = some (r, at_) → s.rungOk = false →
    at_ + (if s.pwr.rung = .midwinter then 20000 else 2000) ≤ s.now → u = s.rcEdge →
    v = { u with
      sys := { u.sys with mainClock := true }
      wdg := if u.wdg.run then { u.wdg.period (u.now + 1) with armed := true } else { u.wdg with armed := true }
      gpio := { u.gpio with latched := false }
      pwr := { u.pwr with rung := r, exit := none, entryTs := u.now, irq := Irq.set u.pwr.irq 0 } } →
    y = ({ v.casRetrain with sys := { v.casRetrain.sys with deferred := [] } }.unwrapAll).reports v.sys.deferred u.now →
    w = { y with pwr := { y.pwr with tamperWake := none, domOn := false } } →
    x = ((match y.pwr.tamperWake with | some t => w.safeEnter 2047 t | none => w)).settle u.now →
    exec .rungExitDone s = .next (if y.pwr.domOn then (x.onReq 2 u.now).settle u.now else x)) ∧
  (∀ s u : State, s.sys.phase ≠ .por → s.sys.vauxDown = false → u = { s with pwr := { s.pwr with hotEnd := s.now + Config.hotLen s.now } } →
    exec .overtemp s = .next (if s.active then (u.report 1055 s.now).settle s.now else { u with sys := u.sys.deferSrc 1055 }))

/-- Completion, pins (R499 to R517): register writes of an OPERATOR session on a port, with what a locked or undefined bit leaves and
records, every form of a lock sequence, pin edges and wake pins (that rows of equal levels tell of a new activity is the model's choice,
notes/assumptions/150). -/
def Obligations.PinsComplete : Prop :=
  (∀ (s : State) (l : Level) (p : Nat) (bits : BitVec 16), s.writer (portReg p 0x08) .operator = some l →
    exec (.gpioOutSet p bits) s = .next (s.outBits p bits.toNat true).outReplay) ∧
  (∀ (s : State) (l : Level) (p : Nat) (bits : BitVec 16), s.writer (portReg p 0x0C) .operator = some l →
    exec (.gpioOutClr p bits) s = .next (s.outBits p bits.toNat false).outReplay) ∧
  (∀ (s : State) (p b : Nat) (on : Bool), (s.outBits p b on).port p = { s.port p with
      out := mixBits (Nat.land b (s.portMask p)) (s.port p).out (if on then 0xFFFF else 0) }
    ∧ (∀ q, q ≠ p → (s.outBits p b on).port q = s.port q) ∧ (s.gpio.dbgOut = [] → s.outReplay = s)) ∧
  (∀ (s : State) (l : Level) (p d : Nat) (v : BitVec 16), s.writer (portReg p 0x10) .operator = some l →
    d = mixBits (lessBits (s.portMask p) (s.port p).locked) (s.port p).dir v.toNat →
    ∃ t, exec (.gpioDirWrite p v) s = .next t ∧
    t.port p = ({ s.port p with dir := d }).park (if s.scanHolds then 0 else lessBits d (s.port p).dir) s.now
      ∧ (∀ q, q ≠ p → t.port q = s.port q)) ∧
  (∀ (s : State) (l : Level) (p : Nat) (v : BitVec 32) (free bad : Nat → Bool), s.writer (portReg p 0x18) .operator = some l →
    (∀ i, free i = ((s.portMask p).testBit i && !(s.port p).locked.testBit i)) →
    (∀ i, bad i = (free i && decide (v.toNat / 4 ^ i % 4 = 3))) →
    ∃ t, exec (.gpioPullWrite p v) s = .next t
      ∧ (∀ i, i < 16 → (t.port p).pull.toNat / 4 ^ i % 4 =
          if free i && !bad i then v.toNat / 4 ^ i % 4 else (s.port p).pull.toNat / 4 ^ i % 4)
      ∧ (t.port p = { s.port p with pull := (t.port p).pull }) ∧ (∀ q, q ≠ p → t.port q = s.port q)
      ∧ t.gpio.err = (match ((List.range 16).filter bad).getLast? with
          | some i => wpack [(0, 4, 2), (8, 2, p), (12, 4, i)]
          | none => s.gpio.err)
      ∧ t.gpio.irq = (if (List.range 16).any bad then Irq.set s.gpio.irq 8 else s.gpio.irq)) ∧
  (∀ (s : State) (l : Level) (v : BitVec 32) (bad : Nat → Bool), s.writer 0x31104 .operator = some l →
    (∀ i, bad i = (s.lockedNow0.testBit i && (v.toNat.testBit i != s.gpio.pen.testBit i))) →
    ∃ t, exec (.gpioPenWrite v) s = .next t
      ∧ (∀ i, i < 16 → t.gpio.pen.testBit i = if s.lockedNow0.testBit i then s.gpio.pen.testBit i else v.toNat.testBit i)
      ∧ (∀ i, i < 16 → (if t.gpio.pen.testBit i != s.gpio.pen.testBit i then !s.scanHolds else false) = true →
          (t.port 0).parked i (s.now + 1) = true ∧ (t.port 0).parked i (s.now + 2) = false)
      ∧ (t.port 0 = { s.port 0 with parkEnd := (t.port 0).parkEnd }) ∧ (∀ q, q ≠ 0 → t.port q = s.port q)
      ∧ t.gpio.err = (match ((List.range 16).filter bad).getLast? with
          | some i => wpack [(0, 4, 1), (8, 2, 0), (12, 4, i)]
          | none => s.gpio.err)
      ∧ t.gpio.irq = (if (List.range 16).any bad then Irq.set s.gpio.irq 8 else s.gpio.irq)) ∧
  (∀ (s : State) (l : Level) (k : Nat) (v : BitVec 32), s.writer (0x31140 + 4 * k) .operator = some l →
    exec (.gpioMirSelWrite k v) s = .next (if 8 ≤ k ∨ (s.port 0).locked.testBit (8 + k) = true then s
      else if 8 < fld v 0 5 then s.gpioErr 2 0 (8 + k)
      else { s with gpio := { s.gpio with mir := tset 0 s.gpio.mir k (v &&& 0x0000FF3F#32) } })) ∧
  (∀ (s u : State) (l : Level) (p : Nat) (key mask : BitVec 16), s.writer (portReg p 0x20) .operator = some l →
    p < nGpio s.hw.variant → u = s.lockPast p →
    ((u.port p).lockAt = none → exec (.gpioLock p key mask) s = .next
      (if key = 0x6B2D then u.modPort p (fun x => { x with lockAt := some (u.now, mask.toNat) }) else u.lockFails p)) ∧
    (∀ (at_ m : Nat) (v : State), (u.port p).lockAt = some (at_, m) →
      v = u.modPort p (fun x => { x with lockAt := none, locked := Nat.lor x.locked (Nat.land mask.toNat (u.portMask p)) }) →
      exec (.gpioLock p key mask) s = .next (if key = 0x2D6B ∧ mask.toNat = m ∧ u.now < at_ + 1000
        then { v with gpio := { v.gpio with irq := Irq.set v.gpio.irq 9 } } else u.lockFails p))) ∧
  (∀ (s : State) (p at_ m : Nat), (s.port p).lockAt = some (at_, m) → at_ + 1000 ≤ s.now →
    ∃ t, exec (.gpioLockPairTimeout p) s = .next t ∧ (t.port p).lockAt = none ∧ (t.port p).locked = (s.port p).locked
      ∧ t.gpio.irq = Irq.set s.gpio.irq 8 ∧ fld t.gpio.err 0 4 = 3 ∧ t.chans = s.chans ∧ t.flt = s.flt) ∧
  (∀ (s : State) (p pin : Nat) (level hit : Bool), p < nGpio s.hw.variant → pin < 16 →
    hit = (((s.port p).inp.testBit pin != level) && decide (fld (s.gpio.selOf pin) 0 2 = p)
      && (if level then decide (fld (s.gpio.selOf pin) 2 3 = 1 ∨ fld (s.gpio.selOf pin) 2 3 = 3)
        else decide (fld (s.gpio.selOf pin) 2 3 = 2 ∨ fld (s.gpio.selOf pin) 2 3 = 3))
      && !(s.port p).claim.testBit pin && !s.gpio.latched) →
    ∃ t, exec (.pinLineEdge p pin level) s = .next t ∧ t.port p = { s.port p with
        inp := mixBits (2 ^ pin) (s.port p).inp (b2n level * 2 ^ pin), pad := mixBits (2 ^ pin) (s.port p).pad (b2n level * 2 ^ pin) }
      ∧ (∀ q, q ≠ p → t.port q = s.port q) ∧ t.gpio.edges = (if hit then s.gpio.edges ++ [(pin, p)] else s.gpio.edges)) ∧
  (∀ (s : State) (p pin : Nat) (level : Bool), nGpio s.hw.variant ≤ p ∨ 16 ≤ pin → exec (.pinLineEdge p pin level) s = .next s) ∧
  (∀ (s u v : State) (levels : BitVec 8) (act : Nat) (new : List Nat), s.sys.phase ≠ .por → s.sys.vauxDown = false →
    act = mixBits s.wakeSampled s.gpio.wakeAct (Nat.xor (Nat.xor levels.toNat s.gpio.wakePol) 0xFF) →
    new = (List.range 8).filter (fun k => act.testBit k && (!s.gpio.wakeAct.testBit k
      || (decide (mixBits s.wakeSampled s.gpio.wakeNow levels.toNat = s.gpio.wakeNow) && s.wakeSampled.testBit k))) →
    v = s.modPort 0 (fun x => { x with pad := mixBits s.wakeSampled x.pad levels.toNat }) →
    u = { v with gpio := { v.gpio with
      wakeNow := mixBits s.wakeSampled s.gpio.wakeNow levels.toNat, wakeAct := act
      irq := if s.rungOk then new.foldl Irq.set s.gpio.irq else s.gpio.irq } } →
    exec (.wakePinActive levels) s = .next (if new = [] then u else u.wakeEvent 1))

/-- Completion, counters (R519 to R527, R531): FREEZE, THAW, SNAP, its capture and delivery, the two halves of a leaf, a scrub with the
errors it finds, and the end of a throughput window. -/
def Obligations.CountersComplete : Prop :=
  (∀ (s : State) (l : Level) (late : List Nat), s.writer 0x40000 .operator = some l →
    late = (s.cnt.missNow.flatten.filter fun k => !decide (tget 0 (s.cnt.freeze false true).leaf k = tget 0 s.cnt.leaf k)) →
    exec .cntFreeze s = .next { s with cnt := { s.cnt with freezing := true, missed := 0, code := 0 } } ∧
    exec .cntThaw s = .next { s with
      cnt := s.cnt.missNow.flatten.foldr (fun k c => c.inc k) { s.cnt with frozen := false, freezing := false, missNow := [], code := 0 }
      env := { s.env with countDirty := late.foldl (fun t k => tset false t (k / 8) true) s.env.countDirty } } ∧
    exec .cntSnap s = .next { s with cnt := (if s.cnt.servedAt = some s.now then { s.cnt with code := 3 }
      else if s.cntBusy then { s.cnt with code := 1 } else { s.cnt with code := 0, req := some (s.now + 16) }) }) ∧
  (∀ (s : State) (t : Nat), s.active = true → s.cnt.req = some t → t ≤ s.now →
    exec .cntSnapCapture s = .next { s with cnt := { s.cnt with req := none, shadow := some (0, t, s.cntWords) } }) ∧
  (∀ (s : State) (t : Nat) (ws : Tab Word), s.cnt.shadow = some (0, t, ws) → s.settledBy t = true →
    exec .cntSnapDone s = .next { s with cnt := { s.cnt with
      shadow := none, snap := s.snapLost ws, snapTick := t, src := 0, done := true, irq := Irq.set s.cnt.irq 1 } }) ∧
  (∀ (s : State) (t src : Nat) (ws : Tab Word), s.cnt.shadow = some (src, t, ws) → src ≠ 0 ∨ s.settledBy t = false →
    exec .cntSnapDone s = .next s) ∧
  (∀ (s : State) (l : Level) (n j : Nat) (v : BitVec 32), s.writer (leafReg n j) .operator = some l → n < nCh s.hw.variant →
    exec (.cntLeafLoWrite n j v) s = .next { s with cnt := { s.cnt with stage := v.toNat } }) ∧
  (∀ (s : State) (l : Level) (n j : Nat) (v : BitVec 32), s.writer (leafReg n j + 4) .operator = some l → j < 8 →
    s.inUse n = true →
    ∃ t, exec (.cntLeafHiWrite n j v) s = .next t ∧ tget 0 t.cnt.leaf (8 * n + j) = fld v 0 16 * 2 ^ 32 + s.cnt.stage
      ∧ tget false t.cnt.inv (8 * n + j) = false ∧ tget false t.cnt.ovf (8 * n + j) = false
      ∧ (∀ k, k ≠ 8 * n + j → tget 0 t.cnt.leaf k = tget 0 s.cnt.leaf k) ∧ t.chans = s.chans ∧ t.flt = s.flt
      ∧ t.cnt.isl = (s.cnt.unInc (8 * n + j)).isl ∧ t.cnt.dev = (s.cnt.unInc (8 * n + j)).dev
      ∧ t.env = (if t.cnt.leafRead (8 * n + j) = s.cnt.leafRead (8 * n + j) then s.env
        else { s.env with countDirty := tset false s.env.countDirty n true })) ∧
  (∀ (s : State) (l : Level) (n j : Nat) (v : BitVec 32), s.writer (leafReg n j + 4) .operator = some l → j < 8 →
    s.inUse n = false → exec (.cntLeafHiWrite n j v) s = .next s) ∧
  (∀ (s : State) (isl : Nat) (single double : List CntSpot), s.active = true → isl < nIsl s.hw.variant → s.islLost isl = false →
    ∃ u : State, u = { s with cnt := { s.cnt with corr := addTo 0xFF s.cnt.corr (single.filter (s.spotOn isl)).length } } ∧
      exec (.cntScrub isl single double) s = .next (((double.filter (s.spotOn isl)).foldl State.spoil u).settle s.now)) ∧
  (∀ (s : State) (p : Nat),
    ∃ t, exec (.tpWindowEnd p) s = .next t ∧ tget {} t.cnt.tp p = (tget {} s.cnt.tp p).roll s.now s.now
      ∧ t = { s with cnt := { s.cnt with tp := t.cnt.tp } })

/-- Every step keeps the tables of channels, fault sources and counters in their canonical form: keys rising, and no entry listed that
an unlisted key reads as. -/
def Obligations.TablesKept : Prop :=
  ∀ s t : State, Safety.tablesWf s = true → step s = .next t → Safety.tablesWf t = true
end

