-- ==== Sys2Proof/Laws/Tab.lean ====
section
/-! SUPPORT. Laws of sparse tables: a read after a write, and the canonical form that every table operation keeps. -/

namespace Sys2Proof.Machine

variable {α : Type}

/-! ## Reads -/

@[simp] theorem tget_nil (d : α) (k : Nat) : tget d [] k = d := rfl

theorem mem_tdel_ne (t : Tab α) (k : Nat) : ∀ e ∈ tdel t k, e.1 ≠ k := by
  induction t with
  | nil => simp [tdel]
  | cons e r ih =>
    intro x hx
    simp only [tdel] at hx
    split at hx
    · exact ih x hx
    · rcases List.mem_cons.mp hx with rfl | h
      · exact fun h => ‹¬ k = _› h.symm
      · exact ih x h

theorem tget_tdel_self (d : α) (t : Tab α) (k : Nat) : tget d (tdel t k) k = d := by
  induction t with
  | nil => rfl
  | cons e r ih => simp only [tdel]; split <;> simp_all [tget]

theorem tget_tdel_ne (d : α) (t : Tab α) {k j : Nat} (h : j ≠ k) : tget d (tdel t k) j = tget d t j := by
  induction t with
  | nil => rfl
  | cons e r ih =>
    simp only [tdel]
    split
    · rename_i hk; simp only [tget]; rw [if_neg (by omega)]; exact ih
    · simp only [tget]; rw [ih]

theorem tget_tins_self (d : α) (t : Tab α) (k : Nat) (v : α) (h : ∀ e ∈ t, e.1 ≠ k) : tget d (tins t k v) k = v := by
  induction t with
  | nil => simp [tins, tget]
  | cons e r ih =>
    simp only [tins]
    split
    · simp [tget]
    · have hne : e.1 ≠ k := h e (List.mem_cons_self ..)
      simp only [tget]; rw [if_neg (Ne.symm hne)]; exact ih fun x hx => h x (List.mem_cons_of_mem _ hx)

theorem tget_tins_ne (d : α) (t : Tab α) {k j : Nat} (v : α) (h : j ≠ k) : tget d (tins t k v) j = tget d t j := by
  induction t with
  | nil => simp [tins, tget, h]
  | cons e r ih =>
    simp only [tins]
    split
    · simp [tget, h]
    · simp only [tget]; rw [ih]

variable [DecidableEq α]

@[simp] theorem tget_tset_self (d : α) (t : Tab α) (k : Nat) (v : α) : tget d (tset d t k v) k = v := by
  unfold tset
  split
  · rename_i h; rw [tget_tdel_self, h]
  · exact tget_tins_self d _ k v (mem_tdel_ne t k)

theorem tget_tset_ne (d : α) (t : Tab α) {k j : Nat} (v : α) (h : j ≠ k) : tget d (tset d t k v) j = tget d t j := by
  unfold tset
  split
  · exact tget_tdel_ne d t h
  · rw [tget_tins_ne d _ v h, tget_tdel_ne d t h]

@[simp] theorem tget_tmod_self (d : α) (t : Tab α) (k : Nat) (f : α → α) : tget d (tmod d t k f) k = f (tget d t k) :=
  tget_tset_self d t k _

theorem tget_tmod_ne (d : α) (t : Tab α) {k j : Nat} (f : α → α) (h : j ≠ k) : tget d (tmod d t k f) j = tget d t j :=
  tget_tset_ne d t _ h

/-! ## The canonical form -/

theorem tabWfFrom_mono (d : α) {lo hi : Nat} (h : lo ≤ hi) (t : Tab α) (w : tabWfFrom d hi t = true) : tabWfFrom d lo t = true := by
  cases t with
  | nil => rfl
  | cons e r =>
    simp only [tabWfFrom, Bool.and_eq_true, decide_eq_true_eq] at w ⊢
    exact ⟨⟨by omega, w.1.2⟩, w.2⟩

theorem tabWfFrom_tdel (d : α) (t : Tab α) (lo k : Nat) (w : tabWfFrom d lo t = true) : tabWfFrom d lo (tdel t k) = true := by
  induction t generalizing lo with
  | nil => rfl
  | cons e r ih =>
    simp only [tabWfFrom, Bool.and_eq_true, decide_eq_true_eq] at w
    simp only [tdel]
    split
    · exact tabWfFrom_mono d (by omega) _ (ih _ w.2)
    · simp only [tabWfFrom, Bool.and_eq_true, decide_eq_true_eq]; exact ⟨w.1, ih _ w.2⟩

theorem tabWfFrom_tins (d : α) (t : Tab α) (lo k : Nat) (v : α) (hv : v ≠ d) (hk : ∀ e ∈ t, e.1 ≠ k) (hl : lo ≤ k)
    (w : tabWfFrom d lo t = true) : tabWfFrom d lo (tins t k v) = true := by
  induction t generalizing lo with
  | nil => simp [tins, tabWfFrom, hv, hl]
  | cons e r ih =>
    simp only [tabWfFrom, Bool.and_eq_true, decide_eq_true_eq] at w
    simp only [tins]
    split
    · rename_i h
      simp only [tabWfFrom, Bool.and_eq_true, decide_eq_true_eq]
      exact ⟨⟨hl, hv⟩, ⟨by omega, w.1.2⟩, w.2⟩
    · have : e.1 ≠ k := hk e (List.mem_cons_self ..)
      simp only [tabWfFrom, Bool.and_eq_true, decide_eq_true_eq]
      exact ⟨w.1, ih _ (fun x hx => hk x (List.mem_cons_of_mem _ hx)) (by omega) w.2⟩

/-- Writing a key keeps the canonical form. -/
theorem tabWf_tset (d : α) (t : Tab α) (k : Nat) (v : α) (w : tabWf d t = true) : tabWf d (tset d t k v) = true := by
  unfold tset tabWf at *
  split
  · exact tabWfFrom_tdel d t 0 k w
  · exact tabWfFrom_tins d _ 0 k v ‹_› (mem_tdel_ne t k) (Nat.zero_le _) (tabWfFrom_tdel d t 0 k w)

/-- An entry of a table changed throughout is the changed entry, where the default stays the default. -/
theorem tget_tmap (d : α) (f : Nat → α → α) (t : Tab α) (k : Nat) (h : f k d = d) : tget d (tmap d f t) k = f k (tget d t k) := by
  induction t with
  | nil => exact h.symm
  | cons e r ih =>
    obtain ⟨j, v⟩ := e
    simp only [tmap, tget]
    by_cases hd : f j v = d <;> by_cases hk : k = j <;> simp only [hd, hk, if_true, if_false, tget]
    · exact tget_tdel_self d _ j
    · rw [tget_tdel_ne d _ hk, ih]
    · exact ih

theorem tabWf_tmod (d : α) (t : Tab α) (k : Nat) (f : α → α) (w : tabWf d t = true) : tabWf d (tmod d t k f) = true :=
  tabWf_tset d t k _ w

theorem tabWfFrom_filter (d : α) (p : Nat × α → Bool) (t : Tab α) (lo : Nat) (w : tabWfFrom d lo t = true) :
    tabWfFrom d lo (t.filter p) = true := by
  induction t generalizing lo with
  | nil => rfl
  | cons e r ih =>
    simp only [tabWfFrom, Bool.and_eq_true, decide_eq_true_eq] at w
    rw [List.filter_cons]
    split
    · simp only [tabWfFrom, Bool.and_eq_true, decide_eq_true_eq]; exact ⟨w.1, ih _ w.2⟩
    · exact tabWfFrom_mono d (by omega) _ (ih _ w.2)

/-- Leaving entries out keeps the canonical form. -/
theorem tabWf_filter (d : α) (p : Nat × α → Bool) (t : Tab α) (w : tabWf d t = true) : tabWf d (t.filter p) = true :=
  tabWfFrom_filter d p t 0 w

theorem tabWfFrom_tmap (d : α) (f : Nat → α → α) (t : Tab α) (lo : Nat) (w : tabWfFrom d lo t = true) :
    tabWfFrom d lo (tmap d f t) = true := by
  induction t generalizing lo with
  | nil => rfl
  | cons e r ih =>
    simp only [tabWfFrom, Bool.and_eq_true, decide_eq_true_eq] at w
    simp only [tmap]
    split
    · exact tabWfFrom_tdel d _ _ _ (tabWfFrom_mono d (by omega) _ (ih _ w.2))
    · simp only [tabWfFrom, Bool.and_eq_true, decide_eq_true_eq]; exact ⟨⟨w.1.1, ‹_›⟩, ih _ w.2⟩

/-- Changing every entry keeps the canonical form. -/
theorem tabWf_tmap (d : α) (f : Nat → α → α) (t : Tab α) (w : tabWf d t = true) : tabWf d (tmap d f t) = true :=
  tabWfFrom_tmap d f t 0 w

end Sys2Proof.Machine
end

