-- ==== Sys2Proof/Laws/Store.lean ====
section
/-! SUPPORT. Laws of the ENV store: every operation that writes it keeps its canonical form. -/

namespace Sys2Proof.Machine

/-- The canonical form of the store, as one of the store alone. -/
theorem memory_wf_iff (s : State) :
    Sys2Proof.Safety.Memory.wf s = true ↔ tabWf (0 : Byte) s.env.cells = true ∧ tabWf false s.env.marked = true := by
  unfold Sys2Proof.Safety.Memory.wf; rw [Bool.and_eq_true]

/-- Bytes put in a table leave it in canonical form. -/
theorem putBytes_wf (c : Tab Byte) (a : Nat) (bs : List Byte) (h : tabWf 0 c = true) : tabWf 0 (putBytes c a bs) = true := by
  induction bs generalizing c a with
  | nil => exact h
  | cons b r ih => exact ih _ _ (tabWf_tset 0 c a b h)

/-- Both parts of the store are in canonical form. -/
def Env.canon (e : Env) : Prop := tabWf (0 : Byte) e.cells = true ∧ tabWf false e.marked = true

theorem memory_wf_canon (s : State) : Sys2Proof.Safety.Memory.wf s = true ↔ s.env.canon := memory_wf_iff s

theorem Env.canon_of (e e' : Env) (h : e.canon) (hc : e'.cells = e.cells) (hm : e'.marked = e.marked) : e'.canon := by
  unfold Env.canon; rw [hc, hm]; exact h

theorem Env.putLine_canon (e : Env) (a : Nat) (bs : List Byte) (h : e.canon) : (e.putLine a bs).canon := by
  simp only [Env.canon, Env.putLine]
  exact ⟨putBytes_wf _ _ _ h.1, tabWf_tset _ _ _ _ h.2⟩

theorem Env.clearLines_canon (e : Env) (lo hi : Nat) (h : e.canon) : (e.clearLines lo hi).canon := by
  simp only [Env.canon, Env.clearLines]
  exact ⟨h.1, tabWf_filter _ _ _ h.2⟩

theorem Env.putLines_canon (e : Env) (a : Nat) (l : List (List Byte)) (h : e.canon) : (e.putLines a l).canon := by
  induction l generalizing e a with
  | nil => exact h
  | cons x r ih => exact ih _ _ (e.putLine_canon a x h)

theorem Env.putRound_canon (e : Env) (base size a : Nat) (l : List (List Byte)) (h : e.canon) :
    (e.putRound base size a l).canon := by
  induction l generalizing e a with
  | nil => exact h
  | cons x r ih => exact ih _ _ (e.putLine_canon a x h)

theorem Env.ckWrite_canon (e : Env) (v : Variant) (k gen base : Nat) (l : List (List Byte)) (h : e.canon) :
    (e.ckWrite v k gen base l).canon :=
  Env.putLines_canon _ _ _ (e.clearLines_canon _ _ h)

/-- A fold of operations that keep the form keeps it. -/
theorem Env.foldl_canon {α : Type} (g : Env → α → Env) (hg : ∀ e x, e.canon → (g e x).canon) (l : List α) (e : Env)
    (h : e.canon) : (l.foldl g e).canon := by
  induction l generalizing e with
  | nil => exact h
  | cons x r ih => exact ih _ (hg _ _ h)

theorem Env.retire_canon (e : Env) (v : Variant) (base : Nat) (h : e.canon) : (e.retire v base).canon := by
  refine Env.foldl_canon _ (fun e x h => ?_) _ e h
  dsimp only
  split
  · exact Env.clearLines_canon _ _ _ h
  · exact h

theorem Env.survive_canon (e : Env) (v : Variant) (t : Nat) (h : e.canon) : (e.survive v t).canon := by
  unfold Env.survive
  extract_lets e1 e2
  have h1 : e1.canon := by
    show (match e.writing with
      | some w => if Config.lineSurvives (2 * t) then e.putLine (logAddr v w.line) (recLine e.run w.seq w.rec_) else e
      | none => e).canon
    split
    · split
      · exact Env.putLine_canon _ _ _ h
      · exact h
    · exact h
  have h2 : e2.canon := by
    show (match e.acc with
      | some o => if Config.lineSurvives (2 * t + 1) then e1.putLine o.line o.bytes else e1.clearLines o.line (o.line + 64)
      | none => e1).canon
    split
    · split
      · exact Env.putLine_canon _ _ _ h1
      · exact Env.clearLines_canon _ _ _ h1
    · exact h1
  exact h2

end Sys2Proof.Machine
end

