-- ==== Sys2Proof/Laws/Keep.lean ====
section
/-! SUPPORT. What an operation leaves as it was. `Core` is the queue, the hardware with its fuses, the ENV store, the
    timebase and the
lost islands; `Far` the margin campaign, the configuration status, the pins, the JTAG port, the link tests and the PMBus
    host. Each
shared operation has one such lemma (the files Keep… beside this one), so that a statement about all commands needs none of them
unfolded. -/

open Sys2Proof

namespace Sys2Proof.Machine

/-! ## Choices and folds -/

@[simp] theorem ite_pending (c : Prop) [Decidable c] (a b : State) :
    (if c then a else b).pending = if c then a.pending else b.pending := apply_ite _ _ _ _
@[simp] theorem ite_hw (c : Prop) [Decidable c] (a b : State) :
    (if c then a else b).hw = if c then a.hw else b.hw := apply_ite _ _ _ _
@[simp] theorem ite_cells (c : Prop) [Decidable c] (a b : State) :
    (if c then a else b).env.cells = if c then a.env.cells else b.env.cells := by split <;> rfl
@[simp] theorem ite_marked (c : Prop) [Decidable c] (a b : State) :
    (if c then a else b).env.marked = if c then a.env.marked else b.env.marked := by split <;> rfl
@[simp] theorem ite_tb (c : Prop) [Decidable c] (a b : State) :
    (if c then a else b).sys.tb = if c then a.sys.tb else b.sys.tb := by split <;> rfl
@[simp] theorem ite_lost (c : Prop) [Decidable c] (a b : State) :
    (if c then a else b).sys.lost = if c then a.sys.lost else b.sys.lost := by split <;> rfl
@[simp] theorem ite_camp (c : Prop) [Decidable c] (a b : State) :
    (if c then a else b).camp = if c then a.camp else b.camp := apply_ite _ _ _ _
@[simp] theorem ite_cfg (c : Prop) [Decidable c] (a b : State) :
    (if c then a else b).cfg = if c then a.cfg else b.cfg := apply_ite _ _ _ _
@[simp] theorem ite_gpio (c : Prop) [Decidable c] (a b : State) :
    (if c then a else b).gpio = if c then a.gpio else b.gpio := apply_ite _ _ _ _
@[simp] theorem ite_jtag (c : Prop) [Decidable c] (a b : State) :
    (if c then a else b).jtag = if c then a.jtag else b.jtag := apply_ite _ _ _ _
@[simp] theorem ite_lt (c : Prop) [Decidable c] (a b : State) :
    (if c then a else b).lt = if c then a.lt else b.lt := apply_ite _ _ _ _
@[simp] theorem ite_pmb (c : Prop) [Decidable c] (a b : State) :
    (if c then a else b).pmb = if c then a.pmb else b.pmb := apply_ite _ _ _ _
@[simp] theorem ite_ecells (c : Prop) [Decidable c] (a b : Env) :
    (if c then a else b).cells = if c then a.cells else b.cells := by split <;> rfl
@[simp] theorem ite_emarked (c : Prop) [Decidable c] (a b : Env) :
    (if c then a else b).marked = if c then a.marked else b.marked := by split <;> rfl
theorem foldl_inv {α β γ : Type} (v : β → γ) (g : β → α → β) (h : ∀ s x, v (g s x) = v s) (l : List α) (s : β) :
    v (l.foldl g s) = v s := by
  induction l generalizing s with
  | nil => rfl
  | cons a r ih => rw [List.foldl_cons, ih, h]
theorem foldr_inv {α β γ : Type} (v : β → γ) (g : α → β → β) (h : ∀ x s, v (g x s) = v s) (l : List α) (s : β) :
    v (l.foldr g s) = v s := by
  induction l with
  | nil => rfl
  | cons a r ih => rw [List.foldr_cons, h, ih]
@[simp] theorem foldl_pending {α : Type} (g : State → α → State) (h : ∀ s x, (g s x).pending = s.pending) (l : List α) (s :
    State) :
    (l.foldl g s).pending = s.pending := foldl_inv State.pending g h l s
@[simp] theorem foldr_pending {α : Type} (g : α → State → State) (h : ∀ x s, (g x s).pending = s.pending) (l : List α) (s :
    State) :
    (l.foldr g s).pending = s.pending := foldr_inv State.pending g h l s
@[simp] theorem foldl_hw {α : Type} (g : State → α → State) (h : ∀ s x, (g s x).hw = s.hw) (l : List α) (s : State) :
    (l.foldl g s).hw = s.hw := foldl_inv State.hw g h l s
@[simp] theorem foldr_hw {α : Type} (g : α → State → State) (h : ∀ x s, (g x s).hw = s.hw) (l : List α) (s : State) :
    (l.foldr g s).hw = s.hw := foldr_inv State.hw g h l s
@[simp] theorem foldl_cells {α : Type} (g : State → α → State) (h : ∀ s x, (g s x).env.cells = s.env.cells) (l : List α) (s :
    State) :
    (l.foldl g s).env.cells = s.env.cells := foldl_inv (fun s => s.env.cells) g h l s
@[simp] theorem foldr_cells {α : Type} (g : α → State → State) (h : ∀ x s, (g x s).env.cells = s.env.cells) (l : List α) (s :
    State) :
    (l.foldr g s).env.cells = s.env.cells := foldr_inv (fun s => s.env.cells) g h l s
@[simp] theorem foldl_marked {α : Type} (g : State → α → State) (h : ∀ s x, (g s x).env.marked = s.env.marked) (l : List α)
    (s : State) :
    (l.foldl g s).env.marked = s.env.marked := foldl_inv (fun s => s.env.marked) g h l s
@[simp] theorem foldr_marked {α : Type} (g : α → State → State) (h : ∀ x s, (g x s).env.marked = s.env.marked) (l : List α)
    (s : State) :
    (l.foldr g s).env.marked = s.env.marked := foldr_inv (fun s => s.env.marked) g h l s
@[simp] theorem foldl_tb {α : Type} (g : State → α → State) (h : ∀ s x, (g s x).sys.tb = s.sys.tb) (l : List α) (s : State) :
    (l.foldl g s).sys.tb = s.sys.tb := foldl_inv (fun s => s.sys.tb) g h l s
@[simp] theorem foldr_tb {α : Type} (g : α → State → State) (h : ∀ x s, (g x s).sys.tb = s.sys.tb) (l : List α) (s : State) :
    (l.foldr g s).sys.tb = s.sys.tb := foldr_inv (fun s => s.sys.tb) g h l s
@[simp] theorem foldl_lost {α : Type} (g : State → α → State) (h : ∀ s x, (g s x).sys.lost = s.sys.lost) (l : List α) (s :
    State) :
    (l.foldl g s).sys.lost = s.sys.lost := foldl_inv (fun s => s.sys.lost) g h l s
@[simp] theorem foldr_lost {α : Type} (g : α → State → State) (h : ∀ x s, (g x s).sys.lost = s.sys.lost) (l : List α) (s :
    State) :
    (l.foldr g s).sys.lost = s.sys.lost := foldr_inv (fun s => s.sys.lost) g h l s
@[simp] theorem foldl_camp {α : Type} (g : State → α → State) (h : ∀ s x, (g s x).camp = s.camp) (l : List α) (s : State) :
    (l.foldl g s).camp = s.camp := foldl_inv State.camp g h l s
@[simp] theorem foldr_camp {α : Type} (g : α → State → State) (h : ∀ x s, (g x s).camp = s.camp) (l : List α) (s : State) :
    (l.foldr g s).camp = s.camp := foldr_inv State.camp g h l s
@[simp] theorem foldl_cfg {α : Type} (g : State → α → State) (h : ∀ s x, (g s x).cfg = s.cfg) (l : List α) (s : State) :
    (l.foldl g s).cfg = s.cfg := foldl_inv State.cfg g h l s
@[simp] theorem foldr_cfg {α : Type} (g : α → State → State) (h : ∀ x s, (g x s).cfg = s.cfg) (l : List α) (s : State) :
    (l.foldr g s).cfg = s.cfg := foldr_inv State.cfg g h l s
@[simp] theorem foldl_gpio {α : Type} (g : State → α → State) (h : ∀ s x, (g s x).gpio = s.gpio) (l : List α) (s : State) :
    (l.foldl g s).gpio = s.gpio := foldl_inv State.gpio g h l s
@[simp] theorem foldr_gpio {α : Type} (g : α → State → State) (h : ∀ x s, (g x s).gpio = s.gpio) (l : List α) (s : State) :
    (l.foldr g s).gpio = s.gpio := foldr_inv State.gpio g h l s
@[simp] theorem foldl_jtag {α : Type} (g : State → α → State) (h : ∀ s x, (g s x).jtag = s.jtag) (l : List α) (s : State) :
    (l.foldl g s).jtag = s.jtag := foldl_inv State.jtag g h l s
@[simp] theorem foldr_jtag {α : Type} (g : α → State → State) (h : ∀ x s, (g x s).jtag = s.jtag) (l : List α) (s : State) :
    (l.foldr g s).jtag = s.jtag := foldr_inv State.jtag g h l s
@[simp] theorem foldl_lt {α : Type} (g : State → α → State) (h : ∀ s x, (g s x).lt = s.lt) (l : List α) (s : State) :
    (l.foldl g s).lt = s.lt := foldl_inv State.lt g h l s
@[simp] theorem foldr_lt {α : Type} (g : α → State → State) (h : ∀ x s, (g x s).lt = s.lt) (l : List α) (s : State) :
    (l.foldr g s).lt = s.lt := foldr_inv State.lt g h l s
@[simp] theorem foldl_pmb {α : Type} (g : State → α → State) (h : ∀ s x, (g s x).pmb = s.pmb) (l : List α) (s : State) :
    (l.foldl g s).pmb = s.pmb := foldl_inv State.pmb g h l s
@[simp] theorem foldr_pmb {α : Type} (g : α → State → State) (h : ∀ x s, (g x s).pmb = s.pmb) (l : List α) (s : State) :
    (l.foldr g s).pmb = s.pmb := foldr_inv State.pmb g h l s

/-! ## The canonical form of the ENV store -/

/-- The bytes of the store are in canonical form. -/
def CellsWf (c : Tab Byte) : Prop := tabWf (0 : Byte) c = true
/-- The marker cells are in canonical form. -/
def MarksWf (m : Tab Bool) : Prop := tabWf false m = true
@[simp] theorem CellsWf_ite (c : Prop) [Decidable c] (a b : Tab Byte) : CellsWf (if c then a else b) = if c then CellsWf a
    else CellsWf b := apply_ite _ _ _ _
@[simp] theorem MarksWf_ite (c : Prop) [Decidable c] (a b : Tab Bool) : MarksWf (if c then a else b) = if c then MarksWf a
    else MarksWf b := apply_ite _ _ _ _
@[simp] theorem Env.putLine_wf (e : Env) (a : Nat) (bs : List Byte) (h : CellsWf e.cells) (k : MarksWf e.marked) :
    CellsWf (e.putLine a bs).cells ∧ MarksWf (e.putLine a bs).marked := Env.putLine_canon e a bs ⟨h, k⟩
@[simp] theorem Env.clearLines_wf (e : Env) (a b : Nat) (h : CellsWf e.cells) (k : MarksWf e.marked) :
    CellsWf (e.clearLines a b).cells ∧ MarksWf (e.clearLines a b).marked := Env.clearLines_canon e a b ⟨h, k⟩
@[simp] theorem Env.putRound_wf (e : Env) (a b c : Nat) (l : List (List Byte)) (h : CellsWf e.cells) (k : MarksWf e.marked) :
    CellsWf (e.putRound a b c l).cells ∧ MarksWf (e.putRound a b c l).marked := Env.putRound_canon e a b c l ⟨h, k⟩
@[simp] theorem Env.ckWrite_wf (e : Env) (v : Variant) (a b c : Nat) (l : List (List Byte)) (h : CellsWf e.cells) (k :
    MarksWf e.marked) :
    CellsWf (e.ckWrite v a b c l).cells ∧ MarksWf (e.ckWrite v a b c l).marked := Env.ckWrite_canon e v a b c l ⟨h, k⟩
@[simp] theorem Env.retire_wf (e : Env) (v : Variant) (a : Nat) (h : CellsWf e.cells) (k : MarksWf e.marked) :
    CellsWf (e.retire v a).cells ∧ MarksWf (e.retire v a).marked := Env.retire_canon e v a ⟨h, k⟩
@[simp] theorem Env.survive_wf (e : Env) (v : Variant) (a : Nat) (h : CellsWf e.cells) (k : MarksWf e.marked) :
    CellsWf (e.survive v a).cells ∧ MarksWf (e.survive v a).marked := Env.survive_canon e v a ⟨h, k⟩
/-- Both parts of the ENV store are in canonical form. -/
abbrev StoreWf (s : State) : Prop := CellsWf s.env.cells ∧ MarksWf s.env.marked
@[simp] theorem foldl_wf {α : Type} (g : State → α → State) (l : List α) (s : State) (h1 : CellsWf s.env.cells)
    (h2 : MarksWf s.env.marked) (hg : ∀ t x, CellsWf t.env.cells → MarksWf t.env.marked → StoreWf (g t x)) :
    StoreWf (l.foldl g s) := by
  induction l generalizing s with
  | nil => exact ⟨h1, h2⟩
  | cons a r ih => exact ih _ (hg _ _ h1 h2).1 (hg _ _ h1 h2).2

/-! ## What is kept -/

/-- `t` has the queue, the hardware with its fuses, the ENV store, the timebase and the lost islands of `s`. -/
abbrev Core (t s : State) : Prop :=
  t.pending = s.pending ∧ t.hw = s.hw ∧ t.env.cells = s.env.cells ∧ t.env.marked = s.env.marked ∧ t.sys.tb = s.sys.tb
    ∧ t.sys.lost = s.sys.lost
/-- `t` has the margin campaign, the configuration status, the pins, the JTAG port, the link tests and the PMBus host of `s`. -/
abbrev Far (t s : State) : Prop :=
  t.camp = s.camp ∧ t.cfg = s.cfg ∧ t.gpio = s.gpio ∧ t.jtag = s.jtag ∧ t.lt = s.lt ∧ t.pmb = s.pmb
/-- Both. -/
abbrev Keep (t s : State) : Prop := Core t s ∧ Far t s
/-- `Keep` but for the configuration status. -/
abbrev KeepC (t s : State) : Prop :=
  Core t s ∧ t.camp = s.camp ∧ t.gpio = s.gpio ∧ t.jtag = s.jtag ∧ t.lt = s.lt ∧ t.pmb = s.pmb
theorem KeepC.rfl' (s : State) : KeepC s s := ⟨⟨rfl, rfl, rfl, rfl, rfl, rfl⟩, rfl, rfl, rfl, rfl, rfl⟩
theorem KeepC.trans' (a b c : State) (h : KeepC a b) (k : KeepC b c) : KeepC a c := by
  obtain ⟨⟨h1, h2, h3, h4, h5, h6⟩, h7, h8, h9, h10, h11⟩ := h
  obtain ⟨⟨k1, k2, k3, k4, k5, k6⟩, k7, k8, k9, k10, k11⟩ := k
  exact ⟨⟨h1.trans k1, h2.trans k2, h3.trans k3, h4.trans k4, h5.trans k5, h6.trans k6⟩, h7.trans k7, h8.trans k8, h9.trans k9,
    h10.trans k10, h11.trans k11⟩
theorem Keep.rfl' (s : State) : Keep s s := ⟨⟨rfl, rfl, rfl, rfl, rfl, rfl⟩, rfl, rfl, rfl, rfl, rfl, rfl⟩
theorem Keep.trans' (a b c : State) (h : Keep a b) (k : Keep b c) : Keep a c := by
  obtain ⟨⟨h1, h2, h3, h4, h5, h6⟩, h7, h8, h9, h10, h11, h12⟩ := h
  obtain ⟨⟨k1, k2, k3, k4, k5, k6⟩, k7, k8, k9, k10, k11, k12⟩ := k
  exact ⟨⟨h1.trans k1, h2.trans k2, h3.trans k3, h4.trans k4, h5.trans k5, h6.trans k6⟩, h7.trans k7, h8.trans k8, h9.trans k9,
    h10.trans k10, h11.trans k11, h12.trans k12⟩
theorem Keep.foldl {α : Type} (g : State → α → State) (hg : ∀ s x, Keep (g s x) s) (l : List α) (s : State) :
    Keep (l.foldl g s) s := by
  induction l generalizing s with
  | nil => exact Keep.rfl' _
  | cons a r ih => exact Keep.trans' _ _ _ (ih _) (hg _ _)
theorem foldl_fst {α β : Type} (g : State × β → α → State × β) (P : State → State → Prop) (hr : ∀ s, P s s)
    (ht : ∀ a b c, P a b → P b c → P a c) (h : ∀ s x, P (g s x).1 s.1) (l : List α) (s : State × β) :
    P (l.foldl g s).1 s.1 := by
  induction l generalizing s with
  | nil => exact hr _
  | cons a r ih => exact ht _ _ _ (ih _) (h _ _)

end Sys2Proof.Machine
end

