-- ==== Sys2Proof/Laws/KeepOps.lean ====
section
/-! SUPPORT. What the shared operations of Operands, Flags, Capture and Ops leave as it was (Keep.lean). -/

open Sys2Proof

namespace Sys2Proof.Machine
@[simp] theorem State.modChan_keep (s : State) (n : Nat) (f : Chan → Chan) : Keep (State.modChan s n f) s := by
  simp [Keep, Core, Far, State.modChan]
@[simp] theorem State.byHost_pending (s : State) (a : Nat) (min : Level) (f : Level → State) (h : ∀ l, (f l).pending =
    s.pending) : (State.byHost s a min f).pending = s.pending := by
  unfold State.byHost; split
  · rfl
  · exact h _
@[simp] theorem State.byHost_hw (s : State) (a : Nat) (min : Level) (f : Level → State) (h : ∀ l, (f l).hw = s.hw) :
    (State.byHost s a min f).hw = s.hw := by
  unfold State.byHost; split
  · rfl
  · exact h _
@[simp] theorem State.byHost_cells (s : State) (a : Nat) (min : Level) (f : Level → State) (h : ∀ l, (f l).env.cells =
    s.env.cells) : (State.byHost s a min f).env.cells = s.env.cells := by
  unfold State.byHost; split
  · rfl
  · exact h _
@[simp] theorem State.byHost_marked (s : State) (a : Nat) (min : Level) (f : Level → State) (h : ∀ l, (f l).env.marked
    = s.env.marked) : (State.byHost s a min f).env.marked = s.env.marked := by
  unfold State.byHost; split
  · rfl
  · exact h _
@[simp] theorem State.byHost_tb (s : State) (a : Nat) (min : Level) (f : Level → State) (h : ∀ l, (f l).sys.tb =
    s.sys.tb) : (State.byHost s a min f).sys.tb = s.sys.tb := by
  unfold State.byHost; split
  · rfl
  · exact h _
@[simp] theorem State.byHost_lost (s : State) (a : Nat) (min : Level) (f : Level → State) (h : ∀ l, (f l).sys.lost =
    s.sys.lost) : (State.byHost s a min f).sys.lost = s.sys.lost := by
  unfold State.byHost; split
  · rfl
  · exact h _
@[simp] theorem State.byHost_camp (s : State) (a : Nat) (min : Level) (f : Level → State) (h : ∀ l, (f l).camp =
    s.camp) : (State.byHost s a min f).camp = s.camp := by
  unfold State.byHost; split
  · rfl
  · exact h _
@[simp] theorem State.byHost_cfg (s : State) (a : Nat) (min : Level) (f : Level → State) (h : ∀ l, (f l).cfg = s.cfg)
    : (State.byHost s a min f).cfg = s.cfg := by
  unfold State.byHost; split
  · rfl
  · exact h _
@[simp] theorem State.byHost_gpio (s : State) (a : Nat) (min : Level) (f : Level → State) (h : ∀ l, (f l).gpio =
    s.gpio) : (State.byHost s a min f).gpio = s.gpio := by
  unfold State.byHost; split
  · rfl
  · exact h _
@[simp] theorem State.byHost_jtag (s : State) (a : Nat) (min : Level) (f : Level → State) (h : ∀ l, (f l).jtag =
    s.jtag) : (State.byHost s a min f).jtag = s.jtag := by
  unfold State.byHost; split
  · rfl
  · exact h _
@[simp] theorem State.byHost_lt (s : State) (a : Nat) (min : Level) (f : Level → State) (h : ∀ l, (f l).lt = s.lt) :
    (State.byHost s a min f).lt = s.lt := by
  unfold State.byHost; split
  · rfl
  · exact h _
@[simp] theorem State.byHost_pmb (s : State) (a : Nat) (min : Level) (f : Level → State) (h : ∀ l, (f l).pmb = s.pmb)
    : (State.byHost s a min f).pmb = s.pmb := by
  unfold State.byHost; split
  · rfl
  · exact h _
@[simp] theorem State.byHost_wf (s : State) (a : Nat) (min : Level) (f : Level → State) (h1 : CellsWf s.env.cells) (h2
    : MarksWf s.env.marked) (h : ∀ l, StoreWf (f l)) : StoreWf (State.byHost s a min f) := by
  unfold State.byHost; split
  · exact ⟨h1, h2⟩
  · exact h _
@[simp] theorem State.byReader_pending (s : State) (a : Nat) (f : State) (h : f.pending = s.pending) :
    (s.byReader a f).pending = s.pending := by
  unfold State.byReader; (repeat' split) <;> first | rfl | exact h
@[simp] theorem State.byReader_hw (s : State) (a : Nat) (f : State) (h : f.hw = s.hw) :
    (s.byReader a f).hw = s.hw := by
  unfold State.byReader; (repeat' split) <;> first | rfl | exact h
@[simp] theorem State.byReader_cells (s : State) (a : Nat) (f : State) (h : f.env.cells = s.env.cells) :
    (s.byReader a f).env.cells = s.env.cells := by
  unfold State.byReader; (repeat' split) <;> first | rfl | exact h
@[simp] theorem State.byReader_marked (s : State) (a : Nat) (f : State) (h : f.env.marked = s.env.marked) :
    (s.byReader a f).env.marked = s.env.marked := by
  unfold State.byReader; (repeat' split) <;> first | rfl | exact h
@[simp] theorem State.byReader_tb (s : State) (a : Nat) (f : State) (h : f.sys.tb = s.sys.tb) :
    (s.byReader a f).sys.tb = s.sys.tb := by
  unfold State.byReader; (repeat' split) <;> first | rfl | exact h
@[simp] theorem State.byReader_lost (s : State) (a : Nat) (f : State) (h : f.sys.lost = s.sys.lost) :
    (s.byReader a f).sys.lost = s.sys.lost := by
  unfold State.byReader; (repeat' split) <;> first | rfl | exact h
@[simp] theorem State.byReader_camp (s : State) (a : Nat) (f : State) (h : f.camp = s.camp) :
    (s.byReader a f).camp = s.camp := by
  unfold State.byReader; (repeat' split) <;> first | rfl | exact h
@[simp] theorem State.byReader_cfg (s : State) (a : Nat) (f : State) (h : f.cfg = s.cfg) :
    (s.byReader a f).cfg = s.cfg := by
  unfold State.byReader; (repeat' split) <;> first | rfl | exact h
@[simp] theorem State.byReader_gpio (s : State) (a : Nat) (f : State) (h : f.gpio = s.gpio) :
    (s.byReader a f).gpio = s.gpio := by
  unfold State.byReader; (repeat' split) <;> first | rfl | exact h
@[simp] theorem State.byReader_jtag (s : State) (a : Nat) (f : State) (h : f.jtag = s.jtag) :
    (s.byReader a f).jtag = s.jtag := by
  unfold State.byReader; (repeat' split) <;> first | rfl | exact h
@[simp] theorem State.byReader_lt (s : State) (a : Nat) (f : State) (h : f.lt = s.lt) :
    (s.byReader a f).lt = s.lt := by
  unfold State.byReader; (repeat' split) <;> first | rfl | exact h
@[simp] theorem State.byReader_pmb (s : State) (a : Nat) (f : State) (h : f.pmb = s.pmb) :
    (s.byReader a f).pmb = s.pmb := by
  unfold State.byReader; (repeat' split) <;> first | rfl | exact h
@[simp] theorem State.chTouch_keep (s : State) (n : Nat) : Keep (State.chTouch s n) s := by
  simp [Keep, Core, Far, State.chTouch]
@[simp] theorem State.chHost_pending (s : State) (n ofs : Nat) (min : Level) (f : State → Level → State) (h : ∀ t l,
    (f t l).pending = t.pending) : (State.chHost s n ofs min f).pending = s.pending := by
  unfold State.chHost; apply State.byHost_pending; intro l; split
  · rw [h]; simp
  · rfl
@[simp] theorem State.chHost_hw (s : State) (n ofs : Nat) (min : Level) (f : State → Level → State) (h : ∀ t l, (f t
    l).hw = t.hw) : (State.chHost s n ofs min f).hw = s.hw := by
  unfold State.chHost; apply State.byHost_hw; intro l; split
  · rw [h]; simp
  · rfl
@[simp] theorem State.chHost_cells (s : State) (n ofs : Nat) (min : Level) (f : State → Level → State) (h : ∀ t l, (f
    t l).env.cells = t.env.cells) : (State.chHost s n ofs min f).env.cells = s.env.cells := by
  unfold State.chHost; apply State.byHost_cells; intro l; split
  · rw [h]; simp
  · rfl
@[simp] theorem State.chHost_marked (s : State) (n ofs : Nat) (min : Level) (f : State → Level → State) (h : ∀ t l, (f
    t l).env.marked = t.env.marked) : (State.chHost s n ofs min f).env.marked = s.env.marked := by
  unfold State.chHost; apply State.byHost_marked; intro l; split
  · rw [h]; simp
  · rfl
@[simp] theorem State.chHost_tb (s : State) (n ofs : Nat) (min : Level) (f : State → Level → State) (h : ∀ t l, (f t
    l).sys.tb = t.sys.tb) : (State.chHost s n ofs min f).sys.tb = s.sys.tb := by
  unfold State.chHost; apply State.byHost_tb; intro l; split
  · rw [h]; simp
  · rfl
@[simp] theorem State.chHost_lost (s : State) (n ofs : Nat) (min : Level) (f : State → Level → State) (h : ∀ t l, (f t
    l).sys.lost = t.sys.lost) : (State.chHost s n ofs min f).sys.lost = s.sys.lost := by
  unfold State.chHost; apply State.byHost_lost; intro l; split
  · rw [h]; simp
  · rfl
@[simp] theorem State.chHost_camp (s : State) (n ofs : Nat) (min : Level) (f : State → Level → State) (h : ∀ t l, (f t
    l).camp = t.camp) : (State.chHost s n ofs min f).camp = s.camp := by
  unfold State.chHost; apply State.byHost_camp; intro l; split
  · rw [h]; simp
  · rfl
@[simp] theorem State.chHost_cfg (s : State) (n ofs : Nat) (min : Level) (f : State → Level → State) (h : ∀ t l, (f t
    l).cfg = t.cfg) : (State.chHost s n ofs min f).cfg = s.cfg := by
  unfold State.chHost; apply State.byHost_cfg; intro l; split
  · rw [h]; simp
  · rfl
@[simp] theorem State.chHost_gpio (s : State) (n ofs : Nat) (min : Level) (f : State → Level → State) (h : ∀ t l, (f t
    l).gpio = t.gpio) : (State.chHost s n ofs min f).gpio = s.gpio := by
  unfold State.chHost; apply State.byHost_gpio; intro l; split
  · rw [h]; simp
  · rfl
@[simp] theorem State.chHost_jtag (s : State) (n ofs : Nat) (min : Level) (f : State → Level → State) (h : ∀ t l, (f t
    l).jtag = t.jtag) : (State.chHost s n ofs min f).jtag = s.jtag := by
  unfold State.chHost; apply State.byHost_jtag; intro l; split
  · rw [h]; simp
  · rfl
@[simp] theorem State.chHost_lt (s : State) (n ofs : Nat) (min : Level) (f : State → Level → State) (h : ∀ t l, (f t
    l).lt = t.lt) : (State.chHost s n ofs min f).lt = s.lt := by
  unfold State.chHost; apply State.byHost_lt; intro l; split
  · rw [h]; simp
  · rfl
@[simp] theorem State.chHost_pmb (s : State) (n ofs : Nat) (min : Level) (f : State → Level → State) (h : ∀ t l, (f t
    l).pmb = t.pmb) : (State.chHost s n ofs min f).pmb = s.pmb := by
  unfold State.chHost; apply State.byHost_pmb; intro l; split
  · rw [h]; simp
  · rfl
@[simp] theorem State.chHost_wf (s : State) (n ofs : Nat) (min : Level) (f : State → Level → State) (h1 : CellsWf
    s.env.cells) (h2 : MarksWf s.env.marked) (h : ∀ t l, CellsWf t.env.cells → MarksWf t.env.marked → StoreWf (f t l))
    : StoreWf (State.chHost s n ofs min f) := by
  unfold State.chHost; (repeat' split) <;> simp [StoreWf, h1, h2, h]
@[simp] theorem State.irqSys_keep (s : State) (i : Nat) : Keep (State.irqSys s i) s := by
  simp [Keep, Core, Far, State.irqSys]
@[simp] theorem State.irqSeq_keep (s : State) (i : Nat) : Keep (State.irqSeq s i) s := by
  simp [Keep, Core, Far, State.irqSeq]
@[simp] theorem State.irqSpring_keep (s : State) (i : Nat) : Keep (State.irqSpring s i) s := by
  simp [Keep, Core, Far, State.irqSpring]
@[simp] theorem State.irqHld_keep (s : State) (i : Nat) : Keep (State.irqHld s i) s := by
  simp [Keep, Core, Far, State.irqHld]
@[simp] theorem State.irqFlt_keep (s : State) (i : Nat) : Keep (State.irqFlt s i) s := by
  simp [Keep, Core, Far, State.irqFlt]
@[simp] theorem State.irqWdg_keep (s : State) (i : Nat) : Keep (State.irqWdg s i) s := by
  simp [Keep, Core, Far, State.irqWdg]
@[simp] theorem State.irqEnv_keep (s : State) (i : Nat) : Keep (State.irqEnv s i) s := by
  simp [Keep, Core, Far, State.irqEnv]
@[simp] theorem State.irqBbx_keep (s : State) (i : Nat) : Keep (State.irqBbx s i) s := by
  simp [Keep, Core, Far, State.irqBbx]
@[simp] theorem State.irqCfg_keep (s : State) (i : Nat) : Core (State.irqCfg s i) s ∧ (State.irqCfg s i).camp = s.camp
    ∧ (State.irqCfg s i).gpio = s.gpio ∧ (State.irqCfg s i).jtag = s.jtag ∧ (State.irqCfg s i).lt = s.lt ∧
    (State.irqCfg s i).pmb = s.pmb := by
  simp [Core, State.irqCfg]
@[simp] theorem State.irqCas_keep (s : State) (i : Nat) : Keep (State.irqCas s i) s := by
  simp [Keep, Core, Far, State.irqCas]
@[simp] theorem State.irqLnk_keep (s : State) (i : Nat) : Keep (State.irqLnk s i) s := by
  simp [Keep, Core, Far, State.irqLnk]
@[simp] theorem State.irqSec_keep (s : State) (i : Nat) : Keep (State.irqSec s i) s := by
  simp [Keep, Core, Far, State.irqSec]
@[simp] theorem State.irqPwr_keep (s : State) (i : Nat) : Keep (State.irqPwr s i) s := by
  simp [Keep, Core, Far, State.irqPwr]
@[simp] theorem State.irqGpio_keep (s : State) (i : Nat) : Core (State.irqGpio s i) s ∧ (State.irqGpio s i).camp =
    s.camp ∧ (State.irqGpio s i).cfg = s.cfg ∧ (State.irqGpio s i).jtag = s.jtag ∧ (State.irqGpio s i).lt = s.lt ∧
    (State.irqGpio s i).pmb = s.pmb := by
  simp [Core, State.irqGpio]
@[simp] theorem State.irqCnt_keep (s : State) (i : Nat) : Keep (State.irqCnt s i) s := by
  simp [Keep, Core, Far, State.irqCnt]
@[simp] theorem State.irqCh_keep (s : State) (n i : Nat) : Keep (State.irqCh s n i) s := by
  simp [Keep, Core, Far, State.irqCh]
@[simp] theorem State.irqMh_keep (s : State) (n i : Nat) : Keep (State.irqMh s n i) s := by
  simp [Keep, Core, Far, State.irqMh]
@[simp] theorem State.draw_keep (s : State) (len : Nat) : Keep (State.draw s len).2 s := by
  simp [Keep, Core, Far, State.draw]
@[simp] theorem State.count_keep (s : State) (n e : Nat) : Keep (State.count s n e) s := by
  simp [Keep, Core, Far, State.count]
@[simp] theorem State.tpAdd_keep (s : State) (p bytes frames errs : Nat) : Keep (State.tpAdd s p bytes frames errs) s
    := by
  simp [Keep, Core, Far, State.tpAdd]
@[simp] theorem State.sendTick_keep (s : State) : Keep (State.sendTick s) s := by
  simp [Keep, Core, Far, State.sendTick]
@[simp] theorem State.mcpSend_keep (s : State) (fs : List McpFrame) : Keep (State.mcpSend s fs) s := by
  simp [Keep, Core, Far, State.mcpSend]
@[simp] theorem State.casTo_keep (s : State) (dst : Nat) (f : CasFrame) : Keep (State.casTo s dst f) s := by
  simp [Keep, Core, Far, State.casTo]
@[simp] theorem State.casUp_keep (s : State) (f : CasFrame) : Keep (State.casUp s f) s := by
  simp [Keep, Core, Far, State.casUp]
@[simp] theorem State.casDown_keep (s : State) (f : CasFrame) : Keep (State.casDown s f) s := by
  simp [Keep, Core, Far, State.casDown]
@[simp] theorem State.answer_keep (s : State) (status detail : Nat) (payload : List Byte) : Keep (State.answer s
    status detail payload) s := by
  simp [Keep, Core, Far, State.answer]
@[simp] theorem State.answerOk_keep (s : State) (at_ status detail : Nat) (payload : List Byte) : Keep (State.answerOk
    s at_ status detail payload) s := by
  simp [Keep, Core, Far, State.answerOk]
@[simp] theorem State.bbxTrigger_keep (s : State) (kind src stamp : Nat) : Keep (State.bbxTrigger s kind src stamp) s
    := by
  simp [Keep, Core, Far, State.bbxTrigger]
@[simp] theorem State.countSrc_keep (s : State) (i : Nat) (masked : Bool) : Keep (State.countSrc s i masked) s := by
  simp [Keep, Core, Far, State.countSrc]
@[simp] theorem State.report_keep (s : State) (i stamp : Nat) (inj : Bool) : Keep (State.report s i stamp inj) s := by
  cases inj <;> simp [Keep, Core, Far, State.report]
@[simp] theorem State.reportWire_keep (s : State) (i stamp : Nat) (inj : Bool) : Keep (State.reportWire s i stamp inj)
    s := by
  cases inj <;> simp [Keep, Core, Far, State.reportWire]
@[simp] theorem State.reports_keep (s : State) (l : List Nat) (stamp : Nat) : Keep (State.reports s l stamp) s := by
  simp [Keep, Core, Far, State.reports]
@[simp] theorem Env.grant_keep (e : Env) (v : Variant) (t : Nat) : (Env.grant e v t).cells = e.cells ∧ (Env.grant e v
    t).marked = e.marked := by
  simp [Env.grant]
@[simp] theorem Env.kick_keep (e : Env) (v : Variant) (up : Bool) (now : Nat) : (Env.kick e v up now).cells = e.cells
    ∧ (Env.kick e v up now).marked = e.marked := by
  unfold Env.kick
  split <;> simp
@[simp] theorem State.jrnl_keep (s : State) (r : JRec) : Keep (State.jrnl s r) s := by
  simp [Keep, Core, Far, State.jrnl]
@[simp] theorem State.recordAt_keep (s : State) (cls typ arg stamp queued : Nat) (parts : List (Nat × List Byte)) :
    Keep (State.recordAt s cls typ arg stamp queued parts) s := by
  simp [Keep, Core, Far, State.recordAt]
@[simp] theorem State.record_keep (s : State) (cls typ arg stamp : Nat) (parts : List (Nat × List Byte)) : Keep
    (State.record s cls typ arg stamp parts) s := by
  simp [Keep, Core, Far, State.record]
@[simp] theorem State.privEvent_keep (s : State) (which stamp : Nat) : Keep (State.privEvent s which stamp) s := by
  simp [Keep, Core, Far, State.privEvent]
@[simp] theorem State.rcEdge_keep (s : State) : (State.rcEdge s).pending = s.pending ∧ (State.rcEdge s).hw = s.hw ∧
    (State.rcEdge s).env.cells = s.env.cells ∧ (State.rcEdge s).env.marked = s.env.marked ∧ (State.rcEdge s).sys.lost
    = s.sys.lost ∧ Far (State.rcEdge s) s := by
  simp [Far, State.rcEdge]
@[simp] theorem State.rcEdge_tb (s : State) : s.sys.tb ≤ (State.rcEdge s).sys.tb := by
  simp [State.rcEdge]
@[simp] theorem State.newTick_keep (s : State) : Core (State.newTick s) s ∧ (State.newTick s).camp = s.camp ∧
    (State.newTick s).jtag = s.jtag ∧ (State.newTick s).lt = s.lt ∧ (State.newTick s).pmb = s.pmb := by
  simp [Core, State.newTick]
@[simp] theorem tickPass_keep (s : State) :
    (tickPass s).pending = s.pending ∧ (tickPass s).hw = s.hw ∧ (tickPass s).env.cells = s.env.cells ∧ (tickPass s).env.marked =
    s.env.marked ∧ (tickPass s).sys.lost = s.sys.lost ∧ (tickPass s).camp = s.camp ∧ (tickPass s).jtag = s.jtag ∧
    (tickPass s).lt = s.lt ∧ (tickPass s).pmb = s.pmb := by
  unfold tickPass
  (repeat' split) <;> simp
@[simp] theorem tickPass_tb (s : State) : s.sys.tb ≤ (tickPass s).sys.tb := by
  unfold tickPass
  (repeat' split) <;> simp [State.rcEdge]

end Sys2Proof.Machine
end

