-- ==== Sys2Proof/Laws/KeepRail.lean ====
section
/-! SUPPORT. What holding, rungs, the safe state and rails leave as it was (Keep.lean). -/

open Sys2Proof

namespace Sys2Proof.Machine
@[simp] theorem State.admissionBy_keep (s : State) (mayOpen : Bool) (stamp : Nat) (rejected : List Nat) : Keep
    (State.admissionBy s mayOpen stamp rejected) s := by
  simp [Keep, Core, Far, State.admissionBy]
@[simp] theorem State.admission_keep (s : State) (stamp : Nat) (rejected : List Nat) : Keep (State.admission s stamp
    rejected) s := by
  simp [Keep, Core, Far, State.admission]
@[simp] theorem State.admitTick_keep (s : State) : Keep (State.admitTick s) s := by
  simp [Keep, Core, Far, State.admitTick]
@[simp] theorem State.setCause_keep (s : State) (f : Causes → Causes) : Keep (State.setCause s f) s := by
  simp [Keep, Core, Far, State.setCause]
@[simp] theorem State.drainEnd_keep (s : State) (end_ stamp : Nat) : Keep (State.drainEnd s end_ stamp) s := by
  unfold State.drainEnd
  split <;> simp [Keep, Core, Far]
@[simp] theorem State.drainStart_keep (s : State) (trig stamp : Nat) : Keep (State.drainStart s trig stamp) s := by
  unfold State.drainStart
  split <;> simp [Keep, Core, Far]
@[simp] theorem State.drainFrame_keep (s : State) : Keep (State.drainFrame s) s := by
  unfold State.drainFrame
  split <;> simp [Keep, Core, Far]
@[simp] theorem State.drainTick_keep (s : State) : Keep (State.drainTick s) s := by
  simp [Keep, Core, Far, State.drainTick]
@[simp] theorem State.permits_keep (s : State) : Keep (State.permits s) s := by
  simp [Keep, Core, Far, State.permits]
@[simp] theorem State.permitTick_keep (s : State) : Keep (State.permitTick s) s := by
  simp [Keep, Core, Far, State.permitTick]
@[simp] theorem State.zeroize_keep (s : State) : Keep (State.zeroize s) s := by
  simp [Keep, Core, Far, State.zeroize]
@[simp] theorem State.modPort_keep (s : State) (p : Nat) (f : Port → Port) : Core (State.modPort s p f) s ∧
    (State.modPort s p f).camp = s.camp ∧ (State.modPort s p f).cfg = s.cfg ∧ (State.modPort s p f).jtag = s.jtag ∧
    (State.modPort s p f).lt = s.lt ∧ (State.modPort s p f).pmb = s.pmb := by
  simp [Core, State.modPort]
@[simp] theorem State.parkAll_keep (s : State) : Core (State.parkAll s) s ∧ (State.parkAll s).camp = s.camp ∧
    (State.parkAll s).cfg = s.cfg ∧ (State.parkAll s).jtag = s.jtag ∧ (State.parkAll s).lt = s.lt ∧ (State.parkAll
    s).pmb = s.pmb := by
  simp [Core, State.parkAll]
@[simp] theorem State.wdgMode_keep (s : State) : Keep (State.wdgMode s) s := by
  simp [Keep, Core, Far, State.wdgMode]
@[simp] theorem State.setDbg_keep (s : State) (d : Dbg) : Core (State.setDbg s d) s ∧ (State.setDbg s d).camp = s.camp
    ∧ (State.setDbg s d).cfg = s.cfg ∧ (State.setDbg s d).jtag = s.jtag ∧ (State.setDbg s d).lt = s.lt ∧ (State.setDbg
    s d).pmb = s.pmb := by
  simp [Core, State.setDbg]
@[simp] theorem State.endSession_keep (s : State) : Keep (State.endSession s) s := by
  simp [Keep, Core, Far, State.endSession]
@[simp] theorem State.linkRevert_keep (s : State) (stamp : Nat) : Keep (State.linkRevert s stamp) s := by
  simp [Keep, Core, Far, State.linkRevert]
@[simp] theorem State.mcpGone_keep (s : State) (why stamp : Nat) (quiet : Bool) : Keep (State.mcpGone s why stamp
    quiet) s := by
  simp [Keep, Core, Far, State.mcpGone]
@[simp] theorem State.mcpLost_keep (s : State) (why stamp : Nat) : Keep (State.mcpLost s why stamp) s := by
  simp [Keep, Core, Far, State.mcpLost]
@[simp] theorem State.eqxReply_keep (s : State) (ok : Bool) (why : Nat) : Keep (State.eqxReply s ok why) s := by
  simp [Keep, Core, Far, State.eqxReply]
@[simp] theorem State.dropView_keep (s : State) : Keep (State.dropView s) s := by
  simp [Keep, Core, Far, State.dropView]
@[simp] theorem State.domBegin_keep (fuel p : Nat) (s : State) : Keep (State.domBegin fuel p s) s := by
  induction fuel generalizing p s with
  | zero => simp [Keep, Core, Far, State.domBegin]
  | succ n ih => simp [Keep, Core, Far, State.domBegin, ih]
@[simp] theorem State.domLeave_keep (s : State) (a : Nat) (skip : Bool) : Keep (State.domLeave s a skip) s := by
  unfold State.domLeave
  split <;> simp [Keep, Core, Far]
@[simp] theorem State.upLost_keep (s : State) : Keep (State.upLost s) s := by
  simp [Keep, Core, Far, State.upLost]
@[simp] theorem State.casDisable_keep (s : State) : Keep (State.casDisable s) s := by
  simp [Keep, Core, Far, State.casDisable]
@[simp] theorem State.rungPrepare_keep (s : State) : Core (State.rungPrepare s) s ∧ (State.rungPrepare s).camp =
    s.camp ∧ (State.rungPrepare s).cfg = s.cfg ∧ (State.rungPrepare s).jtag = s.jtag ∧ (State.rungPrepare s).lt = s.lt
    ∧ (State.rungPrepare s).pmb = s.pmb := by
  unfold State.rungPrepare
  split <;> simp [Core]
@[simp] theorem State.rungEnter_keep (s : State) (r : Rung) (asked : Bool) : Keep (State.rungEnter s r asked) s := by
  simp [Keep, Core, Far, State.rungEnter]
@[simp] theorem State.entryYields_keep (s : State) : Keep (State.entryYields s) s := by
  simp [Keep, Core, Far, State.entryYields]
@[simp] theorem State.wakeBy_keep (s : State) (src : Nat) : Keep (State.wakeBy s src) s := by
  simp [Keep, Core, Far, State.wakeBy]
@[simp] theorem State.wakeEvent_keep (s : State) (src : Nat) : Keep (State.wakeEvent s src) s := by
  simp [Keep, Core, Far, State.wakeEvent]
@[simp] theorem State.disAll_keep (s : State) (t : Nat) : Keep (State.disAll s t) s := by
  simp [Keep, Core, Far, State.disAll]
@[simp] theorem State.safeEnter_keep (s : State) (origin stamp : Nat) : Keep (State.safeEnter s origin stamp) s := by
  simp [Keep, Core, Far, State.safeEnter]
@[simp] theorem State.chanEvent_keep (s : State) (src stamp : Nat) (inj : Bool) : Keep (State.chanEvent s src stamp
    inj) s := by
  simp [Keep, Core, Far, State.chanEvent]
@[simp] theorem State.countRecords_keep (s : State) (stamp : Nat) : Keep (State.countRecords s stamp) s := by
  simp [Keep, Core, Far, State.countRecords]
@[simp] theorem State.counts_keep (s : State) (n : Nat) (l : List Nat) : Keep (State.counts s n l) s := by
  simp [Keep, Core, Far, State.counts]
@[simp] theorem State.publish_keep (s : State) (r : Nat) : Keep (State.publish s r) s := by
  simp [Keep, Core, Far, State.publish]
@[simp] theorem State.cmpEvent_keep (s : State) (n : Nat) (k : Cmp) (stamp : Nat) : Keep (State.cmpEvent s n k stamp)
    s := by
  simp [Keep, Core, Far, State.cmpEvent]
@[simp] theorem State.armRaise_keep (s : State) (n : Nat) (k : Cmp) (stamp : Nat) : Keep (State.armRaise s n k stamp)
    s := by
  simp [Keep, Core, Far, State.armRaise]
@[simp] theorem State.armDue_keep (s : State) (n : Nat) : Keep (State.armDue s n) s := by
  unfold State.armDue
  split <;> simp [Keep, Core, Far]
@[simp] theorem State.armMoved_keep (s : State) (n : Nat) (new : RailState) : Keep (State.armMoved s n new) s := by
  simp [Keep, Core, Far, State.armMoved]
@[simp] theorem State.hsTrip_keep (s : State) (stamp : Nat) : Keep (State.hsTrip s stamp) s := by
  simp [Keep, Core, Far, State.hsTrip]
@[simp] theorem State.hsMoved_keep (s : State) (old new : RailState) (stamp : Nat) : Keep (State.hsMoved s old new
    stamp) s := by
  simp [Keep, Core, Far, State.hsMoved]
@[simp] theorem State.moveRail_keep (s : State) (r : Nat) (new : RailState) (cause stamp : Nat) : Keep (State.moveRail
    s r new cause stamp) s := by
  simp [Keep, Core, Far, State.moveRail]
@[simp] theorem State.modRail_keep (s : State) (r : Nat) (f : Rail → Rail) : Keep (State.modRail s r f) s := by
  simp [Keep, Core, Far, State.modRail]
@[simp] theorem State.rollback_keep (s : State) (r why cause stamp : Nat) : Keep (State.rollback s r why cause stamp)
    s := by
  simp [Keep, Core, Far, State.rollback]
@[simp] theorem State.confirm_keep (s : State) (r stamp : Nat) : Keep (State.confirm s r stamp) s := by
  simp [Keep, Core, Far, State.confirm]
@[simp] theorem State.block_keep (s : State) (r ref stamp : Nat) : Keep (State.block s r ref stamp).1 s := by
  unfold State.block
  (repeat' split) <;> simp [Keep, Core, Far]
@[simp] theorem State.spread_keep (stamp fuel : Nat) (q : List Nat) (s : State) : Keep (State.spread stamp fuel q s) s := by
  induction fuel generalizing q s with
  | zero => simp [Keep, Core, Far, State.spread]
  | succ n ih =>
    cases q with
    | nil => simp [Keep, Core, Far, State.spread]
    | cons q r =>
      refine Keep.trans' _ _ _ (ih _ _) ?_
      refine foldl_fst _ Keep Keep.rfl' Keep.trans' ?_ _ (s, [])
      intro a x
      simp [Keep, Core, Far]
@[simp] theorem State.spreadFrom_keep (s : State) (r stamp : Nat) : Keep (State.spreadFrom s r stamp) s := by
  simp [Keep, Core, Far, State.spreadFrom]
@[simp] theorem State.evalRail_keep (s : State) (r stamp : Nat) : Keep (State.evalRail s r stamp) s := by
  simp only [State.evalRail]
  (repeat' split) <;> simp [Keep, Core, Far]
@[simp] theorem State.graphPass_keep (s : State) (stamp : Nat) : Keep (State.graphPass s stamp) s := by
  simp [Keep, Core, Far, State.graphPass]
@[simp] theorem State.advance_keep (s : State) (p stamp : Nat) : Keep (State.advance s p stamp) s := by
  simp [Keep, Core, Far, State.advance]
@[simp] theorem State.setGood_keep (s : State) (r : Nat) (g : Bool) (stamp : Nat) : Keep (State.setGood s r g stamp) s
    := by
  simp only [State.setGood]
  (repeat' split) <;> simp [Keep, Core, Far]
@[simp] theorem State.hsGood_keep (s : State) (stamp : Nat) : Keep (State.hsGood s stamp) s := by
  simp [Keep, Core, Far, State.hsGood]
@[simp] theorem State.stopPass_keep (s : State) (stamp : Nat) : Keep (State.stopPass s stamp) s := by
  simp [Keep, Core, Far, State.stopPass]
@[simp] theorem State.shutRail_keep (s : State) (r src stamp : Nat) : Keep (State.shutRail s r src stamp) s := by
  unfold State.shutRail
  split <;> simp [Keep, Core, Far]
@[simp] theorem State.shutDown_keep (s : State) (rails : Option (List Nat)) (src origin stamp : Nat) (roots : List
    Nat) : Keep (State.shutDown s rails src origin stamp roots) s := by
  simp [Keep, Core, Far, State.shutDown]
@[simp] theorem State.onRail_keep (s : State) (r src stamp : Nat) : Keep (State.onRail s r src stamp) s := by
  simp [Keep, Core, Far, State.onRail]
@[simp] theorem State.onAct_keep (s : State) (src stamp : Nat) (latched : Bool) : Keep (State.onAct s src stamp
    latched) s := by
  simp [Keep, Core, Far, State.onAct]
@[simp] theorem State.onTake_keep (s : State) (src stamp : Nat) (latched : Bool) : Keep (State.onTake s src stamp
    latched) s := by
  simp [Keep, Core, Far, State.onTake]
@[simp] theorem State.onJudge_keep (s : State) (src stamp : Nat) (latched : Bool) : Keep (State.onJudge s src stamp
    latched) s := by
  simp [Keep, Core, Far, State.onJudge]
@[simp] theorem State.onReq_keep (s : State) (src stamp : Nat) (latched : Bool) : Keep (State.onReq s src stamp
    latched) s := by
  simp [Keep, Core, Far, State.onReq]
@[simp] theorem State.onResume_keep (s : State) : Keep (State.onResume s) s := by
  simp [Keep, Core, Far, State.onResume]
@[simp] theorem State.onLast_keep (s : State) : Keep (State.onLast s) s := by
  simp [Keep, Core, Far, State.onLast]
@[simp] theorem State.lossRung_keep (s : State) : Keep (State.lossRung s) s := by
  unfold State.lossRung
  (repeat' split) <;> simp [Keep, Core, Far]
@[simp] theorem State.seqChange_keep (s : State) (stamp : Nat) : Keep (State.seqChange s stamp) s := by
  simp [Keep, Core, Far, State.seqChange]
@[simp] theorem State.isolationEnd_keep (s : State) : Keep (State.isolationEnd s) s := by
  simp [Keep, Core, Far, State.isolationEnd]
@[simp] theorem State.resetDrive_keep (s : State) (stamp : Nat) : Keep (State.resetDrive s stamp) s := by
  simp [Keep, Core, Far, State.resetDrive]
@[simp] theorem State.brkArmed_keep (s : State) (stamp : Nat) : Keep (State.brkArmed s stamp) s := by
  simp [Keep, Core, Far, State.brkArmed]
@[simp] theorem State.settle_keep (s : State) (stamp : Nat) : Keep (State.settle s stamp) s := by
  simp [Keep, Core, Far, State.settle]
@[simp] theorem State.ffReact_keep (s : State) (src code t : Nat) : Keep (State.ffReact s src code t) s := by
  simp [Keep, Core, Far, State.ffReact]
@[simp] theorem State.ffEarly_keep (s : State) (src t : Nat) : Keep (State.ffEarly s src t) s := by
  exact Keep.trans' _ { s with flt := { s.flt with early := [] } } _
    (Keep.foldl (fun s (e : Nat × Nat × Nat) => s.ffReact e.1 e.2.1 e.2.2) (fun t e => State.ffReact_keep t e.1 e.2.1 e.2.2) _ _)
    (by simp [Keep, Core, Far])
@[simp] theorem State.latchFirst_keep (s : State) : Keep (State.latchFirst s) s := by
  unfold State.latchFirst
  (repeat' split) <;> simp [Keep, Core, Far]
@[simp] theorem State.wdgExpire_keep (s : State) (t : Nat) : Keep (State.wdgExpire s t) s := by
  simp [Keep, Core, Far, State.wdgExpire]
@[simp] theorem State.wdgRefuse_keep (s : State) (c : Nat) : Keep (State.wdgRefuse s c) s := by
  simp [Keep, Core, Far, State.wdgRefuse]
@[simp] theorem State.keyEnds_keep (s : State) : Keep (State.keyEnds s) s := by
  unfold State.keyEnds
  split <;> simp [Keep, Core, Far]
@[simp] theorem State.noteReact_keep (s : State) (d : Due) (exh : Bool) (t : Nat) : Keep (State.noteReact s d exh t) s
    := by
  simp [Keep, Core, Far, State.noteReact]
@[simp] theorem State.carryOut_keep (s : State) (ds : List Due) (t : Nat) : Keep (State.carryOut s ds t) s := by
  unfold State.carryOut
  (repeat' split) <;> simp [Keep, Core, Far]
@[simp] theorem State.react_keep (s : State) (ds : List Due) (t : Nat) : Keep (State.react s ds t) s := by
  simp [Keep, Core, Far, State.react]
@[simp] theorem State.graceAt_keep (s : State) (t : Nat) : Keep (State.graceAt s t) s := by
  simp [Keep, Core, Far, State.graceAt]

end Sys2Proof.Machine
end

