-- ==== Sys2Proof/Laws/KeepChannel.lean ====
section
/-! SUPPORT. What sequencing, buses, margining, channels, hot-swap and the media link leave as it was (Keep.lean). -/

open Sys2Proof

namespace Sys2Proof.Machine
@[simp] theorem State.railDue_keep (s : State) (r t : Nat) : Keep (State.railDue s r t) s := by
  simp [Keep, Core, Far, State.railDue]
@[simp] theorem State.qualEnds_keep (s : State) (r t : Nat) : Keep (State.qualEnds s r t) s := by
  simp [Keep, Core, Far, State.qualEnds]
@[simp] theorem State.startEnds_keep (s : State) (r t : Nat) : Keep (State.startEnds s r t) s := by
  simp [Keep, Core, Far, State.startEnds]
@[simp] theorem State.dglEnds_keep (s : State) (n t : Nat) : Keep (State.dglEnds s n t) s := by
  simp [Keep, Core, Far, State.dglEnds]
@[simp] theorem State.retryFails_keep (s : State) (r t : Nat) : Keep (State.retryFails s r t) s := by
  simp [Keep, Core, Far, State.retryFails]
@[simp] theorem State.disEnds_keep (s : State) (n t : Nat) : Keep (State.disEnds s n t) s := by
  simp [Keep, Core, Far, State.disEnds]
@[simp] theorem State.retryEnds_keep (s : State) (n t : Nat) : Keep (State.retryEnds s n t) s := by
  simp [Keep, Core, Far, State.retryEnds]
@[simp] theorem State.specEnds_keep (s : State) (n t : Nat) : Keep (State.specEnds s n t) s := by
  simp [Keep, Core, Far, State.specEnds]
@[simp] theorem State.hsLossEnds_keep (s : State) (t : Nat) : Keep (State.hsLossEnds s t) s := by
  simp [Keep, Core, Far, State.hsLossEnds]
@[simp] theorem State.orphanEnds_keep (s : State) (t : Nat) : Keep (State.orphanEnds s t) s := by
  simp [Keep, Core, Far, State.orphanEnds]
@[simp] theorem State.domOffAt_keep (s : State) (t : Nat) : Keep (State.domOffAt s t) s := by
  simp [Keep, Core, Far, State.domOffAt]
@[simp] theorem State.domOnAt_keep (s : State) (t : Nat) : Keep (State.domOnAt s t) s := by
  simp [Keep, Core, Far, State.domOnAt]
@[simp] theorem State.latchedOn_keep (s : State) (t : Nat) : Keep (State.latchedOn s t) s := by
  unfold State.latchedOn
  split <;> simp [Keep, Core, Far]
@[simp] theorem State.holdEnds_keep (s : State) (n : Nat) (k : Cmp) : Keep (State.holdEnds s n k) s := by
  simp only [State.holdEnds]
  (repeat' split) <;> simp [Keep, Core, Far]
@[simp] theorem State.holdsEnd_keep (s : State) (n : Nat) : Keep (State.holdsEnd s n) s := by
  simp [Keep, Core, Far, State.holdsEnd]
@[simp] theorem State.blankEnds_keep (s : State) (n t : Nat) : Keep (State.blankEnds s n t) s := by
  unfold State.blankEnds
  simp [Keep, Core, Far]
@[simp] theorem State.doItem_keep (s : State) (k : SeqItem) (r t : Nat) : Keep (State.doItem s k r t) s := by
  unfold State.doItem
  split <;> simp [Keep, Core, Far]
@[simp] theorem State.settleTo_keep (s : State) (t : Nat) : Keep (State.settleTo s t) s := by
  simp [Keep, Core, Far, State.settleTo]
@[simp] theorem State.runItem_keep (s : State) (k : SeqItem) (r t : Nat) : Keep (State.runItem s k r t) s := by
  simp [Keep, Core, Far, State.runItem]
@[simp] theorem State.catchUp_keep (t k fuel : Nat) (s : State) : Keep (State.catchUp t k fuel s) s := by
  induction fuel generalizing s with
  | zero => simp [Keep, Core, Far, State.catchUp]
  | succ n ih => unfold State.catchUp; split <;> simp [Keep, Core, Far, ih]
@[simp] theorem State.upTo_keep (s : State) (t k : Nat) : Keep (State.upTo s t k) s := by
  simp [Keep, Core, Far, State.upTo]
@[simp] theorem State.prior_keep (s : State) : Keep (State.prior s) s := by
  simp [Keep, Core, Far, State.prior]
@[simp] theorem State.rowEnds_keep (s : State) (k : SeqItem) (r : Nat) : Keep (State.rowEnds s k r) s := by
  unfold State.rowEnds
  split <;> simp [Keep, Core, Far]
@[simp] theorem State.itemNow_keep (s : State) (k : SeqItem) (r : Nat) : Keep (State.itemNow s k r) s := by
  unfold State.itemNow
  split <;> simp [Keep, Core, Far]
@[simp] theorem State.seqCtl_keep (s : State) (l : Level) (on off : Bool) : Keep (State.seqCtl s l on off) s := by
  simp [Keep, Core, Far, State.seqCtl]
@[simp] theorem State.tlogRead_keep (s : State) : Keep (State.tlogRead s) s := by
  unfold State.tlogRead
  split <;> simp [Keep, Core, Far]
@[simp] theorem State.tlogClr_keep (s : State) : Keep (State.tlogClr s) s := by
  simp [Keep, Core, Far, State.tlogClr]
@[simp] theorem State.springCtl_keep (s : State) (l : Level) (dis : Bool) : Keep (State.springCtl s l dis) s := by
  simp [Keep, Core, Far, State.springCtl]
@[simp] theorem State.pmbOk_keep (s : State) (t : PmbTxn) (data : Nat) : Core (State.pmbOk s t data) s ∧ (State.pmbOk
    s t data).camp = s.camp ∧ (State.pmbOk s t data).cfg = s.cfg ∧ (State.pmbOk s t data).gpio = s.gpio ∧ (State.pmbOk
    s t data).jtag = s.jtag ∧ (State.pmbOk s t data).lt = s.lt := by
  unfold State.pmbOk
  split <;> simp [Core]
@[simp] theorem State.pmbGiveUp_keep (s : State) (t : PmbTxn) (why : Nat) : Core (State.pmbGiveUp s t why) s ∧
    (State.pmbGiveUp s t why).camp = s.camp ∧ (State.pmbGiveUp s t why).cfg = s.cfg ∧ (State.pmbGiveUp s t why).gpio =
    s.gpio ∧ (State.pmbGiveUp s t why).jtag = s.jtag ∧ (State.pmbGiveUp s t why).lt = s.lt := by
  unfold State.pmbGiveUp
  split <;> simp [Core]
@[simp] theorem State.pmbFail_keep (s : State) (why : Nat) : Core (State.pmbFail s why) s ∧ (State.pmbFail s why).camp
    = s.camp ∧ (State.pmbFail s why).cfg = s.cfg ∧ (State.pmbFail s why).gpio = s.gpio ∧ (State.pmbFail s why).jtag =
    s.jtag ∧ (State.pmbFail s why).lt = s.lt := by
  unfold State.pmbFail
  split <;> simp [Core]
@[simp] theorem State.pmbEnds_keep (s : State) (res : PmbEnd) (data : Nat) : Core (State.pmbEnds s res data) s ∧
    (State.pmbEnds s res data).camp = s.camp ∧ (State.pmbEnds s res data).cfg = s.cfg ∧ (State.pmbEnds s res
    data).gpio = s.gpio ∧ (State.pmbEnds s res data).jtag = s.jtag ∧ (State.pmbEnds s res data).lt = s.lt := by
  unfold State.pmbEnds
  (repeat' split) <;> simp [Core]
@[simp] theorem State.pmbAgain_keep (s : State) : Core (State.pmbAgain s) s ∧ (State.pmbAgain s).camp = s.camp ∧
    (State.pmbAgain s).cfg = s.cfg ∧ (State.pmbAgain s).gpio = s.gpio ∧ (State.pmbAgain s).jtag = s.jtag ∧
    (State.pmbAgain s).lt = s.lt := by
  unfold State.pmbAgain
  split <;> simp [Core]
@[simp] theorem State.pmbPoll_keep (s : State) (n : Nat) : Core (State.pmbPoll s n) s ∧ (State.pmbPoll s n).camp =
    s.camp ∧ (State.pmbPoll s n).cfg = s.cfg ∧ (State.pmbPoll s n).gpio = s.gpio ∧ (State.pmbPoll s n).jtag = s.jtag ∧
    (State.pmbPoll s n).lt = s.lt := by
  simp only [State.pmbPoll]
  (repeat' split) <;> simp [Core]
@[simp] theorem State.pmbGo_keep (s : State) (l : Level) (dev cmd : Nat) : Core (State.pmbGo s l dev cmd) s ∧
    (State.pmbGo s l dev cmd).camp = s.camp ∧ (State.pmbGo s l dev cmd).cfg = s.cfg ∧ (State.pmbGo s l dev cmd).gpio =
    s.gpio ∧ (State.pmbGo s l dev cmd).jtag = s.jtag ∧ (State.pmbGo s l dev cmd).lt = s.lt := by
  simp [Core, State.pmbGo]
@[simp] theorem State.mgnReturn_keep (s : State) (n code stamp : Nat) : Core (State.mgnReturn s n code stamp) s ∧
    (State.mgnReturn s n code stamp).camp = s.camp ∧ (State.mgnReturn s n code stamp).cfg = s.cfg ∧ (State.mgnReturn s
    n code stamp).gpio = s.gpio ∧ (State.mgnReturn s n code stamp).jtag = s.jtag ∧ (State.mgnReturn s n code stamp).lt
    = s.lt := by
  simp [Core, State.mgnReturn]
@[simp] theorem State.marginLimit_keep (s : State) (n stamp : Nat) : Core (State.marginLimit s n stamp) s ∧
    (State.marginLimit s n stamp).camp = s.camp ∧ (State.marginLimit s n stamp).cfg = s.cfg ∧ (State.marginLimit s n
    stamp).gpio = s.gpio ∧ (State.marginLimit s n stamp).jtag = s.jtag ∧ (State.marginLimit s n stamp).lt = s.lt := by
  simp [Core, State.marginLimit]
@[simp] theorem State.leaveSummer_keep (s : State) (stamp : Nat) : Core (State.leaveSummer s stamp) s ∧
    (State.leaveSummer s stamp).camp = s.camp ∧ (State.leaveSummer s stamp).cfg = s.cfg ∧ (State.leaveSummer s
    stamp).gpio = s.gpio ∧ (State.leaveSummer s stamp).jtag = s.jtag ∧ (State.leaveSummer s stamp).lt = s.lt := by
  simp [Core, State.leaveSummer]
@[simp] theorem State.mgnAct_keep (s : State) (n cmd : Nat) (pct code : Int) (stamp : Nat) : Core (State.mgnAct s n
    cmd pct code stamp) s ∧ (State.mgnAct s n cmd pct code stamp).camp = s.camp ∧ (State.mgnAct s n cmd pct code
    stamp).cfg = s.cfg ∧ (State.mgnAct s n cmd pct code stamp).gpio = s.gpio ∧ (State.mgnAct s n cmd pct code
    stamp).jtag = s.jtag ∧ (State.mgnAct s n cmd pct code stamp).lt = s.lt := by
  unfold State.mgnAct
  split <;> simp [Core]
@[simp] theorem State.mgnReq_keep (s : State) (n cmd : Nat) (pct code : Int) (l : Level) : Core (State.mgnReq s n cmd
    pct code l) s ∧ (State.mgnReq s n cmd pct code l).camp = s.camp ∧ (State.mgnReq s n cmd pct code l).cfg = s.cfg ∧
    (State.mgnReq s n cmd pct code l).gpio = s.gpio ∧ (State.mgnReq s n cmd pct code l).jtag = s.jtag ∧ (State.mgnReq
    s n cmd pct code l).lt = s.lt := by
  unfold State.mgnReq
  (repeat' split) <;> simp [Core]
@[simp] theorem State.mgnWrite_keep (s : State) (n cmd : Nat) (pct code : Int) : Core (State.mgnWrite s n cmd pct
    code) s ∧ (State.mgnWrite s n cmd pct code).camp = s.camp ∧ (State.mgnWrite s n cmd pct code).cfg = s.cfg ∧
    (State.mgnWrite s n cmd pct code).gpio = s.gpio ∧ (State.mgnWrite s n cmd pct code).jtag = s.jtag ∧
    (State.mgnWrite s n cmd pct code).lt = s.lt := by
  simp [Core, State.mgnWrite]
@[simp] theorem State.servo_keep (s : State) (n t : Nat) : Core (State.servo s n t) s ∧ (State.servo s n t).camp =
    s.camp ∧ (State.servo s n t).cfg = s.cfg ∧ (State.servo s n t).gpio = s.gpio ∧ (State.servo s n t).jtag = s.jtag ∧
    (State.servo s n t).lt = s.lt := by
  simp [Core, State.servo]
@[simp] theorem State.servoDue_keep (s : State) (n : Nat) : Core (State.servoDue s n) s ∧ (State.servoDue s n).camp =
    s.camp ∧ (State.servoDue s n).cfg = s.cfg ∧ (State.servoDue s n).gpio = s.gpio ∧ (State.servoDue s n).jtag =
    s.jtag ∧ (State.servoDue s n).lt = s.lt := by
  simp [Core, State.servoDue]
@[simp] theorem State.walkDue_keep (s : State) (n : Nat) : Keep (State.walkDue s n) s := by
  simp [Keep, Core, Far, State.walkDue]
@[simp] theorem State.campIssue_keep (s : State) (corner tick : Nat) (abort : Bool) : Core (State.campIssue s corner
    tick abort) s ∧ (State.campIssue s corner tick abort).cfg = s.cfg ∧ (State.campIssue s corner tick abort).gpio =
    s.gpio ∧ (State.campIssue s corner tick abort).jtag = s.jtag ∧ (State.campIssue s corner tick abort).lt = s.lt ∧
    (State.campIssue s corner tick abort).pmb = s.pmb := by
  simp [Core, State.campIssue]
@[simp] theorem State.campGo_keep (s : State) (corner : Nat) (abort : Bool) : Core (State.campGo s corner abort) s ∧
    (State.campGo s corner abort).cfg = s.cfg ∧ (State.campGo s corner abort).gpio = s.gpio ∧ (State.campGo s corner
    abort).jtag = s.jtag ∧ (State.campGo s corner abort).lt = s.lt ∧ (State.campGo s corner abort).pmb = s.pmb := by
  simp [Core, State.campGo]
@[simp] theorem State.cornerOn_keep (s : State) (corner t n : Nat) : Core (State.cornerOn s corner t n) s ∧
    (State.cornerOn s corner t n).camp = s.camp ∧ (State.cornerOn s corner t n).cfg = s.cfg ∧ (State.cornerOn s corner
    t n).gpio = s.gpio ∧ (State.cornerOn s corner t n).jtag = s.jtag ∧ (State.cornerOn s corner t n).lt = s.lt := by
  simp [Core, State.cornerOn]
@[simp] theorem State.cornerTick_keep (s : State) : Core (State.cornerTick s) s ∧ (State.cornerTick s).cfg = s.cfg ∧
    (State.cornerTick s).gpio = s.gpio ∧ (State.cornerTick s).jtag = s.jtag ∧ (State.cornerTick s).lt = s.lt := by
  unfold State.cornerTick
  split <;> simp [Core]
@[simp] theorem State.campCount_keep (s : State) (org : Nat) (fail : Bool) (rail why stamp : Nat) : Core
    (State.campCount s org fail rail why stamp) s ∧ (State.campCount s org fail rail why stamp).cfg = s.cfg ∧
    (State.campCount s org fail rail why stamp).gpio = s.gpio ∧ (State.campCount s org fail rail why stamp).jtag =
    s.jtag ∧ (State.campCount s org fail rail why stamp).lt = s.lt ∧ (State.campCount s org fail rail why stamp).pmb =
    s.pmb := by
  simp [Core, State.campCount]
@[simp] theorem State.campReport_keep (s : State) : Core (State.campReport s) s ∧ (State.campReport s).cfg = s.cfg ∧
    (State.campReport s).gpio = s.gpio ∧ (State.campReport s).jtag = s.jtag ∧ (State.campReport s).lt = s.lt ∧
    (State.campReport s).pmb = s.pmb := by
  unfold State.campReport
  split <;> simp [Core]
@[simp] theorem State.modPrb_keep (s : State) (n : Nat) (f : Probe → Probe) : Keep (State.modPrb s n f) s := by
  simp [Keep, Core, Far, State.modPrb]
@[simp] theorem State.prbReq_keep (s : State) (n : Nat) (l : Level) : Keep (State.prbReq s n l) s := by
  unfold State.prbReq
  (repeat' split) <;> simp [Keep, Core, Far]
@[simp] theorem State.prbReset_keep (s : State) (n : Nat) (l : Level) : Keep (State.prbReset s n l) s := by
  simp [Keep, Core, Far, State.prbReset]
@[simp] theorem State.prbDue_keep (s : State) (n : Nat) : Keep (State.prbDue s n) s := by
  simp [Keep, Core, Far, State.prbDue]
@[simp] theorem State.prbStart_keep (s : State) : Keep (State.prbStart s) s := by
  unfold State.prbStart
  (repeat' split) <;> simp [Keep, Core, Far]
@[simp] theorem State.prbStep_keep (s : State) : Keep (State.prbStep s) s := by
  unfold State.prbStep
  split <;> simp [Keep, Core, Far]
@[simp] theorem State.prbReturn_keep (s : State) : Keep (State.prbReturn s) s := by
  unfold State.prbReturn
  split <;> simp [Keep, Core, Far]
@[simp] theorem State.prbFit_keep (s : State) (wn zeta qeff fitQ : Nat) : Keep (State.prbFit s wn zeta qeff fitQ) s :=
    by
  unfold State.prbFit
  split <;> simp [Keep, Core, Far]
@[simp] theorem State.leaderLost_keep (s : State) (a : Nat) : Core (State.leaderLost s a) s ∧ (State.leaderLost s
    a).cfg = s.cfg ∧ (State.leaderLost s a).gpio = s.gpio ∧ (State.leaderLost s a).jtag = s.jtag ∧ (State.leaderLost s
    a).lt = s.lt ∧ (State.leaderLost s a).pmb = s.pmb := by
  simp [Core, State.leaderLost]
@[simp] theorem State.leaderLostAll_keep (s : State) (l : List Nat) : Core (State.leaderLostAll s l) s ∧
    (State.leaderLostAll s l).cfg = s.cfg ∧ (State.leaderLostAll s l).gpio = s.gpio ∧ (State.leaderLostAll s l).jtag =
    s.jtag ∧ (State.leaderLostAll s l).lt = s.lt ∧ (State.leaderLostAll s l).pmb = s.pmb := by
  simp [Core, State.leaderLostAll]
@[simp] theorem State.subtreeLost_keep (s : State) (p : Nat) : Core (State.subtreeLost s p) s ∧ (State.subtreeLost s
    p).cfg = s.cfg ∧ (State.subtreeLost s p).gpio = s.gpio ∧ (State.subtreeLost s p).jtag = s.jtag ∧
    (State.subtreeLost s p).lt = s.lt ∧ (State.subtreeLost s p).pmb = s.pmb := by
  simp [Core, State.subtreeLost]
@[simp] theorem State.portsLost_keep (s : State) (p : Nat → Bool) : Core (State.portsLost s p) s ∧ (State.portsLost s
    p).cfg = s.cfg ∧ (State.portsLost s p).gpio = s.gpio ∧ (State.portsLost s p).jtag = s.jtag ∧ (State.portsLost s
    p).lt = s.lt ∧ (State.portsLost s p).pmb = s.pmb := by
  simp [Core, State.portsLost]
@[simp] theorem State.cmpTrip_keep (s : State) (n : Nat) (k : Cmp) (level held : Nat) : Keep (State.cmpTrip s n k
    level held) s := by
  simp [Keep, Core, Far, State.cmpTrip]
@[simp] theorem State.cmpRelease_keep (s : State) (n : Nat) (k : Cmp) (level : Nat) : Keep (State.cmpRelease s n k
    level) s := by
  simp [Keep, Core, Far, State.cmpRelease]
@[simp] theorem State.takeSample_keep (s : State) (n v i : Nat) : Keep (State.takeSample s n v i) s := by
  simp [Keep, Core, Far, State.takeSample]
@[simp] theorem State.goodUpd_keep (s : State) (n stamp : Nat) : Keep (State.goodUpd s n stamp) s := by
  simp [Keep, Core, Far, State.goodUpd]
@[simp] theorem State.bandCheck_keep (s : State) (n v stamp : Nat) : Core (State.bandCheck s n v stamp) s ∧
    (State.bandCheck s n v stamp).camp = s.camp ∧ (State.bandCheck s n v stamp).cfg = s.cfg ∧ (State.bandCheck s n v
    stamp).gpio = s.gpio ∧ (State.bandCheck s n v stamp).jtag = s.jtag ∧ (State.bandCheck s n v stamp).lt = s.lt := by
  simp [Core, State.bandCheck]
@[simp] theorem State.belowDis_keep (s : State) (n stamp : Nat) : Keep (State.belowDis s n stamp) s := by
  unfold State.belowDis
  split <;> simp [Keep, Core, Far]
@[simp] theorem State.springTry_keep (s : State) (r stamp : Nat) : Keep (State.springTry s r stamp) s := by
  simp [Keep, Core, Far, State.springTry]
@[simp] theorem State.springPass_keep (s : State) : Keep (State.springPass s) s := by
  simp [Keep, Core, Far, State.springPass]
@[simp] theorem State.chanSample_keep (s : State) (n v i : Nat) : Core (State.chanSample s n v i) s ∧
    (State.chanSample s n v i).camp = s.camp ∧ (State.chanSample s n v i).cfg = s.cfg ∧ (State.chanSample s n v
    i).gpio = s.gpio ∧ (State.chanSample s n v i).jtag = s.jtag ∧ (State.chanSample s n v i).lt = s.lt := by
  simp [Core, State.chanSample]
@[simp] theorem State.pgChange_keep (s : State) (n : Nat) (level : Bool) : Keep (State.pgChange s n level) s := by
  simp [Keep, Core, Far, State.pgChange]
@[simp] theorem State.stageThr_keep (s : State) (n reg : Nat) (w : Word) : Keep (State.stageThr s n reg w) s := by
  simp [Keep, Core, Far, State.stageThr]
@[simp] theorem State.chApply_keep (s : State) (n : Nat) : Keep (State.chApply s n) s := by
  simp [Keep, Core, Far, State.chApply]
@[simp] theorem State.chApplyServo_keep (s : State) (n : Nat) : Core (State.chApplyServo s n) s ∧ (State.chApplyServo
    s n).camp = s.camp ∧ (State.chApplyServo s n).cfg = s.cfg ∧ (State.chApplyServo s n).gpio = s.gpio ∧
    (State.chApplyServo s n).jtag = s.jtag ∧ (State.chApplyServo s n).lt = s.lt := by
  simp [Core, State.chApplyServo]
@[simp] theorem State.chDiscard_keep (s : State) (n : Nat) : Keep (State.chDiscard s n) s := by
  simp [Keep, Core, Far, State.chDiscard]
@[simp] theorem State.chLock_keep (s : State) (n key : Nat) : Keep (State.chLock s n key) s := by
  simp [Keep, Core, Far, State.chLock]
@[simp] theorem State.energy_keep (s : State) (h : Nat) : Keep (State.energy s h) s := by
  simp [Keep, Core, Far, State.energy]
@[simp] theorem State.floorCheck_keep (s : State) (h : Nat) : Keep (State.floorCheck s h) s := by
  simp [Keep, Core, Far, State.floorCheck]
@[simp] theorem State.capClose_keep (s : State) (out c stamp : Nat) : Keep (State.capClose s out c stamp) s := by
  simp [Keep, Core, Far, State.capClose]
@[simp] theorem State.capSample_keep (s : State) (h stamp : Nat) : Keep (State.capSample s h stamp) s := by
  simp only [State.capSample]
  (repeat' split) <;> simp [Keep, Core, Far]
@[simp] theorem State.hvsSample_keep (s : State) (k code : Nat) : Keep (State.hvsSample s k code) s := by
  simp [Keep, Core, Far, State.hvsSample]
@[simp] theorem State.senseSample_keep (s : State) (code : Nat) : Keep (State.senseSample s code) s := by
  simp [Keep, Core, Far, State.senseSample]
@[simp] theorem State.brkRise_keep (s : State) (held : Nat) : Keep (State.brkRise s held) s := by
  simp [Keep, Core, Far, State.brkRise]
@[simp] theorem State.gateUp_keep (s : State) : Keep (State.gateUp s) s := by
  simp [Keep, Core, Far, State.gateUp]
@[simp] theorem State.vinLost_keep (s : State) : Keep (State.vinLost s) s := by
  simp [Keep, Core, Far, State.vinLost]
@[simp] theorem State.vinBack_keep (s : State) : Keep (State.vinBack s) s := by
  simp [Keep, Core, Far, State.vinBack]
@[simp] theorem State.nakCheck_keep (s : State) (stamp : Nat) : Keep (State.nakCheck s stamp) s := by
  simp [Keep, Core, Far, State.nakCheck]
@[simp] theorem State.blockTimeout_keep (s : State) (blk : Nat) : Keep (State.blockTimeout s blk) s := by
  simp [Keep, Core, Far, State.blockTimeout]
@[simp] theorem State.stray_keep (s : State) (len : Nat) : Keep (State.stray s len) s := by
  simp [Keep, Core, Far, State.stray]
@[simp] theorem State.blockOver_keep (s : State) (blk : Nat) : Keep (State.blockOver s blk) s := by
  simp [Keep, Core, Far, State.blockOver]
@[simp] theorem State.arrive_pending (s : State) (blk len : Nat) (f : State → State) (h : ∀ t, (f t).pending =
    t.pending) : (State.arrive s blk len f).pending = s.pending := by
  unfold State.arrive; dsimp only
  (repeat' split) <;> simp [h]
@[simp] theorem State.arrive_hw (s : State) (blk len : Nat) (f : State → State) (h : ∀ t, (f t).hw = t.hw) :
    (State.arrive s blk len f).hw = s.hw := by
  unfold State.arrive; dsimp only
  (repeat' split) <;> simp [h]
@[simp] theorem State.arrive_cells (s : State) (blk len : Nat) (f : State → State) (h : ∀ t, (f t).env.cells =
    t.env.cells) : (State.arrive s blk len f).env.cells = s.env.cells := by
  unfold State.arrive; dsimp only
  (repeat' split) <;> simp [h]
@[simp] theorem State.arrive_marked (s : State) (blk len : Nat) (f : State → State) (h : ∀ t, (f t).env.marked =
    t.env.marked) : (State.arrive s blk len f).env.marked = s.env.marked := by
  unfold State.arrive; dsimp only
  (repeat' split) <;> simp [h]
@[simp] theorem State.arrive_tb (s : State) (blk len : Nat) (f : State → State) (h : ∀ t, (f t).sys.tb = t.sys.tb) :
    (State.arrive s blk len f).sys.tb = s.sys.tb := by
  unfold State.arrive; dsimp only
  (repeat' split) <;> simp [h]
@[simp] theorem State.arrive_lost (s : State) (blk len : Nat) (f : State → State) (h : ∀ t, (f t).sys.lost =
    t.sys.lost) : (State.arrive s blk len f).sys.lost = s.sys.lost := by
  unfold State.arrive; dsimp only
  (repeat' split) <;> simp [h]
@[simp] theorem State.arrive_camp (s : State) (blk len : Nat) (f : State → State) (h : ∀ t, (f t).camp = t.camp) :
    (State.arrive s blk len f).camp = s.camp := by
  unfold State.arrive; dsimp only
  (repeat' split) <;> simp [h]
@[simp] theorem State.arrive_cfg (s : State) (blk len : Nat) (f : State → State) (h : ∀ t, (f t).cfg = t.cfg) :
    (State.arrive s blk len f).cfg = s.cfg := by
  unfold State.arrive; dsimp only
  (repeat' split) <;> simp [h]
@[simp] theorem State.arrive_gpio (s : State) (blk len : Nat) (f : State → State) (h : ∀ t, (f t).gpio = t.gpio) :
    (State.arrive s blk len f).gpio = s.gpio := by
  unfold State.arrive; dsimp only
  (repeat' split) <;> simp [h]
@[simp] theorem State.arrive_jtag (s : State) (blk len : Nat) (f : State → State) (h : ∀ t, (f t).jtag = t.jtag) :
    (State.arrive s blk len f).jtag = s.jtag := by
  unfold State.arrive; dsimp only
  (repeat' split) <;> simp [h]
@[simp] theorem State.arrive_lt (s : State) (blk len : Nat) (f : State → State) (h : ∀ t, (f t).lt = t.lt) :
    (State.arrive s blk len f).lt = s.lt := by
  unfold State.arrive; dsimp only
  (repeat' split) <;> simp [h]
@[simp] theorem State.arrive_pmb (s : State) (blk len : Nat) (f : State → State) (h : ∀ t, (f t).pmb = t.pmb) :
    (State.arrive s blk len f).pmb = s.pmb := by
  unfold State.arrive; dsimp only
  (repeat' split) <;> simp [h]
@[simp] theorem State.arrive_wf (s : State) (blk len : Nat) (f : State → State) (h1 : CellsWf s.env.cells) (h2 :
    MarksWf s.env.marked) (h : ∀ t, CellsWf t.env.cells → MarksWf t.env.marked → StoreWf (f t)) : StoreWf
    (State.arrive s blk len f) := by
  unfold State.arrive; dsimp only
  (repeat' split) <;> simp [StoreWf, h1, h2, h]
@[simp] theorem State.arrive_tbLe (s : State) (blk len : Nat) (f : State → State) (h : ∀ t : State, t.sys.tb ≤ (f
    t).sys.tb) : s.sys.tb ≤ (State.arrive s blk len f).sys.tb := by
  unfold State.arrive; dsimp only
  (repeat' split) <;> first | (simp; done) | exact Nat.le_trans (Nat.le_of_eq (by simp)) (h _)
@[simp] theorem State.macPass_keep (s : State) (blk undef : Nat) : Keep (State.macPass s blk undef) s := by
  simp [Keep, Core, Far, State.macPass]
@[simp] theorem State.macFail_keep (s : State) (blk : Nat) : Keep (State.macFail s blk) s := by
  simp [Keep, Core, Far, State.macFail]
@[simp] theorem State.ledgerReject_keep (s : State) (code group : Nat) (named : Bool) : Keep (State.ledgerReject s
    code group named) s := by
  simp [Keep, Core, Far, State.ledgerReject]
@[simp] theorem State.verdictsFirst_keep (s : State) (blk : Nat) : Keep (State.verdictsFirst s blk) s := by
  unfold State.verdictsFirst
  refine Keep.foldl _ (fun t i => ?_) _ _
  (repeat' split) <;> simp [Keep, Core, Far]
@[simp] theorem State.ledgerOpen_keep (s : State) (blk bytes group epoch : Nat) : Keep (State.ledgerOpen s blk bytes
    group epoch) s := by
  simp only [State.ledgerOpen]
  (repeat' split) <;> simp [Keep, Core, Far]
@[simp] theorem State.ledgerDone_keep (s : State) (blk group : Nat) : Keep (State.ledgerDone s blk group) s := by
  simp [Keep, Core, Far, State.ledgerDone]
@[simp] theorem State.ledgerSeal_keep (s : State) (blk group epoch : Nat) : Keep (State.ledgerSeal s blk group epoch)
    s := by
  simp [Keep, Core, Far, State.ledgerSeal]
@[simp] theorem State.alarm_keep (s : State) (i : Nat) : Keep (State.alarm s i) s := by
  simp [Keep, Core, Far, State.alarm]
@[simp] theorem State.failsFirst_keep (s : State) : Keep (State.failsFirst s) s := by
  unfold State.failsFirst
  refine Keep.foldl _ (fun t i => ?_) _ _
  (repeat' split) <;> simp [Keep, Core, Far]
@[simp] theorem State.lctlNak_keep (s : State) (n : Nat) : Keep (State.lctlNak s n) s := by
  simp [Keep, Core, Far, State.lctlNak]
@[simp] theorem State.ackTimeout_keep (s : State) : Keep (State.ackTimeout s) s := by
  simp [Keep, Core, Far, State.ackTimeout]
@[simp] theorem State.lctlAck_keep (s : State) (n : Nat) : Keep (State.lctlAck s n) s := by
  simp [Keep, Core, Far, State.lctlAck]
@[simp] theorem State.silence_keep (s : State) : Keep (State.silence s) s := by
  simp [Keep, Core, Far, State.silence]
@[simp] theorem State.laneUp_keep (s : State) (lane : Nat) : Keep (State.laneUp s lane) s := by
  simp only [State.laneUp]
  (repeat' split) <;> simp [Keep, Core, Far]
@[simp] theorem State.lanesFirst_keep (s : State) (lane : Nat) : Keep (State.lanesFirst s lane) s := by
  unfold State.lanesFirst
  refine Keep.foldl _ (fun t i => ?_) _ _
  (repeat' split) <;> simp [Keep, Core, Far]
@[simp] theorem State.laneDown_keep (s : State) (lane hdr : Nat) : Keep (State.laneDown s lane hdr) s := by
  simp [Keep, Core, Far, State.laneDown]
@[simp] theorem State.kx_keep (s : State) (blk : Nat) (nonceM : List Byte) : Keep (State.kx s blk nonceM) s := by
  simp [Keep, Core, Far, State.kx]
@[simp] theorem State.keyTimeout_keep (s : State) : Keep (State.keyTimeout s) s := by
  unfold State.keyTimeout
  split <;> simp [Keep, Core, Far]
@[simp] theorem State.hldCtl_keep (s : State) (l : Level) (hold release drain : Bool) : Keep (State.hldCtl s l hold
    release drain) s := by
  simp [Keep, Core, Far, State.hldCtl]
@[simp] theorem State.epochTick_keep (s : State) : Keep (State.epochTick s) s := by
  simp [Keep, Core, Far, State.epochTick]
@[simp] theorem State.epochPeriod_keep (s : State) : Keep (State.epochPeriod s) s := by
  unfold State.epochPeriod
  split <;> simp [Keep, Core, Far]

end Sys2Proof.Machine
end

