-- ==== Sys2Proof/Laws/KeepStore.lean ====
section
/-! SUPPORT. What faults, the watchdog, the ENV store and journal, keys, pins and power leave as it was (Keep.lean). -/

open Sys2Proof

namespace Sys2Proof.Machine
@[simp] theorem State.wireEvent_keep (s : State) (i stamp : Nat) (inj : Bool) : Keep (State.wireEvent s i stamp inj) s
    := by
  simp [Keep, Core, Far, State.wireEvent]
@[simp] theorem State.decay_keep (s : State) (i : Nat) : Keep (State.decay s i) s := by
  simp only [State.decay]
  (repeat' split) <;> simp [Keep, Core, Far]
@[simp] theorem State.safeStep_keep (s : State) (k : Nat) : Keep (State.safeStep s k) s := by
  simp [Keep, Core, Far, State.safeStep]
@[simp] theorem State.safeAdvance_keep (s : State) : Keep (State.safeAdvance s) s := by
  unfold State.safeAdvance
  (repeat' split) <;> simp [Keep, Core, Far]
@[simp] theorem State.safeGoes_keep (s : State) : Keep (State.safeGoes s) s := by
  simp [Keep, Core, Far, State.safeGoes]
@[simp] theorem State.cmdRefuse_keep (s : State) (c : Nat) : Keep (State.cmdRefuse s c) s := by
  simp [Keep, Core, Far, State.cmdRefuse]
@[simp] theorem State.cmdAck_keep (s : State) (i : Nat) : Keep (State.cmdAck s i) s := by
  simp [Keep, Core, Far, State.cmdAck]
@[simp] theorem State.cmdClr_keep (s : State) (i : Nat) : Keep (State.cmdClr s i) s := by
  simp [Keep, Core, Far, State.cmdClr]
@[simp] theorem State.cmdSafeClr_keep (s : State) : Keep (State.cmdSafeClr s) s := by
  unfold State.cmdSafeClr
  split <;> simp [Keep, Core, Far]
@[simp] theorem State.safeLeave_keep (s : State) : Keep (State.safeLeave s) s := by
  simp [Keep, Core, Far, State.safeLeave]
@[simp] theorem State.cmdRearm_keep (s : State) : Keep (State.cmdRearm s) s := by
  simp [Keep, Core, Far, State.cmdRearm]
@[simp] theorem State.fltCmd_keep (s : State) (l : Level) (ack clr safeClr rearm : Bool) (src : Nat) : Keep
    (State.fltCmd s l ack clr safeClr rearm src) s := by
  simp [Keep, Core, Far, State.fltCmd]
@[simp] theorem State.privClear_keep (s : State) (bits : Nat) : Keep (State.privClear s bits) s := by
  simp [Keep, Core, Far, State.privClear]
@[simp] theorem State.selfFault_keep (s : State) (why : Nat) : Keep (State.selfFault s why) s := by
  simp [Keep, Core, Far, State.selfFault]
@[simp] theorem State.inject_keep (s : State) (src : Nat) (wire : Bool) : Keep (State.inject s src wire) s := by
  simp [Keep, Core, Far, State.inject]
@[simp] theorem State.flogRead_keep (s : State) : Keep (State.flogRead s) s := by
  unfold State.flogRead
  split <;> simp [Keep, Core, Far]
@[simp] theorem State.flogClr_keep (s : State) : Keep (State.flogClr s) s := by
  simp [Keep, Core, Far, State.flogClr]
@[simp] theorem State.wdgCatch_keep (s : State) : Keep (State.wdgCatch s) s := by
  unfold State.wdgCatch
  split <;> simp [Keep, Core, Far]
@[simp] theorem State.wdgOpens_keep (s : State) : Keep (State.wdgOpens s) s := by
  simp [Keep, Core, Far, State.wdgOpens]
@[simp] theorem State.wdgStart_keep (s : State) (l : Level) : Keep (State.wdgStart s l) s := by
  simp [Keep, Core, Far, State.wdgStart]
@[simp] theorem State.wdgRaise_keep (s : State) (c src : Nat) : Keep (State.wdgRaise s c src) s := by
  simp [Keep, Core, Far, State.wdgRaise]
@[simp] theorem State.wdgNext_keep (s : State) (l : Level) (next : Nat) : Keep (State.wdgNext s l next) s := by
  simp [Keep, Core, Far, State.wdgNext]
@[simp] theorem State.wdgAns_keep (s : State) (i answer : Nat) : Keep (State.wdgAns s i answer) s := by
  simp only [State.wdgAns]
  (repeat' split) <;> simp [Keep, Core, Far]
@[simp] theorem State.wdgAccept_keep (s : State) : Keep (State.wdgAccept s) s := by
  simp [Keep, Core, Far, State.wdgAccept]
@[simp] theorem State.wdgSvc_keep (s : State) (svc : Nat) : Keep (State.wdgSvc s svc) s := by
  simp only [State.wdgSvc]
  (repeat' split) <;> simp [Keep, Core, Far]
@[simp] theorem State.keyFails_keep (s : State) : Keep (State.keyFails s) s := by
  simp [Keep, Core, Far, State.keyFails]
@[simp] theorem State.wdgKey_keep (s : State) (key : Nat) : Keep (State.wdgKey s key) s := by
  simp only [State.wdgKey]
  (repeat' split) <;> simp [Keep, Core, Far]
@[simp] theorem State.release_keep (s : State) : Keep (State.release s) s := by
  simp [Keep, Core, Far, State.release]
@[simp] theorem State.clkLost_keep (s : State) : Keep (State.clkLost s) s := by
  simp [Keep, Core, Far, State.clkLost]
@[simp] theorem State.clkWindow_keep (s : State) (count : Nat) (edgeOnEnd : Bool) : Keep (State.clkWindow s count
    edgeOnEnd) s := by
  simp [Keep, Core, Far, State.clkWindow]
@[simp] theorem Env.clearLines_keep (e : Env) (lo hi : Nat) : (Env.clearLines e lo hi).cells = e.cells := by
  simp [Env.clearLines]
@[simp] theorem Env.note_keep (e : Env) (f : LineFlaws) (a : Nat) : (Env.note e f a).cells = e.cells ∧ (Env.note e f
    a).marked = e.marked := by
  simp [Env.note]
@[simp] theorem State.readLine_keep (s : State) (f : LineFlaws) (a : Nat) : Keep (State.readLine s f a) s := by
  unfold State.readLine
  split <;> simp [Keep, Core, Far]
@[simp] theorem Sys.deferSrc_keep (y : Sys) (i : Nat) : (Sys.deferSrc y i).tb = y.tb ∧ (Sys.deferSrc y i).lost =
    y.lost := by
  simp [Sys.deferSrc]
@[simp] theorem State.readEarly_keep (s : State) (f : LineFlaws) (a : Nat) : Keep (State.readEarly s f a) s := by
  unfold State.readEarly
  split <;> simp [Keep, Core, Far]
@[simp] theorem State.accRead_keep (s : State) (f : LineFlaws) : Keep (State.accRead s f) s := by
  simp [Keep, Core, Far, State.accRead]
@[simp] theorem State.accBegin_keep (s : State) (bs : List Byte) : Keep (State.accBegin s bs) s := by
  simp [Keep, Core, Far, State.accBegin]
@[simp] theorem State.accWrite_keep (s : State) (full : Bool) (l : Level) (f : LineFlaws) : Keep (State.accWrite s
    full l f) s := by
  simp only [State.accWrite]
  (repeat' split) <;> simp [Keep, Core, Far]
@[simp] theorem State.accCmd_keep (s : State) (c : AccCmd) (l : Level) (f : LineFlaws) : Keep (State.accCmd s c l f) s
    := by
  unfold State.accCmd
  (repeat' split) <;> simp [Keep, Core, Far]
@[simp] theorem State.accHost_keep (s : State) (c : AccCmd) (l : Level) (f : LineFlaws) : Keep (State.accHost s c l f)
    s := by
  simp [Keep, Core, Far, State.accHost]
@[simp] theorem State.accDone_keep (s : State) : (State.accDone s).pending = s.pending ∧ (State.accDone s).hw = s.hw ∧
    (State.accDone s).sys.tb = s.sys.tb ∧ (State.accDone s).sys.lost = s.sys.lost ∧ Far (State.accDone s) s := by
  unfold State.accDone
  (repeat' split) <;> simp [Far]
@[simp] theorem State.accDone_wf (s : State) : CellsWf s.env.cells → MarksWf s.env.marked → StoreWf (State.accDone s)
    := by
  intro h1 h2
  unfold State.accDone
  (repeat' split) <;> simp [StoreWf, h1, h2]
@[simp] theorem State.applyRec_keep (s : State) (l : List Byte) : Keep (State.applyRec s l) s := by
  unfold State.applyRec
  split <;> simp [Keep, Core, Far]
@[simp] theorem State.prevFault_keep (s : State) (recs : List (List Byte)) : Keep (State.prevFault s recs) s := by
  unfold State.prevFault
  split <;> simp [Keep, Core, Far]
@[simp] theorem State.genesis_keep (s : State) (code : Nat) : (State.genesis s code).pending = s.pending ∧
    (State.genesis s code).hw = s.hw ∧ (State.genesis s code).sys.tb = s.sys.tb ∧ (State.genesis s code).sys.lost =
    s.sys.lost ∧ Far (State.genesis s code) s := by
  simp [Far, State.genesis]
@[simp] theorem State.genesis_wf (s : State) (code : Nat) : CellsWf s.env.cells → MarksWf s.env.marked → StoreWf
    (State.genesis s code) := by
  intro h1 h2
  simp [StoreWf, h1, h2, State.genesis]
@[simp] theorem State.replay_keep (s : State) (f : LineFlaws) : (State.replay s f).pending = s.pending ∧ (State.replay
    s f).hw = s.hw ∧ (State.replay s f).sys.tb = s.sys.tb ∧ (State.replay s f).sys.lost = s.sys.lost ∧ Far
    (State.replay s f) s := by
  simp only [State.replay]
  (repeat' split) <;> simp [Far]
@[simp] theorem State.replay_wf (s : State) (f : LineFlaws) : CellsWf s.env.cells → MarksWf s.env.marked → StoreWf
    (State.replay s f) := by
  intro h1 h2
  simp only [State.replay]
  (repeat' split) <;> simp [StoreWf, h1, h2]
@[simp] theorem State.harvestBegin_keep (s : State) : (State.harvestBegin s).pending = s.pending ∧ (State.harvestBegin
    s).hw = s.hw ∧ (State.harvestBegin s).env.cells = s.env.cells ∧ (State.harvestBegin s).sys.tb = s.sys.tb ∧
    (State.harvestBegin s).sys.lost = s.sys.lost ∧ Far (State.harvestBegin s) s := by
  simp [Far, State.harvestBegin]
@[simp] theorem State.harvestBegin_wf (s : State) : CellsWf s.env.cells → MarksWf s.env.marked → StoreWf
    (State.harvestBegin s) := by
  intro h1 h2
  simp [StoreWf, h1, h2, State.harvestBegin]
@[simp] theorem State.harvestAuto_keep (s : State) (before : Nat) : (State.harvestAuto s before).pending = s.pending ∧
    (State.harvestAuto s before).hw = s.hw ∧ (State.harvestAuto s before).env.cells = s.env.cells ∧ (State.harvestAuto
    s before).sys.tb = s.sys.tb ∧ (State.harvestAuto s before).sys.lost = s.sys.lost ∧ Far (State.harvestAuto s
    before) s := by
  simp [Far, State.harvestAuto]
@[simp] theorem State.harvestAuto_wf (s : State) (before : Nat) : CellsWf s.env.cells → MarksWf s.env.marked → StoreWf
    (State.harvestAuto s before) := by
  intro h1 h2
  simp [StoreWf, h1, h2, State.harvestAuto]
@[simp] theorem State.replayDone_keep (s : State) (f : LineFlaws) : (State.replayDone s f).pending = s.pending ∧
    (State.replayDone s f).hw = s.hw ∧ (State.replayDone s f).sys.tb = s.sys.tb ∧ (State.replayDone s f).sys.lost =
    s.sys.lost ∧ Far (State.replayDone s f) s := by
  simp [Far, State.replayDone]
@[simp] theorem State.replayDone_wf (s : State) (f : LineFlaws) : CellsWf s.env.cells → MarksWf s.env.marked → StoreWf
    (State.replayDone s f) := by
  intro h1 h2
  simp [StoreWf, h1, h2, State.replayDone]
@[simp] theorem Env.retire_keep (e : Env) (v : Variant) (base : Nat) : (Env.retire e v base).cells = e.cells := by
  refine foldl_inv Env.cells _ (fun t x => ?_) _ _
  dsimp only
  split <;> simp
@[simp] theorem State.harvestEnds_keep (s : State) (f : LineFlaws) : (State.harvestEnds s f).pending = s.pending ∧
    (State.harvestEnds s f).hw = s.hw ∧ (State.harvestEnds s f).sys.tb = s.sys.tb ∧
    (State.harvestEnds s f).sys.lost = s.sys.lost ∧ Far (State.harvestEnds s f) s := by
  unfold State.harvestEnds
  split
  · simp [Far]
  · split <;> simp [Far]
@[simp] theorem State.harvestEnds_wf (s : State) (f : LineFlaws) (h1 : CellsWf s.env.cells) (h2 : MarksWf s.env.marked) :
    StoreWf (State.harvestEnds s f) := by
  unfold State.harvestEnds
  split
  · exact ⟨h1, h2⟩
  · rename_i base _
    split
    · exact ⟨h1, h2⟩
    · extract_lets v k from_ recs s1 run e s2 s3 er src s4
      have a1 : StoreWf s1 := by simp [s1, StoreWf, h1, h2]
      clear_value s1 run recs
      have ae : e.canon := Env.ckWrite_canon _ _ _ _ _ _ a1
      clear_value e
      have a2 : StoreWf s2 := ae
      clear_value s2
      have a3 : StoreWf s3 := by simp [s3, StoreWf, a2.1, a2.2]
      clear_value s3
      have ar : er.canon := Env.retire_canon s3.env v base a3
      clear_value er
      have a4 : StoreWf s4 := by
        simp only [s4]
        split
        · exact ⟨ar.1, ar.2⟩
        · exact ⟨a3.1, a3.2⟩
      clear_value s4
      simp [StoreWf, a4.1, a4.2]
@[simp] theorem State.harvestReq_keep (s : State) (l : Level) : (State.harvestReq s l).pending = s.pending ∧
    (State.harvestReq s l).hw = s.hw ∧ (State.harvestReq s l).env.cells = s.env.cells ∧ (State.harvestReq s l).sys.tb
    = s.sys.tb ∧ (State.harvestReq s l).sys.lost = s.sys.lost ∧ Far (State.harvestReq s l) s := by
  simp [Far, State.harvestReq]
@[simp] theorem State.harvestReq_wf (s : State) (l : Level) : CellsWf s.env.cells → MarksWf s.env.marked → StoreWf
    (State.harvestReq s l) := by
  intro h1 h2
  simp [StoreWf, h1, h2, State.harvestReq]
@[simp] theorem State.commitMark_keep (s : State) (l : List Byte) (t : Nat) : Keep (State.commitMark s l t) s := by
  simp [Keep, Core, Far, State.commitMark]
@[simp] theorem State.captureMark_keep (s : State) (l : List Byte) (t : Nat) : Keep (State.captureMark s l t) s := by
  unfold State.captureMark
  split <;> simp [Keep, Core, Far]
@[simp] theorem State.markRec_keep (s : State) (l : List Byte) (t : Nat) : Keep (State.markRec s l t) s := by
  unfold State.markRec
  split <;> simp [Keep, Core, Far]
@[simp] theorem State.recAppend_keep (s : State) : (State.recAppend s).pending = s.pending ∧ (State.recAppend s).hw =
    s.hw ∧ (State.recAppend s).sys.tb = s.sys.tb ∧ (State.recAppend s).sys.lost = s.sys.lost ∧ Far (State.recAppend s)
    s := by
  unfold State.recAppend
  (repeat' split) <;> simp [Far]
@[simp] theorem State.recAppend_wf (s : State) : CellsWf s.env.cells → MarksWf s.env.marked → StoreWf (State.recAppend
    s) := by
  intro h1 h2
  unfold State.recAppend
  (repeat' split) <;> simp [StoreWf, h1, h2]
@[simp] theorem State.hourPasses_keep (s : State) : Keep (State.hourPasses s) s := by
  simp [Keep, Core, Far, State.hourPasses]
@[simp] theorem State.countPeriod_keep (s : State) : Keep (State.countPeriod s) s := by
  unfold State.countPeriod
  split <;> simp [Keep, Core, Far]
@[simp] theorem State.jrdLoad_keep (s : State) (f : LineFlaws) : Keep (State.jrdLoad s f) s := by
  unfold State.jrdLoad
  dsimp only
  split <;>
    exact Keep.trans' _ (List.foldl _ s _) _ ⟨⟨rfl, rfl, rfl, rfl, rfl, rfl⟩, rfl, rfl, rfl, rfl, rfl, rfl⟩
      (Keep.foldl _ (fun t (x : Nat × List Byte) => State.readLine_keep t f x.1) _ _)
@[simp] theorem State.jrdSet_keep (s : State) (seq : Nat) (f : LineFlaws) : Keep (State.jrdSet s seq f) s := by
  simp [Keep, Core, Far, State.jrdSet]
@[simp] theorem State.chunkEnd_keep (s : State) (i : Nat) : Keep (State.chunkEnd s i) s := by
  simp [Keep, Core, Far, State.chunkEnd]
@[simp] theorem State.bbxTick_keep (s : State) : Keep (State.bbxTick s) s := by
  simp [Keep, Core, Far, State.bbxTick]
@[simp] theorem State.bbxTrig_keep (s : State) (l : Level) : Keep (State.bbxTrig s l) s := by
  simp [Keep, Core, Far, State.bbxTrig]
@[simp] theorem State.bbxRelease_keep (s : State) (l : Level) : Keep (State.bbxRelease s l) s := by
  simp [Keep, Core, Far, State.bbxRelease]
@[simp] theorem State.captureWritten_keep (s : State) : (State.captureWritten s).pending = s.pending ∧
    (State.captureWritten s).hw = s.hw ∧ (State.captureWritten s).sys.tb = s.sys.tb ∧ (State.captureWritten
    s).sys.lost = s.sys.lost ∧ Far (State.captureWritten s) s := by
  unfold State.captureWritten
  split <;> simp [Far]
@[simp] theorem State.captureWritten_wf (s : State) : CellsWf s.env.cells → MarksWf s.env.marked → StoreWf
    (State.captureWritten s) := by
  intro h1 h2
  unfold State.captureWritten
  split <;> simp [StoreWf, h1, h2]
@[simp] theorem State.unwrapStart_keep (s : State) (l : List Nat) : Keep (State.unwrapStart s l) s := by
  simp [Keep, Core, Far, State.unwrapStart]
@[simp] theorem State.unwrapAll_keep (s : State) : Keep (State.unwrapAll s) s := by
  simp [Keep, Core, Far, State.unwrapAll]
@[simp] theorem State.unwrapOne_keep (f : LineFlaws) (s : State) (i : Nat) : Keep (State.unwrapOne f s i) s := by
  simp only [State.unwrapOne]
  (repeat' split) <;> simp [Keep, Core, Far]
@[simp] theorem State.unwrapEnds_keep (s : State) (f : LineFlaws) : Keep (State.unwrapEnds s f) s := by
  unfold State.unwrapEnds
  split <;> simp [Keep, Core, Far]
@[simp] theorem State.dbgTo_keep (s : State) (d : Dbg) : Core (State.dbgTo s d) s ∧ (State.dbgTo s d).camp = s.camp ∧
    (State.dbgTo s d).cfg = s.cfg ∧ (State.dbgTo s d).jtag = s.jtag ∧ (State.dbgTo s d).lt = s.lt ∧ (State.dbgTo s
    d).pmb = s.pmb := by
  simp [Core, State.dbgTo]
@[simp] theorem State.keyFlush_keep (s : State) : (State.keyFlush s).pending = s.pending ∧ (State.keyFlush s).hw =
    s.hw ∧ (State.keyFlush s).sys.tb = s.sys.tb ∧ (State.keyFlush s).sys.lost = s.sys.lost ∧ Far (State.keyFlush s) s
    := by
  unfold State.keyFlush
  split <;> simp [Far]
@[simp] theorem State.keyFlush_wf (s : State) : CellsWf s.env.cells → MarksWf s.env.marked → StoreWf (State.keyFlush
    s) := by
  intro h1 h2
  unfold State.keyFlush
  split <;> simp [StoreWf, h1, h2]
@[simp] theorem State.lcErase_keep (s : State) (o : LcReq) : (State.lcErase s o).pending = s.pending ∧
    (State.lcErase s o).hw = s.hw ∧ (State.lcErase s o).sys.tb = s.sys.tb ∧ (State.lcErase s o).sys.lost = s.sys.lost ∧
    Far (State.lcErase s o) s := by
  unfold State.lcErase
  split <;> simp [Far]
@[simp] theorem State.lcErase_wf (s : State) (o : LcReq) (h1 : CellsWf s.env.cells) (h2 : MarksWf s.env.marked) :
    StoreWf (State.lcErase s o) := by
  have h := State.keyFlush_wf s h1 h2
  unfold State.lcErase
  split
  · refine Env.foldl_canon _ (fun e x h => ?_) _ s.keyFlush.env h
    split
    · exact Env.clearLines_canon _ _ _ h
    · exact h
  · exact Env.clearLines_canon _ _ _ h
  · exact ⟨h1, h2⟩
@[simp] theorem State.lcReq_keep (s : State) (o : LcReq) (l : Level) (key win : Nat) (hwStart : Bool) : (State.lcReq s
    o l key win hwStart).pending = s.pending ∧ (State.lcReq s o l key win hwStart).hw = s.hw ∧ (State.lcReq s o l key
    win hwStart).sys.tb = s.sys.tb ∧ (State.lcReq s o l key win hwStart).sys.lost = s.sys.lost ∧ Far (State.lcReq s o
    l key win hwStart) s := by
  unfold State.lcReq
  split <;> simp [Far]
@[simp] theorem State.lcReq_wf (s : State) (o : LcReq) (l : Level) (key win : Nat) (hwStart : Bool) : CellsWf
    s.env.cells → MarksWf s.env.marked → StoreWf (State.lcReq s o l key win hwStart) := by
  intro h1 h2
  unfold State.lcReq
  split <;> simp [StoreWf, h1, h2]
@[simp] theorem State.lcWrite_keep (s : State) (o : LcReq) (key : BitVec 16) (win : Nat) (hwStart : Bool) :
    (State.lcWrite s o key win hwStart).pending = s.pending ∧ (State.lcWrite s o key win hwStart).hw = s.hw ∧
    (State.lcWrite s o key win hwStart).sys.tb = s.sys.tb ∧ (State.lcWrite s o key win hwStart).sys.lost = s.sys.lost
    ∧ Far (State.lcWrite s o key win hwStart) s := by
  simp [Far, State.lcWrite]
@[simp] theorem State.lcWrite_wf (s : State) (o : LcReq) (key : BitVec 16) (win : Nat) (hwStart : Bool) : CellsWf
    s.env.cells → MarksWf s.env.marked → StoreWf (State.lcWrite s o key win hwStart) := by
  intro h1 h2
  simp [StoreWf, h1, h2, State.lcWrite]
@[simp] theorem State.takeFuses_keep (s : State) (f : Fuses) : (State.takeFuses s f).pending = s.pending ∧
    (State.takeFuses s f).env.cells = s.env.cells ∧ (State.takeFuses s f).env.marked = s.env.marked ∧ (State.takeFuses
    s f).sys.tb = s.sys.tb ∧ (State.takeFuses s f).sys.lost = s.sys.lost ∧ Far (State.takeFuses s f) s := by
  simp [Far, State.takeFuses]
@[simp] theorem State.lcEnds_keep (s : State) (ok : Bool) : (State.lcEnds s ok).pending = s.pending ∧ (State.lcEnds s
    ok).env.cells = s.env.cells ∧ (State.lcEnds s ok).env.marked = s.env.marked ∧ (State.lcEnds s ok).sys.tb =
    s.sys.tb ∧ (State.lcEnds s ok).sys.lost = s.sys.lost ∧ (State.lcEnds s ok).camp = s.camp ∧ (State.lcEnds s ok).cfg
    = s.cfg ∧ (State.lcEnds s ok).jtag = s.jtag ∧ (State.lcEnds s ok).lt = s.lt ∧ (State.lcEnds s ok).pmb = s.pmb :=
    by
  unfold State.lcEnds
  split <;> simp
@[simp] theorem State.keyRefuse_keep (s : State) (c : Nat) : Keep (State.keyRefuse s c) s := by
  simp [Keep, Core, Far, State.keyRefuse]
@[simp] theorem State.keyStore_keep (s : State) (key : List Byte) (a kind index : Nat) : Keep (State.keyStore s key a
    kind index) s := by
  simp [Keep, Core, Far, State.keyStore]
@[simp] theorem State.skeyInstall_keep (s : State) (l : Level) (lev : Nat) : Keep (State.skeyInstall s l lev) s := by
  unfold State.skeyInstall
  (repeat' split) <;> simp [Keep, Core, Far]
@[simp] theorem State.pairInstall_keep (s : State) (l : Level) : Keep (State.pairInstall s l) s := by
  unfold State.pairInstall
  (repeat' split) <;> simp [Keep, Core, Far]
@[simp] theorem State.ckeyInstall_keep (s : State) (l : Level) (i : Nat) : Keep (State.ckeyInstall s l i) s := by
  unfold State.ckeyInstall
  (repeat' split) <;> simp [Keep, Core, Far]
@[simp] theorem State.ckeyErase_keep (s : State) (l : Level) (i : Nat) : (State.ckeyErase s l i).pending = s.pending ∧
    (State.ckeyErase s l i).hw = s.hw ∧ (State.ckeyErase s l i).env.cells = s.env.cells ∧ (State.ckeyErase s l
    i).sys.tb = s.sys.tb ∧ (State.ckeyErase s l i).sys.lost = s.sys.lost ∧ Far (State.ckeyErase s l i) s := by
  unfold State.ckeyErase
  split <;> simp [Far]
@[simp] theorem State.ckeyErase_wf (s : State) (l : Level) (i : Nat) : CellsWf s.env.cells → MarksWf s.env.marked →
    StoreWf (State.ckeyErase s l i) := by
  intro h1 h2
  unfold State.ckeyErase
  split <;> simp [StoreWf, h1, h2]
@[simp] theorem State.holdRestore_keep (s : State) (l : Level) (i : Nat) : Keep (State.holdRestore s l i) s := by
  unfold State.holdRestore
  split <;> simp [Keep, Core, Far]
@[simp] theorem State.keyDone_keep (s : State) : (State.keyDone s).pending = s.pending ∧ (State.keyDone s).hw = s.hw ∧
    (State.keyDone s).sys.tb = s.sys.tb ∧ (State.keyDone s).sys.lost = s.sys.lost ∧ Far (State.keyDone s) s := by
  unfold State.keyDone
  split <;> simp [Far]
@[simp] theorem State.keyDone_wf (s : State) : CellsWf s.env.cells → MarksWf s.env.marked → StoreWf (State.keyDone s)
    := by
  intro h1 h2
  unfold State.keyDone
  split <;> simp [StoreWf, h1, h2]
@[simp] theorem State.tamper_keep (s : State) (how : Nat) : Core (State.tamper s how) s ∧ (State.tamper s how).camp =
    s.camp ∧ (State.tamper s how).cfg = s.cfg ∧ (State.tamper s how).jtag = s.jtag ∧ (State.tamper s how).lt = s.lt ∧
    (State.tamper s how).pmb = s.pmb := by
  simp [Core, State.tamper]
@[simp] theorem State.gpioErr_keep (s : State) (code p pin : Nat) : Core (State.gpioErr s code p pin) s ∧
    (State.gpioErr s code p pin).camp = s.camp ∧ (State.gpioErr s code p pin).cfg = s.cfg ∧ (State.gpioErr s code p
    pin).jtag = s.jtag ∧ (State.gpioErr s code p pin).lt = s.lt ∧ (State.gpioErr s code p pin).pmb = s.pmb := by
  simp [Core, State.gpioErr]
@[simp] theorem State.outBits_keep (s : State) (p bits : Nat) (set : Bool) : Core (State.outBits s p bits set) s ∧
    (State.outBits s p bits set).camp = s.camp ∧ (State.outBits s p bits set).cfg = s.cfg ∧ (State.outBits s p bits
    set).jtag = s.jtag ∧ (State.outBits s p bits set).lt = s.lt ∧ (State.outBits s p bits set).pmb = s.pmb := by
  simp [Core, State.outBits]
@[simp] theorem State.outReplay_keep (s : State) : Core (State.outReplay s) s ∧ (State.outReplay s).camp = s.camp ∧
    (State.outReplay s).cfg = s.cfg ∧ (State.outReplay s).jtag = s.jtag ∧ (State.outReplay s).lt = s.lt ∧
    (State.outReplay s).pmb = s.pmb := by
  simp [Core, State.outReplay]
@[simp] theorem State.gpioDir_keep (s : State) (p value : Nat) : Core (State.gpioDir s p value) s ∧ (State.gpioDir s p
    value).camp = s.camp ∧ (State.gpioDir s p value).cfg = s.cfg ∧ (State.gpioDir s p value).jtag = s.jtag ∧
    (State.gpioDir s p value).lt = s.lt ∧ (State.gpioDir s p value).pmb = s.pmb := by
  simp [Core, State.gpioDir]
@[simp] theorem State.pullPin_keep (s : State) (p value i : Nat) : Core (State.pullPin s p value i) s ∧ (State.pullPin
    s p value i).camp = s.camp ∧ (State.pullPin s p value i).cfg = s.cfg ∧ (State.pullPin s p value i).jtag = s.jtag ∧
    (State.pullPin s p value i).lt = s.lt ∧ (State.pullPin s p value i).pmb = s.pmb := by
  simp [Core, State.pullPin]
@[simp] theorem State.gpioPull_keep (s : State) (p value : Nat) : Core (State.gpioPull s p value) s ∧ (State.gpioPull
    s p value).camp = s.camp ∧ (State.gpioPull s p value).cfg = s.cfg ∧ (State.gpioPull s p value).jtag = s.jtag ∧
    (State.gpioPull s p value).lt = s.lt ∧ (State.gpioPull s p value).pmb = s.pmb := by
  simp [Core, State.gpioPull]
@[simp] theorem State.penBit_keep (s : State) (value i : Nat) : Core (State.penBit s value i) s ∧ (State.penBit s
    value i).camp = s.camp ∧ (State.penBit s value i).cfg = s.cfg ∧ (State.penBit s value i).jtag = s.jtag ∧
    (State.penBit s value i).lt = s.lt ∧ (State.penBit s value i).pmb = s.pmb := by
  simp [Core, State.penBit]
@[simp] theorem State.gpioPen_keep (s : State) (value : Nat) : Core (State.gpioPen s value) s ∧ (State.gpioPen s
    value).camp = s.camp ∧ (State.gpioPen s value).cfg = s.cfg ∧ (State.gpioPen s value).jtag = s.jtag ∧
    (State.gpioPen s value).lt = s.lt ∧ (State.gpioPen s value).pmb = s.pmb := by
  simp [Core, State.gpioPen]
@[simp] theorem State.mirSel_keep (s : State) (k : Nat) (value : Word) : Core (State.mirSel s k value) s ∧
    (State.mirSel s k value).camp = s.camp ∧ (State.mirSel s k value).cfg = s.cfg ∧ (State.mirSel s k value).jtag =
    s.jtag ∧ (State.mirSel s k value).lt = s.lt ∧ (State.mirSel s k value).pmb = s.pmb := by
  simp [Core, State.mirSel]
@[simp] theorem State.lockFails_keep (s : State) (p : Nat) : Core (State.lockFails s p) s ∧ (State.lockFails s p).camp
    = s.camp ∧ (State.lockFails s p).cfg = s.cfg ∧ (State.lockFails s p).jtag = s.jtag ∧ (State.lockFails s p).lt =
    s.lt ∧ (State.lockFails s p).pmb = s.pmb := by
  simp [Core, State.lockFails]
@[simp] theorem State.lockTimeout_keep (s : State) (p : Nat) : Core (State.lockTimeout s p) s ∧ (State.lockTimeout s
    p).camp = s.camp ∧ (State.lockTimeout s p).cfg = s.cfg ∧ (State.lockTimeout s p).jtag = s.jtag ∧
    (State.lockTimeout s p).lt = s.lt ∧ (State.lockTimeout s p).pmb = s.pmb := by
  unfold State.lockTimeout
  split <;> simp [Core]
@[simp] theorem State.lockPast_keep (s : State) (p : Nat) : Core (State.lockPast s p) s ∧ (State.lockPast s p).camp =
    s.camp ∧ (State.lockPast s p).cfg = s.cfg ∧ (State.lockPast s p).jtag = s.jtag ∧ (State.lockPast s p).lt = s.lt ∧
    (State.lockPast s p).pmb = s.pmb := by
  unfold State.lockPast
  split <;> simp [Core]
@[simp] theorem State.gpioLock_keep (s : State) (p key mask : Nat) : Core (State.gpioLock s p key mask) s ∧
    (State.gpioLock s p key mask).camp = s.camp ∧ (State.gpioLock s p key mask).cfg = s.cfg ∧ (State.gpioLock s p key
    mask).jtag = s.jtag ∧ (State.gpioLock s p key mask).lt = s.lt ∧ (State.gpioLock s p key mask).pmb = s.pmb := by
  simp only [State.gpioLock]
  (repeat' split) <;> simp [Core]
@[simp] theorem State.pinEdge_keep (s : State) (p pin : Nat) (level : Bool) : Core (State.pinEdge s p pin level) s ∧
    (State.pinEdge s p pin level).camp = s.camp ∧ (State.pinEdge s p pin level).cfg = s.cfg ∧ (State.pinEdge s p pin
    level).jtag = s.jtag ∧ (State.pinEdge s p pin level).lt = s.lt ∧ (State.pinEdge s p pin level).pmb = s.pmb := by
  simp [Core, State.pinEdge]
@[simp] theorem State.edgeSet_keep (s : State) (e : Nat × Nat) : Core (State.edgeSet s e) s ∧ (State.edgeSet s e).camp
    = s.camp ∧ (State.edgeSet s e).cfg = s.cfg ∧ (State.edgeSet s e).jtag = s.jtag ∧ (State.edgeSet s e).lt = s.lt ∧
    (State.edgeSet s e).pmb = s.pmb := by
  simp [Core, State.edgeSet]
@[simp] theorem State.lineTick_keep (s : State) : Core (State.lineTick s) s ∧ (State.lineTick s).camp = s.camp ∧
    (State.lineTick s).cfg = s.cfg ∧ (State.lineTick s).jtag = s.jtag ∧ (State.lineTick s).lt = s.lt ∧ (State.lineTick
    s).pmb = s.pmb := by
  simp [Core, State.lineTick]
@[simp] theorem State.wakePins_keep (s : State) (levels : Nat) : Core (State.wakePins s levels) s ∧ (State.wakePins s
    levels).camp = s.camp ∧ (State.wakePins s levels).cfg = s.cfg ∧ (State.wakePins s levels).jtag = s.jtag ∧
    (State.wakePins s levels).lt = s.lt ∧ (State.wakePins s levels).pmb = s.pmb := by
  simp [Core, State.wakePins]
@[simp] theorem State.pwrRefuse_keep (s : State) (c : Nat) : Keep (State.pwrRefuse s c) s := by
  simp [Keep, Core, Far, State.pwrRefuse]
@[simp] theorem State.rungTo_keep (s : State) (r : Rung) : Keep (State.rungTo s r) s := by
  simp [Keep, Core, Far, State.rungTo]
@[simp] theorem State.pwrReq_keep (s : State) (r : Rung) (l : Level) : Core (State.pwrReq s r l) s ∧ (State.pwrReq s r
    l).camp = s.camp ∧ (State.pwrReq s r l).cfg = s.cfg ∧ (State.pwrReq s r l).gpio = s.gpio ∧ (State.pwrReq s r
    l).jtag = s.jtag ∧ (State.pwrReq s r l).lt = s.lt := by
  unfold State.pwrReq
  (repeat' split) <;> simp [Core]
@[simp] theorem State.entryTick_keep (s : State) : Core (State.entryTick s) s ∧ (State.entryTick s).cfg = s.cfg ∧
    (State.entryTick s).jtag = s.jtag ∧ (State.entryTick s).lt = s.lt := by
  simp [Core, State.entryTick]
@[simp] theorem State.entrySweep_keep (s : State) : Core (State.entrySweep s) s ∧ (State.entrySweep s).camp = s.camp ∧
    (State.entrySweep s).cfg = s.cfg ∧ (State.entrySweep s).jtag = s.jtag ∧ (State.entrySweep s).lt = s.lt ∧
    (State.entrySweep s).pmb = s.pmb := by
  simp [Core, State.entrySweep]
@[simp] theorem State.entryStop_keep (s : State) : Core (State.entryStop s) s ∧ (State.entryStop s).camp = s.camp ∧
    (State.entryStop s).cfg = s.cfg ∧ (State.entryStop s).jtag = s.jtag ∧ (State.entryStop s).lt = s.lt ∧
    (State.entryStop s).pmb = s.pmb := by
  unfold State.entryStop
  split <;> simp [Core]
@[simp] theorem State.wakeKept_keep (s : State) : Keep (State.wakeKept s) s := by
  unfold State.wakeKept
  split <;> simp [Keep, Core, Far]
@[simp] theorem State.winMid_keep (s : State) : Core (State.winMid s) s ∧ (State.winMid s).cfg = s.cfg ∧ (State.winMid
    s).gpio = s.gpio ∧ (State.winMid s).jtag = s.jtag ∧ (State.winMid s).lt = s.lt ∧ (State.winMid s).pmb = s.pmb :=
    by
  simp [Core, State.winMid]
@[simp] theorem State.wakeTimer_keep (s : State) : Keep (State.wakeTimer s) s := by
  simp [Keep, Core, Far, State.wakeTimer]
@[simp] theorem State.casRetrain_keep (s : State) : Keep (State.casRetrain s) s := by
  simp [Keep, Core, Far, State.casRetrain]
@[simp] theorem State.exitDone_keep (s : State) : (State.exitDone s).pending = s.pending ∧ (State.exitDone s).hw =
    s.hw ∧ (State.exitDone s).env.cells = s.env.cells ∧ (State.exitDone s).env.marked = s.env.marked ∧ (State.exitDone
    s).sys.lost = s.sys.lost ∧ (State.exitDone s).camp = s.camp ∧ (State.exitDone s).cfg = s.cfg ∧ (State.exitDone
    s).jtag = s.jtag ∧ (State.exitDone s).lt = s.lt ∧ (State.exitDone s).pmb = s.pmb := by
  simp only [State.exitDone]
  (repeat' split) <;> simp
@[simp] theorem State.exitDone_tb (s : State) : s.sys.tb ≤ (State.exitDone s).sys.tb := by
  simp only [State.exitDone]
  (repeat' split) <;> simp
@[simp] theorem State.overtemp_keep (s : State) : Keep (State.overtemp s) s := by
  simp [Keep, Core, Far, State.overtemp]

end Sys2Proof.Machine
end

