-- ==== Sys2Proof/Laws/KeepSystem.lean ====
section
/-! SUPPORT. What counters, reads, system, image and load leave as it was (Keep.lean). -/

open Sys2Proof

namespace Sys2Proof.Machine
@[simp] theorem State.cntCapture_keep (s : State) (src t : Nat) : Keep (State.cntCapture s src t) s := by
  simp [Keep, Core, Far, State.cntCapture]
@[simp] theorem State.cntSnapBy_keep (s : State) (t : Nat) : Keep (State.cntSnapBy s t) s := by
  unfold State.cntSnapBy
  split <;> simp [Keep, Core, Far]
@[simp] theorem State.cntSnapCapture_keep (s : State) : Keep (State.cntSnapCapture s) s := by
  unfold State.cntSnapCapture
  simp [Keep, Core, Far]
@[simp] theorem State.cntDeliver_keep (s : State) : Keep (State.cntDeliver s) s := by
  unfold State.cntDeliver
  split <;> simp [Keep, Core, Far]
@[simp] theorem State.cntCtrl_keep (s : State) (w : Word) : Keep (State.cntCtrl s w) s := by
  simp [Keep, Core, Far, State.cntCtrl]
@[simp] theorem State.leafLo_keep (s : State) (w : Word) : Keep (State.leafLo s w) s := by
  simp [Keep, Core, Far, State.leafLo]
@[simp] theorem State.leafHi_keep (s : State) (k : Nat) (w : Word) : Keep (State.leafHi s k w) s := by
  simp [Keep, Core, Far, State.leafHi]
@[simp] theorem Env.spoilt_keep (e : Env) (x : CntSpot) : (e.spoilt x).cells = e.cells ∧ (e.spoilt x).marked = e.marked := by
  cases x <;> exact ⟨rfl, rfl⟩
@[simp] theorem State.spoil_keep (s : State) (x : CntSpot) : Keep (State.spoil s x) s := by
  simp [Keep, Core, Far, State.spoil]
@[simp] theorem State.cntScrub_keep (s : State) (isl : Nat) (single double : List CntSpot) : Keep (State.cntScrub s
    isl single double) s := by
  simp [Keep, Core, Far, State.cntScrub]
@[simp] theorem State.tpRoll_keep (s : State) (p : Nat) : Keep (State.tpRoll s p) s := by
  simp [Keep, Core, Far, State.tpRoll]
@[simp] theorem State.viewAccept_keep (s : State) (t : Nat) (cnt eqx : Bool) : Keep (State.viewAccept s t cnt eqx) s
    := by
  simp [Keep, Core, Far, State.viewAccept]
@[simp] theorem State.viewGo_keep (s : State) (cnt mode : Bool) : Keep (State.viewGo s cnt mode) s := by
  unfold State.viewGo
  split <;> simp [Keep, Core, Far]
@[simp] theorem State.viewReq_keep (s : State) (cnt mode : Bool) : Keep (State.viewReq s cnt mode) s := by
  simp [Keep, Core, Far, State.viewReq]
@[simp] theorem State.viewTakeBy_keep (s : State) (t : Nat) : Keep (State.viewTakeBy s t) s := by
  unfold State.viewTakeBy
  split <;> simp [Keep, Core, Far]
@[simp] theorem State.viewTake_keep (s : State) : Keep (State.viewTake s) s := by
  unfold State.viewTake
  simp [Keep, Core, Far]
@[simp] theorem State.recapture_keep (s : State) : Keep (State.recapture s) s := by
  simp only [State.recapture]
  (repeat' split) <;> simp [Keep, Core, Far]
@[simp] theorem State.drainJudge_keep (s : State) : Keep (State.drainJudge s) s := by
  simp [Keep, Core, Far, State.drainJudge]
@[simp] theorem State.rounds_keep (fuel : Nat) (s : State) : Keep (State.rounds fuel s) s := by
  induction fuel generalizing s with
  | zero => simp [Keep, Core, Far, State.rounds]
  | succ n ih => unfold State.rounds; split <;> simp [Keep, Core, Far, ih]
@[simp] theorem State.judgeTick_keep (s : State) : Keep (State.judgeTick s) s := by
  simp [Keep, Core, Far, State.judgeTick]
@[simp] theorem State.viewEnd_keep (s : State) : Keep (State.viewEnd s) s := by
  unfold State.viewEnd
  split <;> simp [Keep, Core, Far]
@[simp] theorem State.raiseOrDefer_keep (s : State) (i : Nat) : Keep (State.raiseOrDefer s i) s := by
  simp [Keep, Core, Far, State.raiseOrDefer]
@[simp] theorem State.loseIsl_keep (s : State) (i : Nat) : (State.loseIsl s i).pending = s.pending ∧ (State.loseIsl s
    i).hw = s.hw ∧ (State.loseIsl s i).env.cells = s.env.cells ∧ (State.loseIsl s i).env.marked = s.env.marked ∧
    (State.loseIsl s i).sys.tb = s.sys.tb ∧ Far (State.loseIsl s i) s := by
  simp [Far, State.loseIsl]
@[simp] theorem State.fullValue_keep (s : State) (i : Nat) (slip : Int) : Keep (State.fullValue s i slip) s := by
  simp [Keep, Core, Far, State.fullValue]
@[simp] theorem State.vauxFalls_keep (s : State) : Keep (State.vauxFalls s) s := by
  simp [Keep, Core, Far, State.vauxFalls]
@[simp] theorem State.orderly_keep (s : State) (cause : Nat) : Keep (State.orderly s cause) s := by
  simp [Keep, Core, Far, State.orderly]
@[simp] theorem State.softReq_keep (s : State) (l : Level) (key : Nat) : Keep (State.softReq s l key) s := by
  simp [Keep, Core, Far, State.softReq]
@[simp] theorem State.fuseRead_keep (s : State) (badA badB : BitVec 8) (strap : Bool) : Keep (State.fuseRead s badA
    badB strap) s := by
  simp [Keep, Core, Far, State.fuseRead]
@[simp] theorem State.s2Ends_keep (s : State) (vio33 : Bool) : (State.s2Ends s vio33).pending = s.pending ∧
    (State.s2Ends s vio33).hw = s.hw ∧ (State.s2Ends s vio33).env.cells = s.env.cells ∧ (State.s2Ends s
    vio33).env.marked = s.env.marked ∧ (State.s2Ends s vio33).sys.lost = s.sys.lost ∧ Far (State.s2Ends s vio33) s :=
    by
  simp only [State.s2Ends]
  (repeat' split) <;> simp [Far]
@[simp] theorem State.s2Ends_tb (s : State) (vio33 : Bool) : s.sys.tb ≤ (State.s2Ends s vio33).sys.tb := by
  unfold State.s2Ends
  dsimp only
  split
  · split <;> simp [State.rcEdge, State.draw]
  · exact Nat.le_refl _
@[simp] theorem State.loadPinmap_keep (s : State) (m : Img) (b : Nat) : Core (State.loadPinmap s m b) s ∧
    (State.loadPinmap s m b).camp = s.camp ∧ (State.loadPinmap s m b).cfg = s.cfg ∧ (State.loadPinmap s m b).jtag =
    s.jtag ∧ (State.loadPinmap s m b).lt = s.lt ∧ (State.loadPinmap s m b).pmb = s.pmb := by
  simp [Core, State.loadPinmap]
@[simp] theorem State.loadRails_keep (s : State) (m : Img) (b : Nat) : Core (State.loadRails s m b) s ∧
    (State.loadRails s m b).camp = s.camp ∧ (State.loadRails s m b).cfg = s.cfg ∧ (State.loadRails s m b).gpio =
    s.gpio ∧ (State.loadRails s m b).jtag = s.jtag ∧ (State.loadRails s m b).lt = s.lt := by
  simp [Core, State.loadRails]
@[simp] theorem State.loadGraph_keep (s : State) (m : Img) (b : Nat) : Keep (State.loadGraph s m b) s := by
  simp [Keep, Core, Far, State.loadGraph]
@[simp] theorem State.loadThresh_keep (s : State) (m : Img) (b : Nat) (put : Chan → Thr → Chan) : Keep
    (State.loadThresh s m b put) s := by
  simp [Keep, Core, Far, State.loadThresh]
@[simp] theorem State.loadReact_keep (s : State) (m : Img) (b : Nat) : Keep (State.loadReact s m b) s := by
  simp [Keep, Core, Far, State.loadReact]
@[simp] theorem State.loadWdg_keep (s : State) (m : Img) (b : Nat) : Keep (State.loadWdg s m b) s := by
  simp [Keep, Core, Far, State.loadWdg]
@[simp] theorem State.loadLadder_keep (s : State) (m : Img) (b : Nat) : Keep (State.loadLadder s m b) s := by
  simp [Keep, Core, Far, State.loadLadder]
@[simp] theorem State.loadCascade_keep (s : State) (m : Img) (b : Nat) : Keep (State.loadCascade s m b) s := by
  simp [Keep, Core, Far, State.loadCascade]
@[simp] theorem State.loadCounters_keep (s : State) (m : Img) (b : Nat) (was : List Nat) : Keep (State.loadCounters s
    m b was) s := by
  simp [Keep, Core, Far, State.loadCounters]
@[simp] theorem State.loadKeys_keep (s : State) (m : Img) (b : Nat) : Keep (State.loadKeys s m b) s := by
  simp [Keep, Core, Far, State.loadKeys]
@[simp] theorem State.loadSec_keep (m : Img) (was : List Nat) (put : Chan → Thr → Chan) (s : State) (x : Sec369) :
    Core (State.loadSec m was put s x) s ∧ (State.loadSec m was put s x).camp = s.camp ∧ (State.loadSec m was put s
    x).cfg = s.cfg ∧ (State.loadSec m was put s x).jtag = s.jtag ∧ (State.loadSec m was put s x).lt = s.lt := by
  unfold State.loadSec
  split <;> simp [Core]
@[simp] theorem State.loadSecs_keep (s : State) (m : Img) (put : Chan → Thr → Chan) : Core (State.loadSecs s m put) s
    ∧ (State.loadSecs s m put).camp = s.camp ∧ (State.loadSecs s m put).cfg = s.cfg ∧ (State.loadSecs s m put).jtag =
    s.jtag ∧ (State.loadSecs s m put).lt = s.lt := by
  simp [Core, State.loadSecs]
@[simp] theorem State.readImg_keep (s : State) (f : LineFlaws) (early : Bool) (a : Nat) : Keep (State.readImg s f
    early a) s := by
  simp [Keep, Core, Far, State.readImg]
@[simp] theorem State.reject_keep (s : State) (r : Rej) (early : Bool) : Core (State.reject s r early) s ∧
    (State.reject s r early).camp = s.camp ∧ (State.reject s r early).gpio = s.gpio ∧ (State.reject s r early).jtag =
    s.jtag ∧ (State.reject s r early).lt = s.lt ∧ (State.reject s r early).pmb = s.pmb := by
  simp [Core, State.reject]
@[simp] theorem State.rejectSlot_keep (s : State) (k : Nat) (r : Rej) (early : Bool) : Core (State.rejectSlot s k r
    early) s ∧ (State.rejectSlot s k r early).camp = s.camp ∧ (State.rejectSlot s k r early).gpio = s.gpio ∧
    (State.rejectSlot s k r early).jtag = s.jtag ∧ (State.rejectSlot s k r early).lt = s.lt ∧ (State.rejectSlot s k r
    early).pmb = s.pmb := by
  simp [Core, State.rejectSlot]
theorem State.tryHead_keep (f : LineFlaws) (early : Bool) (a : State × List Nat) (k : Nat) :
    KeepC (State.tryHead f early a k).1 a.1 := by
  unfold State.tryHead
  dsimp only
  split <;> simp [KeepC, Core]
@[simp] theorem State.trySlots_keep (f : LineFlaws) (early : Bool) (l : List Nat) (s : State) :
    KeepC (State.trySlots f early l s).1 s := by
  induction l generalizing s with
  | nil => exact KeepC.rfl' _
  | cons k r ih =>
    unfold State.trySlots
    dsimp only
    split
    · simp [KeepC, Core, ih]
    · split <;> simp [KeepC, Core]
@[simp] theorem State.chooseSlot_keep (s : State) (f : LineFlaws) (early : Bool) (l : List Nat) :
    KeepC (State.chooseSlot s f early l).1 s :=
  KeepC.trans' _ _ _ (State.trySlots_keep _ _ _ _)
    (foldl_fst _ KeepC KeepC.rfl' KeepC.trans' (fun a k => State.tryHead_keep f early a k) l (s, []))
@[simp] theorem State.describe_keep (s : State) (m : Img) (k : Nat) : Core (State.describe s m k) s ∧ (State.describe
    s m k).camp = s.camp ∧ (State.describe s m k).gpio = s.gpio ∧ (State.describe s m k).jtag = s.jtag ∧
    (State.describe s m k).lt = s.lt ∧ (State.describe s m k).pmb = s.pmb := by
  simp [Core, State.describe]
@[simp] theorem State.loadImg_keep (s : State) (k : Nat) : Core (State.loadImg s k) s ∧ (State.loadImg s k).camp =
    s.camp ∧ (State.loadImg s k).jtag = s.jtag ∧ (State.loadImg s k).lt = s.lt := by
  simp [Core, State.loadImg]
@[simp] theorem State.recorders_keep (s : State) : Keep (State.recorders s) s := by
  simp [Keep, Core, Far, State.recorders]
@[simp] theorem State.readPair_keep (s : State) : Keep (State.readPair s) s := by
  unfold State.readPair
  split <;> simp [Keep, Core, Far]
@[simp] theorem State.epochStart_keep (s : State) : Keep (State.epochStart s) s := by
  simp [Keep, Core, Far, State.epochStart]
@[simp] theorem State.firstLoad_keep (s : State) : Keep (State.firstLoad s) s := by
  simp [Keep, Core, Far, State.firstLoad]
@[simp] theorem State.pmbSetup_keep (s : State) : Core (State.pmbSetup s) s ∧ (State.pmbSetup s).camp = s.camp ∧
    (State.pmbSetup s).cfg = s.cfg ∧ (State.pmbSetup s).gpio = s.gpio ∧ (State.pmbSetup s).jtag = s.jtag ∧
    (State.pmbSetup s).lt = s.lt := by
  simp [Core, State.pmbSetup]
@[simp] theorem State.casSubs_keep (s : State) : Keep (State.casSubs s) s := by
  simp [Keep, Core, Far, State.casSubs]
@[simp] theorem State.casDrop_keep (s : State) : Core (State.casDrop s) s ∧ (State.casDrop s).cfg = s.cfg ∧
    (State.casDrop s).gpio = s.gpio ∧ (State.casDrop s).jtag = s.jtag ∧ (State.casDrop s).lt = s.lt ∧ (State.casDrop
    s).pmb = s.pmb := by
  simp [Core, State.casDrop]
@[simp] theorem State.orphaned_keep (s : State) : Keep (State.orphaned s) s := by
  simp [Keep, Core, Far, State.orphaned]
@[simp] theorem State.parkPins_keep (s old : State) (all : Bool) : Core (State.parkPins s old all) s ∧ (State.parkPins
    s old all).camp = s.camp ∧ (State.parkPins s old all).cfg = s.cfg ∧ (State.parkPins s old all).jtag = s.jtag ∧
    (State.parkPins s old all).lt = s.lt ∧ (State.parkPins s old all).pmb = s.pmb := by
  simp [Core, State.parkPins]
@[simp] theorem State.configure_keep (s old : State) (all : Bool) : Core (State.configure s old all) s ∧
    (State.configure s old all).cfg = s.cfg ∧ (State.configure s old all).jtag = s.jtag ∧ (State.configure s old
    all).lt = s.lt := by
  simp [Core, State.configure]
@[simp] theorem State.enterReady_keep (s : State) : Keep (State.enterReady s) s := by
  simp [Keep, Core, Far, State.enterReady]
@[simp] theorem State.enterRecovery_keep (s : State) : Core (State.enterRecovery s) s ∧ (State.enterRecovery s).camp =
    s.camp ∧ (State.enterRecovery s).gpio = s.gpio ∧ (State.enterRecovery s).jtag = s.jtag ∧ (State.enterRecovery
    s).lt = s.lt ∧ (State.enterRecovery s).pmb = s.pmb := by
  simp [Core, State.enterRecovery]
@[simp] theorem State.slotChoice_keep (s : State) (f : LineFlaws) : Core (State.slotChoice s f) s ∧ (State.slotChoice
    s f).camp = s.camp ∧ (State.slotChoice s f).jtag = s.jtag ∧ (State.slotChoice s f).lt = s.lt := by
  simp only [State.slotChoice]
  (repeat' split) <;> simp [Core]
@[simp] theorem State.s5Ends_keep (s : State) : Core (State.s5Ends s) s ∧ (State.s5Ends s).jtag = s.jtag ∧
    (State.s5Ends s).lt = s.lt := by
  simp [Core, State.s5Ends]
@[simp] theorem State.cfgRefuse_keep (s : State) (c : Nat) : Core (State.cfgRefuse s c) s ∧ (State.cfgRefuse s c).camp
    = s.camp ∧ (State.cfgRefuse s c).gpio = s.gpio ∧ (State.cfgRefuse s c).jtag = s.jtag ∧ (State.cfgRefuse s c).lt =
    s.lt ∧ (State.cfgRefuse s c).pmb = s.pmb := by
  simp [Core, State.cfgRefuse]
@[simp] theorem State.loadReq_keep (s : State) (l : Level) (force : Nat) (both : Bool) : Core (State.loadReq s l force
    both) s ∧ (State.loadReq s l force both).camp = s.camp ∧ (State.loadReq s l force both).gpio = s.gpio ∧
    (State.loadReq s l force both).jtag = s.jtag ∧ (State.loadReq s l force both).lt = s.lt ∧ (State.loadReq s l force
    both).pmb = s.pmb := by
  unfold State.loadReq
  split <;> simp [Core]
@[simp] theorem State.loadPins_keep (s : State) (k : Nat) : Core (State.loadPins s k) s ∧ (State.loadPins s k).camp =
    s.camp ∧ (State.loadPins s k).cfg = s.cfg ∧ (State.loadPins s k).jtag = s.jtag ∧ (State.loadPins s k).lt = s.lt ∧
    (State.loadPins s k).pmb = s.pmb := by
  simp [Core, State.loadPins]
@[simp] theorem State.reloadS5_keep (s : State) (k : Nat) : Core (State.reloadS5 s k) s ∧ (State.reloadS5 s k).camp =
    s.camp ∧ (State.reloadS5 s k).jtag = s.jtag ∧ (State.reloadS5 s k).lt = s.lt := by
  simp [Core, State.reloadS5]
@[simp] theorem State.reloadOk_keep (s : State) : Core (State.reloadOk s) s ∧ (State.reloadOk s).jtag = s.jtag ∧
    (State.reloadOk s).lt = s.lt := by
  simp [Core, State.reloadOk]
@[simp] theorem State.reloadFails_keep (s : State) : Core (State.reloadFails s) s ∧ (State.reloadFails s).camp =
    s.camp ∧ (State.reloadFails s).gpio = s.gpio ∧ (State.reloadFails s).jtag = s.jtag ∧ (State.reloadFails s).lt =
    s.lt ∧ (State.reloadFails s).pmb = s.pmb := by
  simp [Core, State.reloadFails]
@[simp] theorem State.reloadReady_keep (s : State) : Core (State.reloadReady s) s ∧ (State.reloadReady s).jtag =
    s.jtag ∧ (State.reloadReady s).lt = s.lt := by
  simp [Core, State.reloadReady]
@[simp] theorem State.reloadEnds_keep (s : State) (f : LineFlaws) : Core (State.reloadEnds s f) s ∧ (State.reloadEnds
    s f).jtag = s.jtag ∧ (State.reloadEnds s f).lt = s.lt := by
  simp only [State.reloadEnds]
  (repeat' split) <;> simp [Core]
@[simp] theorem State.applyReq_keep (s : State) (l : Level) (both : Bool) : Core (State.applyReq s l both) s ∧
    (State.applyReq s l both).camp = s.camp ∧ (State.applyReq s l both).gpio = s.gpio ∧ (State.applyReq s l both).jtag
    = s.jtag ∧ (State.applyReq s l both).lt = s.lt ∧ (State.applyReq s l both).pmb = s.pmb := by
  unfold State.applyReq
  split <;> simp [Core]
@[simp] theorem State.rebaseMoved_keep (s old : State) : Keep (State.rebaseMoved s old) s := by
  simp [Keep, Core, Far, State.rebaseMoved]
@[simp] theorem State.rtTake_keep (s : State) (m : Img) : Core (State.rtTake s m) s ∧ (State.rtTake s m).camp = s.camp
    ∧ (State.rtTake s m).jtag = s.jtag ∧ (State.rtTake s m).lt = s.lt := by
  simp [Core, State.rtTake]
@[simp] theorem State.rtTick_keep (s : State) : Core (State.rtTick s) s ∧ (State.rtTick s).camp = s.camp ∧
    (State.rtTick s).jtag = s.jtag ∧ (State.rtTick s).lt = s.lt := by
  unfold State.rtTick
  split <;> simp [Core]
@[simp] theorem State.campTick_keep (s : State) : Core (State.campTick s) s ∧ (State.campTick s).cfg = s.cfg ∧
    (State.campTick s).gpio = s.gpio ∧ (State.campTick s).jtag = s.jtag ∧ (State.campTick s).lt = s.lt ∧
    (State.campTick s).pmb = s.pmb := by
  simp [Core, State.campTick]
@[simp] theorem State.rtEnds_keep (s : State) (f : LineFlaws) : Core (State.rtEnds s f) s ∧ (State.rtEnds s f).camp =
    s.camp ∧ (State.rtEnds s f).gpio = s.gpio ∧ (State.rtEnds s f).jtag = s.jtag ∧ (State.rtEnds s f).lt = s.lt ∧
    (State.rtEnds s f).pmb = s.pmb := by
  simp only [State.rtEnds]
  (repeat' split) <;> simp [Core]
@[simp] theorem State.endWork_keep (s : State) : Core (State.endWork s) s ∧ (State.endWork s).jtag = s.jtag ∧
    (State.endWork s).lt = s.lt := by
  simp [Core, State.endWork]
@[simp] theorem State.countTick_keep (s : State) : Keep (State.countTick s) s := by
  simp [Keep, Core, Far, State.countTick]
@[simp] theorem State.endTick_keep (s : State) : Core (State.endTick s) s ∧ (State.endTick s).jtag = s.jtag ∧
    (State.endTick s).lt = s.lt := by
  simp [Core, State.endTick]
@[simp] theorem idle_keep (s : State) : (idle s).pending = s.pending ∧ (idle s).hw = s.hw ∧ (idle s).env.cells = s.env.cells ∧
    (idle s).env.marked = s.env.marked ∧ (idle s).sys.lost = s.sys.lost ∧ (idle s).jtag = s.jtag ∧
    (idle s).lt = s.lt := by
  simp [idle]
@[simp] theorem idle_tb (s : State) : s.sys.tb ≤ (idle s).sys.tb :=
  Nat.le_trans (Nat.le_of_eq (by simp)) (tickPass_tb _)

end Sys2Proof.Machine
end

