-- ==== Sys2Proof/Laws/KeepPorts.lean ====
section
/-! SUPPORT. What the cascade, registers, frames and debug leave as it was (Keep.lean). -/

open Sys2Proof

namespace Sys2Proof.Machine
@[simp] theorem Env.shift_keep (v : Env) (e : Nat) : (Env.shift v e).cells = v.cells ∧ (Env.shift v e).marked =
    v.marked := by
  simp [Env.shift]
@[simp] theorem State.shift_keep (s : State) (e : Nat) : (State.shift s e).pending = s.pending ∧ (State.shift s e).hw
    = s.hw ∧ (State.shift s e).env.cells = s.env.cells ∧ (State.shift s e).env.marked = s.env.marked ∧ (State.shift s
    e).sys.lost = s.sys.lost ∧ (State.shift s e).cfg = s.cfg ∧ (State.shift s e).lt = s.lt := by
  simp [State.shift]
@[simp] theorem State.shift_tb (s : State) (e : Nat) : s.sys.tb ≤ (State.shift s e).sys.tb := by
  simp [State.shift]
@[simp] theorem State.modPortC_keep (s : State) (p : Nat) (f : CasPort → CasPort) : Keep (State.modPortC s p f) s :=
    by
  simp [Keep, Core, Far, State.modPortC]
@[simp] theorem State.portDown_keep (s : State) (p : Nat) : Core (State.portDown s p) s ∧ (State.portDown s p).cfg =
    s.cfg ∧ (State.portDown s p).gpio = s.gpio ∧ (State.portDown s p).jtag = s.jtag ∧ (State.portDown s p).lt = s.lt ∧
    (State.portDown s p).pmb = s.pmb := by
  simp [Core, State.portDown]
@[simp] theorem State.casAck_keep (s : State) (p l : Nat) : Core (State.casAck s p l) s ∧ (State.casAck s p l).cfg =
    s.cfg ∧ (State.casAck s p l).gpio = s.gpio ∧ (State.casAck s p l).jtag = s.jtag ∧ (State.casAck s p l).lt = s.lt ∧
    (State.casAck s p l).pmb = s.pmb := by
  simp [Core, State.casAck]
@[simp] theorem State.casNak_keep (s : State) (p l : Nat) : Core (State.casNak s p l) s ∧ (State.casNak s p l).cfg =
    s.cfg ∧ (State.casNak s p l).gpio = s.gpio ∧ (State.casNak s p l).jtag = s.jtag ∧ (State.casNak s p l).lt = s.lt ∧
    (State.casNak s p l).pmb = s.pmb := by
  unfold State.casNak
  (repeat' split) <;> simp [Core]
@[simp] theorem State.frameBad_keep (s : State) (p why l : Nat) : Core (State.frameBad s p why l) s ∧ (State.frameBad
    s p why l).cfg = s.cfg ∧ (State.frameBad s p why l).gpio = s.gpio ∧ (State.frameBad s p why l).jtag = s.jtag ∧
    (State.frameBad s p why l).lt = s.lt ∧ (State.frameBad s p why l).pmb = s.pmb := by
  simp [Core, State.frameBad]
@[simp] theorem State.rxFrame_pending (s : State) (p l : Nat) (fr : CasFrame) (f : State → State) (h : ∀ t, (f
    t).pending = t.pending) : (State.rxFrame s p l fr f).pending = s.pending := by
  unfold State.rxFrame; (repeat' split) <;> simp [h]
@[simp] theorem State.rxFrame_hw (s : State) (p l : Nat) (fr : CasFrame) (f : State → State) (h : ∀ t, (f t).hw =
    t.hw) : (State.rxFrame s p l fr f).hw = s.hw := by
  unfold State.rxFrame; (repeat' split) <;> simp [h]
@[simp] theorem State.rxFrame_cells (s : State) (p l : Nat) (fr : CasFrame) (f : State → State) (h : ∀ t, (f
    t).env.cells = t.env.cells) : (State.rxFrame s p l fr f).env.cells = s.env.cells := by
  unfold State.rxFrame; (repeat' split) <;> simp [h]
@[simp] theorem State.rxFrame_marked (s : State) (p l : Nat) (fr : CasFrame) (f : State → State) (h : ∀ t, (f
    t).env.marked = t.env.marked) : (State.rxFrame s p l fr f).env.marked = s.env.marked := by
  unfold State.rxFrame; (repeat' split) <;> simp [h]
@[simp] theorem State.rxFrame_tb (s : State) (p l : Nat) (fr : CasFrame) (f : State → State) (h : ∀ t, (f t).sys.tb =
    t.sys.tb) : (State.rxFrame s p l fr f).sys.tb = s.sys.tb := by
  unfold State.rxFrame; (repeat' split) <;> simp [h]
@[simp] theorem State.rxFrame_lost (s : State) (p l : Nat) (fr : CasFrame) (f : State → State) (h : ∀ t, (f
    t).sys.lost = t.sys.lost) : (State.rxFrame s p l fr f).sys.lost = s.sys.lost := by
  unfold State.rxFrame; (repeat' split) <;> simp [h]
@[simp] theorem State.rxFrame_camp (s : State) (p l : Nat) (fr : CasFrame) (f : State → State) (h : ∀ t, (f t).camp =
    t.camp) : (State.rxFrame s p l fr f).camp = s.camp := by
  unfold State.rxFrame; (repeat' split) <;> simp [h]
@[simp] theorem State.rxFrame_cfg (s : State) (p l : Nat) (fr : CasFrame) (f : State → State) (h : ∀ t, (f t).cfg =
    t.cfg) : (State.rxFrame s p l fr f).cfg = s.cfg := by
  unfold State.rxFrame; (repeat' split) <;> simp [h]
@[simp] theorem State.rxFrame_gpio (s : State) (p l : Nat) (fr : CasFrame) (f : State → State) (h : ∀ t, (f t).gpio =
    t.gpio) : (State.rxFrame s p l fr f).gpio = s.gpio := by
  unfold State.rxFrame; (repeat' split) <;> simp [h]
@[simp] theorem State.rxFrame_jtag (s : State) (p l : Nat) (fr : CasFrame) (f : State → State) (h : ∀ t, (f t).jtag =
    t.jtag) : (State.rxFrame s p l fr f).jtag = s.jtag := by
  unfold State.rxFrame; (repeat' split) <;> simp [h]
@[simp] theorem State.rxFrame_lt (s : State) (p l : Nat) (fr : CasFrame) (f : State → State) (h : ∀ t, (f t).lt =
    t.lt) : (State.rxFrame s p l fr f).lt = s.lt := by
  unfold State.rxFrame; (repeat' split) <;> simp [h]
@[simp] theorem State.rxFrame_pmb (s : State) (p l : Nat) (fr : CasFrame) (f : State → State) (h : ∀ t, (f t).pmb =
    t.pmb) : (State.rxFrame s p l fr f).pmb = s.pmb := by
  unfold State.rxFrame; (repeat' split) <;> simp [h]
@[simp] theorem State.rxFrame_wf (s : State) (p l : Nat) (fr : CasFrame) (f : State → State) (h1 : CellsWf
    s.env.cells) (h2 : MarksWf s.env.marked) (h : ∀ t, CellsWf t.env.cells → MarksWf t.env.marked → StoreWf (f t)) :
    StoreWf (State.rxFrame s p l fr f) := by
  unfold State.rxFrame; (repeat' split) <;> simp [StoreWf, h1, h2, h]
@[simp] theorem State.rxFrame_tbLe (s : State) (p l : Nat) (fr : CasFrame) (f : State → State) (h : ∀ t : State,
    t.sys.tb ≤ (f t).sys.tb) : s.sys.tb ≤ (State.rxFrame s p l fr f).sys.tb := by
  unfold State.rxFrame; (repeat' split) <;> first | exact Nat.le_refl _ | exact Nat.le_trans (Nat.le_of_eq (by simp)) (h _)
@[simp] theorem State.acts_pending (s : State) (act : State → State) (h : ∀ t, (act t).pending = t.pending) :
    (State.acts s act).pending = s.pending := by
  unfold State.acts; (repeat' split) <;> simp [h]
@[simp] theorem State.acts_hw (s : State) (act : State → State) (h : ∀ t, (act t).hw = t.hw) : (State.acts s act).hw =
    s.hw := by
  unfold State.acts; (repeat' split) <;> simp [h]
@[simp] theorem State.acts_cells (s : State) (act : State → State) (h : ∀ t, (act t).env.cells = t.env.cells) :
    (State.acts s act).env.cells = s.env.cells := by
  unfold State.acts; (repeat' split) <;> simp [h]
@[simp] theorem State.acts_marked (s : State) (act : State → State) (h : ∀ t, (act t).env.marked = t.env.marked) :
    (State.acts s act).env.marked = s.env.marked := by
  unfold State.acts; (repeat' split) <;> simp [h]
@[simp] theorem State.acts_tb (s : State) (act : State → State) (h : ∀ t, (act t).sys.tb = t.sys.tb) : (State.acts s
    act).sys.tb = s.sys.tb := by
  unfold State.acts; (repeat' split) <;> simp [h]
@[simp] theorem State.acts_lost (s : State) (act : State → State) (h : ∀ t, (act t).sys.lost = t.sys.lost) :
    (State.acts s act).sys.lost = s.sys.lost := by
  unfold State.acts; (repeat' split) <;> simp [h]
@[simp] theorem State.acts_camp (s : State) (act : State → State) (h : ∀ t, (act t).camp = t.camp) : (State.acts s
    act).camp = s.camp := by
  unfold State.acts; (repeat' split) <;> simp [h]
@[simp] theorem State.acts_cfg (s : State) (act : State → State) (h : ∀ t, (act t).cfg = t.cfg) : (State.acts s
    act).cfg = s.cfg := by
  unfold State.acts; (repeat' split) <;> simp [h]
@[simp] theorem State.acts_gpio (s : State) (act : State → State) (h : ∀ t, (act t).gpio = t.gpio) : (State.acts s
    act).gpio = s.gpio := by
  unfold State.acts; (repeat' split) <;> simp [h]
@[simp] theorem State.acts_jtag (s : State) (act : State → State) (h : ∀ t, (act t).jtag = t.jtag) : (State.acts s
    act).jtag = s.jtag := by
  unfold State.acts; (repeat' split) <;> simp [h]
@[simp] theorem State.acts_lt (s : State) (act : State → State) (h : ∀ t, (act t).lt = t.lt) : (State.acts s act).lt =
    s.lt := by
  unfold State.acts; (repeat' split) <;> simp [h]
@[simp] theorem State.acts_pmb (s : State) (act : State → State) (h : ∀ t, (act t).pmb = t.pmb) : (State.acts s
    act).pmb = s.pmb := by
  unfold State.acts; (repeat' split) <;> simp [h]
@[simp] theorem State.acts_wf (s : State) (act : State → State) (h1 : CellsWf s.env.cells) (h2 : MarksWf s.env.marked)
    (h : ∀ t, CellsWf t.env.cells → MarksWf t.env.marked → StoreWf (act t)) : StoreWf (State.acts s act) := by
  unfold State.acts; (repeat' split) <;> simp [StoreWf, h1, h2, h]
@[simp] theorem State.acts_tbLe (s : State) (act : State → State) (h : ∀ t : State, t.sys.tb ≤ (act t).sys.tb) :
    s.sys.tb ≤ (State.acts s act).sys.tb := by
  unfold State.acts; (repeat' split) <;> first | exact Nat.le_refl _ | exact Nat.le_trans (Nat.le_of_eq (by simp)) (h _)
@[simp] theorem State.settleIf_keep (s : State) : Keep (State.settleIf s) s := by
  simp [Keep, Core, Far, State.settleIf]
@[simp] theorem State.enumNext_keep (s : State) : Keep (State.enumNext s) s := by
  unfold State.enumNext
  split <;> simp [Keep, Core, Far]
@[simp] theorem State.portRises_keep (s : State) (p : Nat) : Keep (State.portRises s p) s := by
  simp [Keep, Core, Far, State.portRises]
@[simp] theorem State.casEnumed_keep (s : State) (path depth addr delay : Nat) : Keep (State.casEnumed s path depth
    addr delay) s := by
  simp [Keep, Core, Far, State.casEnumed]
@[simp] theorem State.subsTo_keep (s : State) (a : Nat) : Keep (State.subsTo s a) s := by
  simp [Keep, Core, Far, State.subsTo]
@[simp] theorem State.hearJoin_keep (s : State) (a : Nat) : Keep (State.hearJoin s a) s := by
  simp [Keep, Core, Far, State.hearJoin]
@[simp] theorem State.leaderHello_keep (s : State) (addr variant time delay path depth phase ports : Nat) (refused :
    Bool) : (State.leaderHello s addr variant time delay path depth phase ports refused).pending = s.pending ∧
    (State.leaderHello s addr variant time delay path depth phase ports refused).hw = s.hw ∧ (State.leaderHello s addr
    variant time delay path depth phase ports refused).env.cells = s.env.cells ∧ (State.leaderHello s addr variant
    time delay path depth phase ports refused).env.marked = s.env.marked ∧ (State.leaderHello s addr variant time
    delay path depth phase ports refused).sys.lost = s.sys.lost ∧ (State.leaderHello s addr variant time delay path
    depth phase ports refused).cfg = s.cfg ∧ (State.leaderHello s addr variant time delay path depth phase ports
    refused).lt = s.lt := by
  simp [State.leaderHello]
@[simp] theorem State.leaderHello_tb (s : State) (addr variant time delay path depth phase ports : Nat) (refused : Bool) :
    s.sys.tb ≤ (State.leaderHello s addr variant time delay path depth phase ports refused).sys.tb := by
  unfold State.leaderHello
  extract_lets s1 s2 s3 d new devs cc s4 s5 s6
  have h3 : s.sys.tb ≤ s3.sys.tb := by
    have h2 : s2.sys.tb = s.sys.tb := by simp [s2, s1]
    simp only [s3]
    split
    · exact Nat.le_trans (Nat.le_of_eq h2.symm) (State.shift_tb _ _)
    · exact Nat.le_of_eq h2.symm
  have h5 : s6.sys.tb = s3.sys.tb := by simp only [s6]; split <;> simp [s5]
  split
  · simp [h3]
  · simp [h5, h3]
@[simp] theorem State.timeSend_keep (s : State) : Keep (State.timeSend s) s := by
  simp [Keep, Core, Far, State.timeSend]
@[simp] theorem State.timeGone_keep (s : State) : Keep (State.timeGone s) s := by
  simp [Keep, Core, Far, State.timeGone]
@[simp] theorem State.timeTaken_keep (s : State) (v at_ : Nat) : (State.timeTaken s v at_).pending = s.pending ∧
    (State.timeTaken s v at_).hw = s.hw ∧ (State.timeTaken s v at_).env.cells = s.env.cells ∧ (State.timeTaken s v
    at_).env.marked = s.env.marked ∧ (State.timeTaken s v at_).sys.lost = s.sys.lost ∧ (State.timeTaken s v at_).cfg =
    s.cfg ∧ (State.timeTaken s v at_).lt = s.lt := by
  simp [State.timeTaken]
@[simp] theorem State.timeTaken_tb (s : State) (v at_ : Nat) : s.sys.tb ≤ (State.timeTaken s v at_).sys.tb := by
  unfold State.timeTaken
  dsimp only
  split
  · exact Nat.le_trans (Nat.le_of_eq (by simp)) (State.shift_tb _ _)
  · simp
@[simp] theorem State.railTaken_keep (s : State) (org rail code : Nat) : Keep (State.railTaken s org rail code) s :=
    by
  simp [Keep, Core, Far, State.railTaken]
@[simp] theorem State.toward_pending (s : State) (p dst org : Nat) (f : CasFrame) (act : State → State) (h : ∀ t, (act
    t).pending = t.pending) : (State.toward s p dst org f act).pending = s.pending := by
  unfold State.toward; split
  · simp [h]
  · split <;> simp
@[simp] theorem State.toward_hw (s : State) (p dst org : Nat) (f : CasFrame) (act : State → State) (h : ∀ t, (act
    t).hw = t.hw) : (State.toward s p dst org f act).hw = s.hw := by
  unfold State.toward; split
  · simp [h]
  · split <;> simp
@[simp] theorem State.toward_cells (s : State) (p dst org : Nat) (f : CasFrame) (act : State → State) (h : ∀ t, (act
    t).env.cells = t.env.cells) : (State.toward s p dst org f act).env.cells = s.env.cells := by
  unfold State.toward; split
  · simp [h]
  · split <;> simp
@[simp] theorem State.toward_marked (s : State) (p dst org : Nat) (f : CasFrame) (act : State → State) (h : ∀ t, (act
    t).env.marked = t.env.marked) : (State.toward s p dst org f act).env.marked = s.env.marked := by
  unfold State.toward; split
  · simp [h]
  · split <;> simp
@[simp] theorem State.toward_tb (s : State) (p dst org : Nat) (f : CasFrame) (act : State → State) (h : ∀ t, (act
    t).sys.tb = t.sys.tb) : (State.toward s p dst org f act).sys.tb = s.sys.tb := by
  unfold State.toward; split
  · simp [h]
  · split <;> simp
@[simp] theorem State.toward_lost (s : State) (p dst org : Nat) (f : CasFrame) (act : State → State) (h : ∀ t, (act
    t).sys.lost = t.sys.lost) : (State.toward s p dst org f act).sys.lost = s.sys.lost := by
  unfold State.toward; split
  · simp [h]
  · split <;> simp
@[simp] theorem State.toward_camp (s : State) (p dst org : Nat) (f : CasFrame) (act : State → State) (h : ∀ t, (act
    t).camp = t.camp) : (State.toward s p dst org f act).camp = s.camp := by
  unfold State.toward; split
  · simp [h]
  · split <;> simp
@[simp] theorem State.toward_cfg (s : State) (p dst org : Nat) (f : CasFrame) (act : State → State) (h : ∀ t, (act
    t).cfg = t.cfg) : (State.toward s p dst org f act).cfg = s.cfg := by
  unfold State.toward; split
  · simp [h]
  · split <;> simp
@[simp] theorem State.toward_gpio (s : State) (p dst org : Nat) (f : CasFrame) (act : State → State) (h : ∀ t, (act
    t).gpio = t.gpio) : (State.toward s p dst org f act).gpio = s.gpio := by
  unfold State.toward; split
  · simp [h]
  · split <;> simp
@[simp] theorem State.toward_jtag (s : State) (p dst org : Nat) (f : CasFrame) (act : State → State) (h : ∀ t, (act
    t).jtag = t.jtag) : (State.toward s p dst org f act).jtag = s.jtag := by
  unfold State.toward; split
  · simp [h]
  · split <;> simp
@[simp] theorem State.toward_lt (s : State) (p dst org : Nat) (f : CasFrame) (act : State → State) (h : ∀ t, (act
    t).lt = t.lt) : (State.toward s p dst org f act).lt = s.lt := by
  unfold State.toward; split
  · simp [h]
  · split <;> simp
@[simp] theorem State.toward_pmb (s : State) (p dst org : Nat) (f : CasFrame) (act : State → State) (h : ∀ t, (act
    t).pmb = t.pmb) : (State.toward s p dst org f act).pmb = s.pmb := by
  unfold State.toward; split
  · simp [h]
  · split <;> simp
@[simp] theorem State.toward_wf (s : State) (p dst org : Nat) (f : CasFrame) (act : State → State) (h1 : CellsWf
    s.env.cells) (h2 : MarksWf s.env.marked) (h : ∀ t, CellsWf t.env.cells → MarksWf t.env.marked → StoreWf (act t)) :
    StoreWf (State.toward s p dst org f act) := by
  unfold State.toward; split
  · exact State.acts_wf _ _ h1 h2 h
  · split <;> simp [StoreWf, h1, h2]
@[simp] theorem State.toward_tbLe (s : State) (p dst org : Nat) (f : CasFrame) (act : State → State) (h : ∀ t : State,
    t.sys.tb ≤ (act t).sys.tb) : s.sys.tb ≤ (State.toward s p dst org f act).sys.tb := by
  unfold State.toward; split
  · exact State.acts_tbLe _ _ h
  · split <;> simp
@[simp] theorem State.subTaken_keep (s : State) (org rail : Nat) (on : Bool) : Keep (State.subTaken s org rail on) s
    := by
  unfold State.subTaken
  (repeat' split) <;> simp [Keep, Core, Far]
@[simp] theorem State.lostTaken_keep (s : State) (p : Nat) (l : List Nat) : Core (State.lostTaken s p l) s ∧
    (State.lostTaken s p l).cfg = s.cfg ∧ (State.lostTaken s p l).gpio = s.gpio ∧ (State.lostTaken s p l).jtag =
    s.jtag ∧ (State.lostTaken s p l).lt = s.lt ∧ (State.lostTaken s p l).pmb = s.pmb := by
  simp [Core, State.lostTaken]
@[simp] theorem State.orphanRow_keep (s : State) : Keep (State.orphanRow s) s := by
  simp [Keep, Core, Far, State.orphanRow]
@[simp] theorem State.domTaken_keep (s : State) (on : Bool) (phase act : Nat) : Keep (State.domTaken s on phase act) s
    := by
  simp [Keep, Core, Far, State.domTaken]
@[simp] theorem State.domTimeout_keep (s : State) : Keep (State.domTimeout s) s := by
  unfold State.domTimeout
  split <;> simp [Keep, Core, Far]
@[simp] theorem State.stateTaken_keep (s : State) (org seq : Nat) : Keep (State.stateTaken s org seq) s := by
  simp [Keep, Core, Far, State.stateTaken]
@[simp] theorem State.domCtl_keep (s : State) (l : Level) (on off : Bool) : Keep (State.domCtl s l on off) s := by
  simp [Keep, Core, Far, State.domCtl]
@[simp] theorem State.faultTaken_keep (s : State) (org src level : Nat) (safe : Bool) (stamp : Nat) : Keep
    (State.faultTaken s org src level safe stamp) s := by
  simp [Keep, Core, Far, State.faultTaken]
@[simp] theorem State.eqxView_keep (s : State) (t : Nat) (cnt : Bool) : Keep (State.eqxView s t cnt) s := by
  simp [Keep, Core, Far, State.eqxView]
@[simp] theorem State.eqxTaken_keep (s : State) (t : Nat) (cnt : Bool) : Keep (State.eqxTaken s t cnt) s := by
  simp [Keep, Core, Far, State.eqxTaken]
@[simp] theorem State.eqxGo_keep (s : State) (l : Level) (cnt : Bool) : Keep (State.eqxGo s l cnt) s := by
  simp [Keep, Core, Far, State.eqxGo]
@[simp] theorem State.resetTaken_keep (s : State) (dst : Nat) : Keep (State.resetTaken s dst) s := by
  simp [Keep, Core, Far, State.resetTaken]
@[simp] theorem State.casCtl_keep (s : State) (l : Level) (t : Nat) : Keep (State.casCtl s l t) s := by
  simp [Keep, Core, Far, State.casCtl]
@[simp] theorem State.laneTest_keep (s : State) (lane : Nat) : Keep (State.laneTest s lane) s := by
  simp [Keep, Core, Far, State.laneTest]
@[simp] theorem State.ltMove_keep (s : State) (t : Nat) (off : Bool) : Keep (State.ltMove s t off) s := by
  simp [Keep, Core, Far, State.ltMove]
@[simp] theorem State.modLt_keep (s : State) (t : Nat) (f : Lt → Lt) : Core (State.modLt s t f) s ∧ (State.modLt s t
    f).camp = s.camp ∧ (State.modLt s t f).cfg = s.cfg ∧ (State.modLt s t f).gpio = s.gpio ∧ (State.modLt s t f).jtag
    = s.jtag ∧ (State.modLt s t f).pmb = s.pmb := by
  simp [Core, State.modLt]
@[simp] theorem State.ltMode_keep (s : State) (t mode poly : Nat) : Core (State.ltMode s t mode poly) s ∧
    (State.ltMode s t mode poly).camp = s.camp ∧ (State.ltMode s t mode poly).cfg = s.cfg ∧ (State.ltMode s t mode
    poly).gpio = s.gpio ∧ (State.ltMode s t mode poly).jtag = s.jtag ∧ (State.ltMode s t mode poly).pmb = s.pmb := by
  simp [Core, State.ltMode]
@[simp] theorem State.ltWrite_keep (s : State) (l : Level) (t mode poly : Nat) (inj clr : Bool) : Core (State.ltWrite
    s l t mode poly inj clr) s ∧ (State.ltWrite s l t mode poly inj clr).camp = s.camp ∧ (State.ltWrite s l t mode
    poly inj clr).cfg = s.cfg ∧ (State.ltWrite s l t mode poly inj clr).gpio = s.gpio ∧ (State.ltWrite s l t mode poly
    inj clr).jtag = s.jtag ∧ (State.ltWrite s l t mode poly inj clr).pmb = s.pmb := by
  simp [Core, State.ltWrite]
@[simp] theorem State.ltCheck_keep (s : State) (t good errors window : Nat) : Core (State.ltCheck s t good errors
    window) s ∧ (State.ltCheck s t good errors window).camp = s.camp ∧ (State.ltCheck s t good errors window).cfg =
    s.cfg ∧ (State.ltCheck s t good errors window).gpio = s.gpio ∧ (State.ltCheck s t good errors window).jtag =
    s.jtag ∧ (State.ltCheck s t good errors window).pmb = s.pmb := by
  simp [Core, State.ltCheck]
@[simp] theorem State.putSys_keep (s : State) (l : Level) (o : Nat) (w : Word) : Keep (State.putSys s l o w) s := by
  unfold State.putSys
  generalize putPair s.sys.viewAt (o - 0x024) w = pm
  split <;> (try split) <;> simp [Keep, Core, Far]
@[simp] theorem State.putPwr_keep (s : State) (l : Level) (o : Nat) (w : Word) : Core (State.putPwr s l o w) s ∧
    (State.putPwr s l o w).camp = s.camp ∧ (State.putPwr s l o w).cfg = s.cfg ∧ (State.putPwr s l o w).gpio = s.gpio ∧
    (State.putPwr s l o w).jtag = s.jtag ∧ (State.putPwr s l o w).lt = s.lt := by
  unfold State.putPwr
  split <;> simp [Core]
@[simp] theorem State.putSeq_keep (s : State) (l : Level) (o : Nat) (w : Word) : Keep (State.putSeq s l o w) s := by
  unfold State.putSeq
  split <;> simp [Keep, Core, Far]
@[simp] theorem State.putMgn_keep (s : State) (n : Nat) (l : Level) (w : Word) : Core (State.putMgn s n l w) s ∧
    (State.putMgn s n l w).camp = s.camp ∧ (State.putMgn s n l w).cfg = s.cfg ∧ (State.putMgn s n l w).gpio = s.gpio ∧
    (State.putMgn s n l w).jtag = s.jtag ∧ (State.putMgn s n l w).lt = s.lt := by
  unfold State.putMgn
  split <;> simp [Core]
@[simp] theorem State.putChan_keep (s : State) (n : Nat) (l : Level) (o : Nat) (w : Word) : Core (State.putChan s n l
    o w) s ∧ (State.putChan s n l o w).camp = s.camp ∧ (State.putChan s n l o w).cfg = s.cfg ∧ (State.putChan s n l o
    w).gpio = s.gpio ∧ (State.putChan s n l o w).jtag = s.jtag ∧ (State.putChan s n l o w).lt = s.lt := by
  unfold State.putChan
  split <;> simp [Core]
@[simp] theorem State.putCh_keep (s : State) (l : Level) (o : Nat) (w : Word) : Core (State.putCh s l o w) s ∧
    (State.putCh s l o w).cfg = s.cfg ∧ (State.putCh s l o w).gpio = s.gpio ∧ (State.putCh s l o w).jtag = s.jtag ∧
    (State.putCh s l o w).lt = s.lt := by
  unfold State.putCh
  (repeat' split) <;> simp [Core]
@[simp] theorem State.putFlt_keep (s : State) (l : Level) (o : Nat) (w : Word) : Keep (State.putFlt s l o w) s := by
  unfold State.putFlt
  split <;> simp [Keep, Core, Far]
@[simp] theorem State.putWdg_keep (s : State) (l : Level) (o : Nat) (w : Word) : Keep (State.putWdg s l o w) s := by
  unfold State.putWdg
  split <;> simp [Keep, Core, Far]
@[simp] theorem State.putPort_keep (s : State) (p o : Nat) (w : Word) : Core (State.putPort s p o w) s ∧
    (State.putPort s p o w).camp = s.camp ∧ (State.putPort s p o w).cfg = s.cfg ∧ (State.putPort s p o w).jtag =
    s.jtag ∧ (State.putPort s p o w).lt = s.lt ∧ (State.putPort s p o w).pmb = s.pmb := by
  unfold State.putPort
  split <;> simp [Core]
@[simp] theorem State.putSel_keep (s : State) (k : Nat) (w : Word) : Core (State.putSel s k w) s ∧ (State.putSel s k
    w).camp = s.camp ∧ (State.putSel s k w).cfg = s.cfg ∧ (State.putSel s k w).jtag = s.jtag ∧ (State.putSel s k w).lt
    = s.lt ∧ (State.putSel s k w).pmb = s.pmb := by
  simp [Core, State.putSel]
@[simp] theorem State.putGpio_keep (s : State) (o : Nat) (w : Word) : Core (State.putGpio s o w) s ∧ (State.putGpio s
    o w).camp = s.camp ∧ (State.putGpio s o w).cfg = s.cfg ∧ (State.putGpio s o w).jtag = s.jtag ∧ (State.putGpio s o
    w).lt = s.lt ∧ (State.putGpio s o w).pmb = s.pmb := by
  unfold State.putGpio
  (repeat' split) <;> simp [Core]
@[simp] theorem State.putLeafEv_keep (s : State) (k : Nat) (w : Word) : Keep (State.putLeafEv s k w) s := by
  simp [Keep, Core, Far, State.putLeafEv]
@[simp] theorem State.putCnt_keep (s : State) (o : Nat) (w : Word) : Keep (State.putCnt s o w) s := by
  simp only [State.putCnt]
  (repeat' split) <;> simp [Keep, Core, Far]
@[simp] theorem State.putHld_keep (s : State) (l : Level) (o : Nat) (w : Word) : Keep (State.putHld s l o w) s := by
  unfold State.putHld
  split <;> simp [Keep, Core, Far]
@[simp] theorem State.putLc_keep (s : State) (l : Level) (w : Word) : (State.putLc s l w).pending = s.pending ∧
    (State.putLc s l w).hw = s.hw ∧ (State.putLc s l w).sys.tb = s.sys.tb ∧ (State.putLc s l w).sys.lost = s.sys.lost
    ∧ Far (State.putLc s l w) s := by
  unfold State.putLc
  split <;> simp [Far]
@[simp] theorem State.putLc_wf (s : State) (l : Level) (w : Word) : CellsWf s.env.cells → MarksWf s.env.marked →
    StoreWf (State.putLc s l w) := by
  intro h1 h2
  unfold State.putLc
  split <;> simp [StoreWf, h1, h2]
@[simp] theorem State.putKey_keep (s : State) (l : Level) (w : Word) : (State.putKey s l w).pending = s.pending ∧
    (State.putKey s l w).hw = s.hw ∧ (State.putKey s l w).env.cells = s.env.cells ∧ (State.putKey s l w).sys.tb =
    s.sys.tb ∧ (State.putKey s l w).sys.lost = s.sys.lost ∧ Far (State.putKey s l w) s := by
  unfold State.putKey
  split <;> simp [Far]
@[simp] theorem State.putKey_wf (s : State) (l : Level) (w : Word) : CellsWf s.env.cells → MarksWf s.env.marked →
    StoreWf (State.putKey s l w) := by
  intro h1 h2
  unfold State.putKey
  split <;> simp [StoreWf, h1, h2]
@[simp] theorem State.putSec_keep (s : State) (l : Level) (o : Nat) (w : Word) : (State.putSec s l o w).pending =
    s.pending ∧ (State.putSec s l o w).hw = s.hw ∧ (State.putSec s l o w).sys.tb = s.sys.tb ∧ (State.putSec s l o
    w).sys.lost = s.sys.lost ∧ Far (State.putSec s l o w) s := by
  unfold State.putSec
  (repeat' split) <;> simp [Far]
@[simp] theorem State.putSec_wf (s : State) (l : Level) (o : Nat) (w : Word) : CellsWf s.env.cells → MarksWf
    s.env.marked → StoreWf (State.putSec s l o w) := by
  intro h1 h2
  unfold State.putSec
  (repeat' split) <;> simp [StoreWf, h1, h2]
@[simp] theorem State.putAcc_keep (s : State) (l : Level) (w : Word) (f : LineFlaws) : Keep (State.putAcc s l w f) s
    := by
  unfold State.putAcc
  split <;> simp [Keep, Core, Far]
@[simp] theorem State.putEnv_keep (s : State) (l : Level) (o : Nat) (w : Word) (f : LineFlaws) :
    (State.putEnv s l o w f).pending = s.pending ∧ (State.putEnv s l o w f).hw = s.hw ∧ (State.putEnv s l o w f).sys.tb =
    s.sys.tb ∧
    (State.putEnv s l o w f).sys.lost = s.sys.lost ∧ Far (State.putEnv s l o w f) s := by
  unfold State.putEnv
  generalize putPair s.env.accMask (o - 0x038) w = pm
  split
  · simp [Far]
  · split <;> (try split) <;> simp [Far]
@[simp] theorem State.putEnv_wf (s : State) (l : Level) (o : Nat) (w : Word) (f : LineFlaws) (h1 : CellsWf s.env.cells)
    (h2 : MarksWf s.env.marked) : StoreWf (State.putEnv s l o w f) := by
  unfold State.putEnv
  generalize putPair s.env.accMask (o - 0x038) w = pm
  split
  · simp [StoreWf, h1, h2]
  · split <;> (try split) <;> simp [StoreWf, h1, h2]
@[simp] theorem State.putBbx_keep (s : State) (l : Level) (o : Nat) (w : Word) : Keep (State.putBbx s l o w) s := by
  unfold State.putBbx
  split <;> simp [Keep, Core, Far]
@[simp] theorem State.putCfg_keep (s : State) (l : Level) (o : Nat) (w : Word) : Core (State.putCfg s l o w) s ∧
    (State.putCfg s l o w).camp = s.camp ∧ (State.putCfg s l o w).gpio = s.gpio ∧ (State.putCfg s l o w).jtag = s.jtag
    ∧ (State.putCfg s l o w).lt = s.lt ∧ (State.putCfg s l o w).pmb = s.pmb := by
  unfold State.putCfg
  split <;> simp [Core]
@[simp] theorem State.putCas_keep (s : State) (l : Level) (o : Nat) (w : Word) : Keep (State.putCas s l o w) s := by
  unfold State.putCas
  split <;> simp [Keep, Core, Far]
@[simp] theorem State.putLnk_keep (s : State) (l : Level) (o : Nat) (w : Word) : Core (State.putLnk s l o w) s ∧
    (State.putLnk s l o w).camp = s.camp ∧ (State.putLnk s l o w).cfg = s.cfg ∧ (State.putLnk s l o w).gpio = s.gpio ∧
    (State.putLnk s l o w).jtag = s.jtag := by
  unfold State.putLnk
  (repeat' split) <;> simp [Core]
@[simp] theorem State.putReg_keep (s : State) (l : Level) (a : Nat) (w : Word) (f : LineFlaws) : (State.putReg s l a w
    f).pending = s.pending ∧ (State.putReg s l a w f).hw = s.hw ∧ (State.putReg s l a w f).sys.tb = s.sys.tb ∧
    (State.putReg s l a w f).sys.lost = s.sys.lost ∧ (State.putReg s l a w f).jtag = s.jtag := by
  simp only [State.putReg]
  (repeat' split) <;> simp
@[simp] theorem State.putReg_wf (s : State) (l : Level) (a : Nat) (w : Word) (f : LineFlaws) : CellsWf s.env.cells →
    MarksWf s.env.marked → StoreWf (State.putReg s l a w f) := by
  intro h1 h2
  simp only [State.putReg]
  (repeat' split) <;> simp [StoreWf, h1, h2]
@[simp] theorem State.setOutcome_keep (s : State) (a v : Nat) : Core (State.setOutcome s a v) s ∧ (State.setOutcome s
    a v).jtag = s.jtag := by
  unfold State.setOutcome
  (repeat' split) <;> simp [Core]
@[simp] theorem State.putTraced_keep (s : State) (l : Level) (a : Nat) (w : Word) (f : LineFlaws) : (State.putTraced s
    l a w f).1.pending = s.pending ∧ (State.putTraced s l a w f).1.hw = s.hw ∧ (State.putTraced s l a w f).1.sys.tb =
    s.sys.tb ∧ (State.putTraced s l a w f).1.sys.lost = s.sys.lost ∧ (State.putTraced s l a w f).1.jtag = s.jtag := by
  simp only [State.putTraced]
  (repeat' split) <;> simp
@[simp] theorem State.putTraced_wf (s : State) (l : Level) (a : Nat) (w : Word) (f : LineFlaws) : CellsWf s.env.cells
    → MarksWf s.env.marked → StoreWf (State.putTraced s l a w f).1 := by
  intro h1 h2
  simp only [State.putTraced]
  (repeat' split) <;> simp [StoreWf, h1, h2]
@[simp] theorem State.readEffect_keep (s : State) (a : Nat) : Keep (State.readEffect s a) s := by
  simp [Keep, Core, Far, State.readEffect]
@[simp] theorem State.idleEnds_keep (s : State) : Keep (State.idleEnds s) s := by
  simp [Keep, Core, Far, State.idleEnds]
@[simp] theorem State.nonceEnds_keep (s : State) : Keep (State.nonceEnds s) s := by
  simp [Keep, Core, Far, State.nonceEnds]
@[simp] theorem State.lockoutEnds_keep (s : State) : Keep (State.lockoutEnds s) s := by
  unfold State.lockoutEnds
  split <;> simp [Keep, Core, Far]
@[simp] theorem State.hmpDue_keep (s : State) : Keep (State.hmpDue s) s := by
  simp [Keep, Core, Far, State.hmpDue]
@[simp] theorem State.badFrame_keep (s : State) (status bytes : Nat) : Keep (State.badFrame s status bytes) s := by
  simp [Keep, Core, Far, State.badFrame]
@[simp] theorem State.request_pending (s : State) (r : Req) (early : Nat) (late : State → Nat) (act : State → State)
    (h : ∀ t, (act t).pending = t.pending) : (State.request s r early late act).pending = s.pending := by
  unfold State.request; dsimp only
  (repeat' split) <;> simp [h]
@[simp] theorem State.request_hw (s : State) (r : Req) (early : Nat) (late : State → Nat) (act : State → State) (h : ∀
    t, (act t).hw = t.hw) : (State.request s r early late act).hw = s.hw := by
  unfold State.request; dsimp only
  (repeat' split) <;> simp [h]
@[simp] theorem State.request_cells (s : State) (r : Req) (early : Nat) (late : State → Nat) (act : State → State) (h
    : ∀ t, (act t).env.cells = t.env.cells) : (State.request s r early late act).env.cells = s.env.cells := by
  unfold State.request; dsimp only
  (repeat' split) <;> simp [h]
@[simp] theorem State.request_marked (s : State) (r : Req) (early : Nat) (late : State → Nat) (act : State → State) (h
    : ∀ t, (act t).env.marked = t.env.marked) : (State.request s r early late act).env.marked = s.env.marked := by
  unfold State.request; dsimp only
  (repeat' split) <;> simp [h]
@[simp] theorem State.request_tb (s : State) (r : Req) (early : Nat) (late : State → Nat) (act : State → State) (h : ∀
    t, (act t).sys.tb = t.sys.tb) : (State.request s r early late act).sys.tb = s.sys.tb := by
  unfold State.request; dsimp only
  (repeat' split) <;> simp [h]
@[simp] theorem State.request_lost (s : State) (r : Req) (early : Nat) (late : State → Nat) (act : State → State) (h :
    ∀ t, (act t).sys.lost = t.sys.lost) : (State.request s r early late act).sys.lost = s.sys.lost := by
  unfold State.request; dsimp only
  (repeat' split) <;> simp [h]
@[simp] theorem State.request_camp (s : State) (r : Req) (early : Nat) (late : State → Nat) (act : State → State) (h :
    ∀ t, (act t).camp = t.camp) : (State.request s r early late act).camp = s.camp := by
  unfold State.request; dsimp only
  (repeat' split) <;> simp [h]
@[simp] theorem State.request_cfg (s : State) (r : Req) (early : Nat) (late : State → Nat) (act : State → State) (h :
    ∀ t, (act t).cfg = t.cfg) : (State.request s r early late act).cfg = s.cfg := by
  unfold State.request; dsimp only
  (repeat' split) <;> simp [h]
@[simp] theorem State.request_gpio (s : State) (r : Req) (early : Nat) (late : State → Nat) (act : State → State) (h :
    ∀ t, (act t).gpio = t.gpio) : (State.request s r early late act).gpio = s.gpio := by
  unfold State.request; dsimp only
  (repeat' split) <;> simp [h]
@[simp] theorem State.request_jtag (s : State) (r : Req) (early : Nat) (late : State → Nat) (act : State → State) (h :
    ∀ t, (act t).jtag = t.jtag) : (State.request s r early late act).jtag = s.jtag := by
  unfold State.request; dsimp only
  (repeat' split) <;> simp [h]
@[simp] theorem State.request_lt (s : State) (r : Req) (early : Nat) (late : State → Nat) (act : State → State) (h : ∀
    t, (act t).lt = t.lt) : (State.request s r early late act).lt = s.lt := by
  unfold State.request; dsimp only
  (repeat' split) <;> simp [h]
@[simp] theorem State.request_pmb (s : State) (r : Req) (early : Nat) (late : State → Nat) (act : State → State) (h :
    ∀ t, (act t).pmb = t.pmb) : (State.request s r early late act).pmb = s.pmb := by
  unfold State.request; dsimp only
  (repeat' split) <;> simp [h]
@[simp] theorem State.request_wf (s : State) (r : Req) (early : Nat) (late : State → Nat) (act : State → State) (h1 :
    CellsWf s.env.cells) (h2 : MarksWf s.env.marked) (h : ∀ t, CellsWf t.env.cells → MarksWf t.env.marked → StoreWf
    (act t)) : StoreWf (State.request s r early late act) := by
  unfold State.request; dsimp only
  (repeat' split) <;> simp [StoreWf, h1, h2, h]
@[simp] theorem State.request_tbLe (s : State) (r : Req) (early : Nat) (late : State → Nat) (act : State → State) (h :
    ∀ t : State, t.sys.tb ≤ (act t).sys.tb) : s.sys.tb ≤ (State.request s r early late act).sys.tb := by
  unfold State.request; dsimp only
  split
  · simp
  · rw [(State.wakeEvent_keep _ _).1.2.2.2.2.1]
    split
    · simp
    · split
      · simp
      · split
        · exact Nat.le_trans (Nat.le_of_eq (by simp)) (h _)
        · simp
/-- What an idle step with the queue set aside leaves, and that it does not take the timebase back. -/
abbrev Passes (t s : State) : Prop :=
  t.pending = s.pending ∧ t.hw = s.hw ∧ t.env.cells = s.env.cells ∧ t.env.marked = s.env.marked ∧ t.sys.lost = s.sys.lost
    ∧ t.jtag = s.jtag ∧ t.lt = s.lt ∧ s.sys.tb ≤ t.sys.tb
theorem Passes.trans' {a b c : State} (h : Passes a b) (k : Passes b c) : Passes a c := by
  obtain ⟨h1, h2, h3, h4, h5, h6, h7, h8⟩ := h
  obtain ⟨k1, k2, k3, k4, k5, k6, k7, k8⟩ := k
  exact ⟨h1.trans k1, h2.trans k2, h3.trans k3, h4.trans k4, h5.trans k5, h6.trans k6, h7.trans k7, Nat.le_trans k8 h8⟩
theorem Passes.requeue {t s : State} (h : Passes t { s with pending := [] }) : Passes { t with pending := s.pending } s :=
  ⟨rfl, h.2⟩
theorem idle_passes (s : State) : Passes (idle s) s :=
  have h := idle_keep s
  ⟨h.1, h.2.1, h.2.2.1, h.2.2.2.1, h.2.2.2.2.1, h.2.2.2.2.2.1, h.2.2.2.2.2.2, idle_tb s⟩
theorem State.readEffect_passes (s : State) (a : Nat) : Passes (State.readEffect s a) s :=
  ⟨by simp, by simp, by simp, by simp, by simp, by simp, by simp, Nat.le_of_eq (by simp)⟩
theorem State.readRegs_passes (as : List Nat) (s : State) (first : Bool) (acc : List Word) :
    Passes (State.readRegs s as first acc).1 s := by
  induction as generalizing s first acc with
  | nil => exact ⟨rfl, rfl, rfl, rfl, rfl, rfl, rfl, Nat.le_refl _⟩
  | cons a r ih =>
    have h : Passes (if first then s else { idle { s with pending := [] } with pending := s.pending }) s := by
      cases first
      · exact (idle_passes _).requeue
      · exact ⟨rfl, rfl, rfl, rfl, rfl, rfl, rfl, Nat.le_refl _⟩
    rw [State.readRegs]
    generalize (if first then s else { idle { s with pending := [] } with pending := s.pending }) = t at h ⊢
    exact ((ih _ _ _).trans' (State.readEffect_passes t a)).trans' h
theorem State.readAct_passes (as : List Nat) (s : State) : Passes (State.readAct as s) s := by
  have h := State.readRegs_passes as s true []
  exact ⟨h.1, h.2.1, h.2.2.1, h.2.2.2.1, h.2.2.2.2.1, h.2.2.2.2.2.1, h.2.2.2.2.2.2.1, h.2.2.2.2.2.2.2⟩
@[simp] theorem State.readAct_keep (as : List Nat) (s : State) :
    (State.readAct as s).pending = s.pending ∧ (State.readAct as s).hw = s.hw ∧ (State.readAct as s).env.cells = s.env.cells ∧
    (State.readAct as s).env.marked = s.env.marked ∧ (State.readAct as s).sys.lost = s.sys.lost ∧
    (State.readAct as s).jtag = s.jtag ∧ (State.readAct as s).lt = s.lt ∧
    s.sys.tb ≤ (State.readAct as s).sys.tb := State.readAct_passes as s
/-- A write's effect on what this file follows: the store stays in canonical form. -/
abbrev Writes (t s : State) : Prop :=
  t.pending = s.pending ∧ t.hw = s.hw ∧ t.sys.tb = s.sys.tb ∧ t.sys.lost = s.sys.lost ∧ t.jtag = s.jtag
    ∧ (CellsWf s.env.cells → MarksWf s.env.marked → StoreWf t)
theorem Writes.trans' {a b c : State} (h : Writes a b) (k : Writes b c) : Writes a c := by
  obtain ⟨h1, h2, h3, h4, h5, h6⟩ := h
  obtain ⟨k1, k2, k3, k4, k5, k6⟩ := k
  exact ⟨h1.trans k1, h2.trans k2, h3.trans k3, h4.trans k4, h5.trans k5, fun a b => h6 (k6 a b).1 (k6 a b).2⟩
theorem State.writeRegs_writes (l : Level) (f : LineFlaws) (regs : List (Nat × Word)) (s : State) (d : Nat) :
    Writes (State.writeRegs l f s regs d).1 s := by
  induction regs generalizing s d with
  | nil => exact ⟨rfl, rfl, rfl, rfl, rfl, fun a b => ⟨a, b⟩⟩
  | cons x r ih =>
    refine Writes.trans' (ih _ _) ?_
    exact ⟨by simp, by simp, by simp, by simp, by simp, State.putTraced_wf _ _ _ _ _⟩
theorem State.writeAct_writes (regs : List (Nat × Word)) (f : LineFlaws) (s : State) : Writes (State.writeAct regs f s) s := by
  unfold State.writeAct
  split
  · exact ⟨rfl, rfl, rfl, rfl, rfl, fun a b => ⟨a, b⟩⟩
  · exact State.writeRegs_writes _ f regs s 0
@[simp] theorem State.writeAct_keep (regs : List (Nat × Word)) (f : LineFlaws) (s : State) :
    (State.writeAct regs f s).pending = s.pending ∧ (State.writeAct regs f s).hw = s.hw ∧
    (State.writeAct regs f s).sys.tb = s.sys.tb ∧ (State.writeAct regs f s).sys.lost = s.sys.lost ∧
    (State.writeAct regs f s).jtag = s.jtag :=
  have h := State.writeAct_writes regs f s
  ⟨h.1, h.2.1, h.2.2.1, h.2.2.2.1, h.2.2.2.2.1⟩
@[simp] theorem State.writeAct_wf (regs : List (Nat × Word)) (f : LineFlaws) (s : State) (h1 : CellsWf s.env.cells)
    (h2 : MarksWf s.env.marked) : StoreWf (State.writeAct regs f s) := (State.writeAct_writes regs f s).2.2.2.2.2 h1 h2
@[simp] theorem State.resendAct_keep (s : State) : Keep (State.resendAct s) s := by
  simp [Keep, Core, Far, State.resendAct]
@[simp] theorem State.chalAct_keep (l : Level) (s : State) : Keep (State.chalAct l s) s := by
  simp [Keep, Core, Far, State.chalAct]
@[simp] theorem State.openFails_keep (s : State) : Keep (State.openFails s) s := by
  simp [Keep, Core, Far, State.openFails]
@[simp] theorem State.openAct_keep (l : Level) (mac : List Byte) (s : State) : Keep (State.openAct l mac s) s := by
  simp only [State.openAct]
  (repeat' split) <;> simp [Keep, Core, Far]
@[simp] theorem State.closeAct_keep (s : State) : Keep (State.closeAct s) s := by
  simp [Keep, Core, Far, State.closeAct]
@[simp] theorem State.ecmd_keep (s : State) (cmd : Nat) : Keep (State.ecmd s cmd) s := by
  simp [Keep, Core, Far, State.ecmd]
@[simp] theorem State.byteTimeout_keep (s : State) : Keep (State.byteTimeout s) s := by
  simp [Keep, Core, Far, State.byteTimeout]
@[simp] theorem State.takeIr_keep (s : State) (i : JtagIr) : Core (State.takeIr s i) s ∧ (State.takeIr s i).camp =
    s.camp ∧ (State.takeIr s i).cfg = s.cfg ∧ (State.takeIr s i).lt = s.lt ∧ (State.takeIr s i).pmb = s.pmb := by
  simp [Core, State.takeIr]
@[simp] theorem State.shiftOut_keep (s : State) (d : Nat) : Core (State.shiftOut s d) s ∧ (State.shiftOut s d).camp =
    s.camp ∧ (State.shiftOut s d).cfg = s.cfg ∧ (State.shiftOut s d).gpio = s.gpio ∧ (State.shiftOut s d).lt = s.lt ∧
    (State.shiftOut s d).pmb = s.pmb := by
  simp [Core, State.shiftOut]
@[simp] theorem State.padSeen_keep (s : State) (pads : List (BitVec 16)) (p : Nat) : Core (State.padSeen s pads p) s ∧
    (State.padSeen s pads p).camp = s.camp ∧ (State.padSeen s pads p).cfg = s.cfg ∧ (State.padSeen s pads p).jtag =
    s.jtag ∧ (State.padSeen s pads p).lt = s.lt ∧ (State.padSeen s pads p).pmb = s.pmb := by
  simp [Core, State.padSeen]
@[simp] theorem State.sample_keep (s : State) (pads : List (BitVec 16)) : Core (State.sample s pads) s ∧ (State.sample
    s pads).camp = s.camp ∧ (State.sample s pads).cfg = s.cfg ∧ (State.sample s pads).lt = s.lt ∧ (State.sample s
    pads).pmb = s.pmb := by
  cases pads <;> simp [Core, State.sample]
@[simp] theorem State.scan_keep (s : State) (i : JtagIr) : Core (State.scan s i) s ∧ (State.scan s i).camp = s.camp ∧
    (State.scan s i).cfg = s.cfg ∧ (State.scan s i).lt = s.lt ∧ (State.scan s i).pmb = s.pmb := by
  simp [Core, State.scan]
@[simp] theorem State.dbgToOff_keep (s : State) : Core (State.dbgToOff s) s ∧ (State.dbgToOff s).camp = s.camp ∧
    (State.dbgToOff s).cfg = s.cfg ∧ (State.dbgToOff s).jtag = s.jtag ∧ (State.dbgToOff s).lt = s.lt ∧ (State.dbgToOff
    s).pmb = s.pmb := by
  simp [Core, State.dbgToOff]
@[simp] theorem State.dbgNonceEnds_keep (s : State) : Core (State.dbgNonceEnds s) s ∧ (State.dbgNonceEnds s).camp =
    s.camp ∧ (State.dbgNonceEnds s).cfg = s.cfg ∧ (State.dbgNonceEnds s).gpio = s.gpio ∧ (State.dbgNonceEnds s).lt =
    s.lt ∧ (State.dbgNonceEnds s).pmb = s.pmb := by
  simp [Core, State.dbgNonceEnds]
@[simp] theorem State.dbgLockEnds_keep (s : State) : Core (State.dbgLockEnds s) s ∧ (State.dbgLockEnds s).camp =
    s.camp ∧ (State.dbgLockEnds s).cfg = s.cfg ∧ (State.dbgLockEnds s).gpio = s.gpio ∧ (State.dbgLockEnds s).lt = s.lt
    ∧ (State.dbgLockEnds s).pmb = s.pmb := by
  unfold State.dbgLockEnds
  split <;> simp [Core]
@[simp] theorem State.dbgLockPast_keep (s : State) : Core (State.dbgLockPast s) s ∧ (State.dbgLockPast s).camp =
    s.camp ∧ (State.dbgLockPast s).cfg = s.cfg ∧ (State.dbgLockPast s).gpio = s.gpio ∧ (State.dbgLockPast s).lt = s.lt
    ∧ (State.dbgLockPast s).pmb = s.pmb := by
  simp [Core, State.dbgLockPast]
@[simp] theorem State.dbgNonce_keep (s : State) : Core (State.dbgNonce s) s ∧ (State.dbgNonce s).camp = s.camp ∧
    (State.dbgNonce s).cfg = s.cfg ∧ (State.dbgNonce s).lt = s.lt ∧ (State.dbgNonce s).pmb = s.pmb := by
  simp [Core, State.dbgNonce]
@[simp] theorem State.dbgFails_keep (s : State) : Core (State.dbgFails s) s ∧ (State.dbgFails s).camp = s.camp ∧
    (State.dbgFails s).cfg = s.cfg ∧ (State.dbgFails s).gpio = s.gpio ∧ (State.dbgFails s).lt = s.lt ∧ (State.dbgFails
    s).pmb = s.pmb := by
  simp [Core, State.dbgFails]
@[simp] theorem State.dbgLogin_keep (s : State) (l : Nat) (mac : List Byte) : Core (State.dbgLogin s l mac) s ∧
    (State.dbgLogin s l mac).camp = s.camp ∧ (State.dbgLogin s l mac).cfg = s.cfg ∧ (State.dbgLogin s l mac).lt = s.lt
    ∧ (State.dbgLogin s l mac).pmb = s.pmb := by
  simp [Core, State.dbgLogin]
@[simp] theorem State.outNote_keep (s : State) (a : Nat) (d : Word) : Core (State.outNote s a d) s ∧ (State.outNote s
    a d).camp = s.camp ∧ (State.outNote s a d).cfg = s.cfg ∧ (State.outNote s a d).jtag = s.jtag ∧ (State.outNote s a
    d).lt = s.lt ∧ (State.outNote s a d).pmb = s.pmb := by
  simp [Core, State.outNote]
@[simp] theorem State.dbgAccess_keep (s : State) (a : Nat) (write : Bool) (d : Word) (f : LineFlaws) :
    (State.dbgAccess s a write d f).pending = s.pending ∧ (State.dbgAccess s a write d f).hw = s.hw ∧ (State.dbgAccess
    s a write d f).sys.tb = s.sys.tb ∧ (State.dbgAccess s a write d f).sys.lost = s.sys.lost := by
  simp only [State.dbgAccess]
  (repeat' split) <;> simp
@[simp] theorem State.dbgAccess_wf (s : State) (a : Nat) (write : Bool) (d : Word) (f : LineFlaws) : CellsWf
    s.env.cells → MarksWf s.env.marked → StoreWf (State.dbgAccess s a write d f) := by
  intro h1 h2
  simp only [State.dbgAccess]
  (repeat' split) <;> simp [StoreWf, h1, h2]

end Sys2Proof.Machine
end

