-- ==== Sys2Proof/Laws/KeepReset.lean ====
section
/-! SUPPORT. What a reset leaves as it was (Keep.lean): the queue, the canonical form of the store, the timebase over a device reset, the
fuse array but for a blow it cuts short, and the lost islands where it does not begin S1. -/

open Sys2Proof

namespace Sys2Proof.Machine

/-- What a device reset, or the command it may take effect with, keeps of a state. -/
def Resets (t s : State) : Prop :=
  t.pending = s.pending ∧ t.sys.tb = s.sys.tb ∧ (t.hw = s.hw ∨ t.hw = { s.hw with fuses := s.fusesLeft })
    ∧ (t.sys.phase = .s1 ∨ t.sys.lost = s.sys.lost) ∧ (CellsWf s.env.cells → MarksWf s.env.marked → StoreWf t)

theorem Resets.refl (s : State) : Resets s s := ⟨rfl, rfl, .inl rfl, .inr rfl, fun a b => ⟨a, b⟩⟩

/-- The state before may differ in what no reset looks at. -/
theorem Resets.of {t s u : State} (h : Resets t u) (hp : u.pending = s.pending) (hs : u.sys.tb = s.sys.tb) (hl : u.sys.lost = s.sys.lost)
    (hh : u.hw = s.hw) (ho : u.sec = s.sec) (he : u.env = s.env) (ht : u.sys.taken = s.sys.taken) : Resets t s := by
  obtain ⟨a, b, c, d, e⟩ := h
  have hf : u.fusesLeft = s.fusesLeft := by
    unfold State.fusesLeft State.blown State.now
    rw [ho, hh, hs, ht]
  rw [hp] at a; rw [hs] at b; rw [hh, hf] at c; rw [hl] at d; rw [he] at e
  exact ⟨a, b, c, d, e⟩

theorem State.devReset_resets (s : State) (cause : Nat) : Resets (s.devReset cause) s := by
  refine ⟨rfl, rfl, .inr rfl, .inl rfl, fun h1 h2 => ?_⟩
  simp [StoreWf, State.devReset, h1, h2]

theorem State.resetActs_resets (s : State) : Resets s.resetActs s := by
  unfold State.resetActs
  split
  · exact Resets.refl s
  · split
    · exact Resets.refl s
    · exact s.devReset_resets _

theorem State.softActs_resets (s : State) (csRise : Bool) : Resets (s.softActs csRise) s := by
  unfold State.softActs
  split
  · exact Resets.refl s
  · split
    · exact (State.resetActs_resets _).of rfl rfl rfl rfl rfl rfl rfl
    · exact Resets.refl s

theorem State.csRise_resets (s : State) : Resets s.csRise s := by
  unfold State.csRise
  split
  · exact Resets.refl s
  · exact (State.softActs_resets _ true).of rfl rfl rfl rfl rfl rfl rfl

theorem State.powerOn_pending (s : State) : s.powerOn.pending = s.pending := rfl
theorem State.powerOn_wf (s : State) : CellsWf s.env.cells → MarksWf s.env.marked → StoreWf s.powerOn := by
  intro h1 h2
  simp [StoreWf, State.powerOn, h1, h2]

end Sys2Proof.Machine
end

