-- ==== Sys2Proof/Laws/State.lean ====
section
/-! SUPPORT. Small laws of the state: what each named update leaves as it was, field by field, and what a part reads as after it
was written. -/

open Sys2Proof

namespace Sys2Proof.Machine

/-! ## Reads of the parts written -/

@[simp] theorem State.modChan_chan (s : State) (n : Nat) (f : Chan → Chan) : (s.modChan n f).chan n = f (s.chan n) :=
  tget_tmod_self _ _ _ _
theorem State.modChan_chan_ne (s : State) {n m : Nat} (f : Chan → Chan) (h : m ≠ n) : (s.modChan n f).chan m = s.chan m :=
  tget_tmod_ne _ _ _ h
@[simp] theorem State.modPort_port (s : State) (p : Nat) (f : Port → Port) : (s.modPort p f).port p = f (s.port p) :=
  tget_tmod_self _ _ _ _
theorem State.modPort_port_ne (s : State) {p q : Nat} (f : Port → Port) (h : q ≠ p) : (s.modPort p f).port q = s.port q :=
  tget_tmod_ne _ _ _ h
@[simp] theorem State.modPortC_casPort (s : State) (p : Nat) (f : CasPort → CasPort) :
    (s.modPortC p f).casPort p = f (s.casPort p) := tget_tmod_self _ _ _ _
theorem State.modPortC_casPort_ne (s : State) {p q : Nat} (f : CasPort → CasPort) (h : q ≠ p) :
    (s.modPortC p f).casPort q = s.casPort q := tget_tmod_ne _ _ _ h
@[simp] theorem Sense.setCmp_cmp (c : Sense) (k : Cmp) (x : CmpSt) : (c.setCmp k x).cmp k = x := by cases k <;> rfl
theorem dueAt_some {t now : Nat} (h : t ≤ now) : dueAt (some t) now = some t := by simp [dueAt, h]
@[simp] theorem dueAt_none (now : Nat) : dueAt none now = none := rfl

/-! ## Frames of the named updates -/

@[simp] theorem State.modChan_frame (s : State) (n : Nat) (f : Chan → Chan) :
    (State.modChan s n f).hw = s.hw ∧ (State.modChan s n f).sys = s.sys ∧ (State.modChan s n f).seq = s.seq
    ∧ (State.modChan s n f).hs = s.hs ∧ (State.modChan s n f).camp = s.camp ∧ (State.modChan s n f).hld = s.hld
    ∧ (State.modChan s n f).flt = s.flt ∧ (State.modChan s n f).wdg = s.wdg ∧ (State.modChan s n f).env = s.env
    ∧ (State.modChan s n f).bbx = s.bbx ∧ (State.modChan s n f).cfg = s.cfg ∧ (State.modChan s n f).cas = s.cas
    ∧ (State.modChan s n f).hmp = s.hmp ∧ (State.modChan s n f).mcp = s.mcp ∧ (State.modChan s n f).pmb = s.pmb
    ∧ (State.modChan s n f).lt = s.lt ∧ (State.modChan s n f).jtag = s.jtag ∧ (State.modChan s n f).sec = s.sec
    ∧ (State.modChan s n f).pwr = s.pwr ∧ (State.modChan s n f).gpio = s.gpio ∧ (State.modChan s n f).cnt = s.cnt
    ∧ (State.modChan s n f).pending = s.pending :=
  ⟨rfl, rfl, rfl, rfl, rfl, rfl, rfl, rfl, rfl, rfl, rfl, rfl, rfl, rfl, rfl, rfl, rfl, rfl, rfl, rfl, rfl, rfl⟩
@[simp] theorem State.modRail_frame (s : State) (r : Nat) (f : Rail → Rail) :
    (State.modRail s r f).hw = s.hw ∧ (State.modRail s r f).sys = s.sys ∧ (State.modRail s r f).seq = s.seq
    ∧ (State.modRail s r f).hs = s.hs ∧ (State.modRail s r f).camp = s.camp ∧ (State.modRail s r f).hld = s.hld
    ∧ (State.modRail s r f).flt = s.flt ∧ (State.modRail s r f).wdg = s.wdg ∧ (State.modRail s r f).env = s.env
    ∧ (State.modRail s r f).bbx = s.bbx ∧ (State.modRail s r f).cfg = s.cfg ∧ (State.modRail s r f).cas = s.cas
    ∧ (State.modRail s r f).hmp = s.hmp ∧ (State.modRail s r f).mcp = s.mcp ∧ (State.modRail s r f).pmb = s.pmb
    ∧ (State.modRail s r f).lt = s.lt ∧ (State.modRail s r f).jtag = s.jtag ∧ (State.modRail s r f).sec = s.sec
    ∧ (State.modRail s r f).pwr = s.pwr ∧ (State.modRail s r f).gpio = s.gpio ∧ (State.modRail s r f).cnt = s.cnt
    ∧ (State.modRail s r f).pending = s.pending :=
  ⟨rfl, rfl, rfl, rfl, rfl, rfl, rfl, rfl, rfl, rfl, rfl, rfl, rfl, rfl, rfl, rfl, rfl, rfl, rfl, rfl, rfl, rfl⟩
@[simp] theorem State.chTouch_frame (s : State) (n : Nat) :
    (State.chTouch s n).hw = s.hw ∧ (State.chTouch s n).sys = s.sys ∧ (State.chTouch s n).seq = s.seq
    ∧ (State.chTouch s n).hs = s.hs ∧ (State.chTouch s n).camp = s.camp ∧ (State.chTouch s n).hld = s.hld
    ∧ (State.chTouch s n).flt = s.flt ∧ (State.chTouch s n).wdg = s.wdg ∧ (State.chTouch s n).env = s.env
    ∧ (State.chTouch s n).bbx = s.bbx ∧ (State.chTouch s n).cfg = s.cfg ∧ (State.chTouch s n).cas = s.cas
    ∧ (State.chTouch s n).hmp = s.hmp ∧ (State.chTouch s n).mcp = s.mcp ∧ (State.chTouch s n).pmb = s.pmb
    ∧ (State.chTouch s n).lt = s.lt ∧ (State.chTouch s n).jtag = s.jtag ∧ (State.chTouch s n).sec = s.sec
    ∧ (State.chTouch s n).pwr = s.pwr ∧ (State.chTouch s n).gpio = s.gpio ∧ (State.chTouch s n).cnt = s.cnt
    ∧ (State.chTouch s n).pending = s.pending :=
  ⟨rfl, rfl, rfl, rfl, rfl, rfl, rfl, rfl, rfl, rfl, rfl, rfl, rfl, rfl, rfl, rfl, rfl, rfl, rfl, rfl, rfl, rfl⟩
@[simp] theorem State.irqSys_frame (s : State) (i : Nat) :
    (State.irqSys s i).hw = s.hw ∧ (State.irqSys s i).chans = s.chans ∧ (State.irqSys s i).seq = s.seq
    ∧ (State.irqSys s i).hs = s.hs ∧ (State.irqSys s i).camp = s.camp ∧ (State.irqSys s i).hld = s.hld
    ∧ (State.irqSys s i).flt = s.flt ∧ (State.irqSys s i).wdg = s.wdg ∧ (State.irqSys s i).env = s.env
    ∧ (State.irqSys s i).bbx = s.bbx ∧ (State.irqSys s i).cfg = s.cfg ∧ (State.irqSys s i).cas = s.cas
    ∧ (State.irqSys s i).hmp = s.hmp ∧ (State.irqSys s i).mcp = s.mcp ∧ (State.irqSys s i).pmb = s.pmb
    ∧ (State.irqSys s i).lt = s.lt ∧ (State.irqSys s i).jtag = s.jtag ∧ (State.irqSys s i).sec = s.sec
    ∧ (State.irqSys s i).pwr = s.pwr ∧ (State.irqSys s i).gpio = s.gpio ∧ (State.irqSys s i).cnt = s.cnt
    ∧ (State.irqSys s i).pending = s.pending :=
  ⟨rfl, rfl, rfl, rfl, rfl, rfl, rfl, rfl, rfl, rfl, rfl, rfl, rfl, rfl, rfl, rfl, rfl, rfl, rfl, rfl, rfl, rfl⟩
@[simp] theorem State.irqSeq_frame (s : State) (i : Nat) :
    (State.irqSeq s i).hw = s.hw ∧ (State.irqSeq s i).sys = s.sys ∧ (State.irqSeq s i).chans = s.chans
    ∧ (State.irqSeq s i).hs = s.hs ∧ (State.irqSeq s i).camp = s.camp ∧ (State.irqSeq s i).hld = s.hld
    ∧ (State.irqSeq s i).flt = s.flt ∧ (State.irqSeq s i).wdg = s.wdg ∧ (State.irqSeq s i).env = s.env
    ∧ (State.irqSeq s i).bbx = s.bbx ∧ (State.irqSeq s i).cfg = s.cfg ∧ (State.irqSeq s i).cas = s.cas
    ∧ (State.irqSeq s i).hmp = s.hmp ∧ (State.irqSeq s i).mcp = s.mcp ∧ (State.irqSeq s i).pmb = s.pmb
    ∧ (State.irqSeq s i).lt = s.lt ∧ (State.irqSeq s i).jtag = s.jtag ∧ (State.irqSeq s i).sec = s.sec
    ∧ (State.irqSeq s i).pwr = s.pwr ∧ (State.irqSeq s i).gpio = s.gpio ∧ (State.irqSeq s i).cnt = s.cnt
    ∧ (State.irqSeq s i).pending = s.pending :=
  ⟨rfl, rfl, rfl, rfl, rfl, rfl, rfl, rfl, rfl, rfl, rfl, rfl, rfl, rfl, rfl, rfl, rfl, rfl, rfl, rfl, rfl, rfl⟩
@[simp] theorem State.irqCh_frame (s : State) (n i : Nat) :
    (State.irqCh s n i).hw = s.hw ∧ (State.irqCh s n i).sys = s.sys ∧ (State.irqCh s n i).seq = s.seq
    ∧ (State.irqCh s n i).hs = s.hs ∧ (State.irqCh s n i).camp = s.camp ∧ (State.irqCh s n i).hld = s.hld
    ∧ (State.irqCh s n i).flt = s.flt ∧ (State.irqCh s n i).wdg = s.wdg ∧ (State.irqCh s n i).env = s.env
    ∧ (State.irqCh s n i).bbx = s.bbx ∧ (State.irqCh s n i).cfg = s.cfg ∧ (State.irqCh s n i).cas = s.cas
    ∧ (State.irqCh s n i).hmp = s.hmp ∧ (State.irqCh s n i).mcp = s.mcp ∧ (State.irqCh s n i).pmb = s.pmb
    ∧ (State.irqCh s n i).lt = s.lt ∧ (State.irqCh s n i).jtag = s.jtag ∧ (State.irqCh s n i).sec = s.sec
    ∧ (State.irqCh s n i).pwr = s.pwr ∧ (State.irqCh s n i).gpio = s.gpio ∧ (State.irqCh s n i).cnt = s.cnt
    ∧ (State.irqCh s n i).pending = s.pending :=
  ⟨rfl, rfl, rfl, rfl, rfl, rfl, rfl, rfl, rfl, rfl, rfl, rfl, rfl, rfl, rfl, rfl, rfl, rfl, rfl, rfl, rfl, rfl⟩
@[simp] theorem State.irqMh_frame (s : State) (n i : Nat) :
    (State.irqMh s n i).hw = s.hw ∧ (State.irqMh s n i).sys = s.sys ∧ (State.irqMh s n i).seq = s.seq
    ∧ (State.irqMh s n i).hs = s.hs ∧ (State.irqMh s n i).camp = s.camp ∧ (State.irqMh s n i).hld = s.hld
    ∧ (State.irqMh s n i).flt = s.flt ∧ (State.irqMh s n i).wdg = s.wdg ∧ (State.irqMh s n i).env = s.env
    ∧ (State.irqMh s n i).bbx = s.bbx ∧ (State.irqMh s n i).cfg = s.cfg ∧ (State.irqMh s n i).cas = s.cas
    ∧ (State.irqMh s n i).hmp = s.hmp ∧ (State.irqMh s n i).mcp = s.mcp ∧ (State.irqMh s n i).pmb = s.pmb
    ∧ (State.irqMh s n i).lt = s.lt ∧ (State.irqMh s n i).jtag = s.jtag ∧ (State.irqMh s n i).sec = s.sec
    ∧ (State.irqMh s n i).pwr = s.pwr ∧ (State.irqMh s n i).gpio = s.gpio ∧ (State.irqMh s n i).cnt = s.cnt
    ∧ (State.irqMh s n i).pending = s.pending :=
  ⟨rfl, rfl, rfl, rfl, rfl, rfl, rfl, rfl, rfl, rfl, rfl, rfl, rfl, rfl, rfl, rfl, rfl, rfl, rfl, rfl, rfl, rfl⟩
@[simp] theorem State.irqCas_frame (s : State) (i : Nat) :
    (State.irqCas s i).hw = s.hw ∧ (State.irqCas s i).sys = s.sys ∧ (State.irqCas s i).chans = s.chans
    ∧ (State.irqCas s i).seq = s.seq ∧ (State.irqCas s i).hs = s.hs ∧ (State.irqCas s i).camp = s.camp
    ∧ (State.irqCas s i).hld = s.hld ∧ (State.irqCas s i).flt = s.flt ∧ (State.irqCas s i).wdg = s.wdg
    ∧ (State.irqCas s i).env = s.env ∧ (State.irqCas s i).bbx = s.bbx ∧ (State.irqCas s i).cfg = s.cfg
    ∧ (State.irqCas s i).hmp = s.hmp ∧ (State.irqCas s i).mcp = s.mcp ∧ (State.irqCas s i).pmb = s.pmb
    ∧ (State.irqCas s i).lt = s.lt ∧ (State.irqCas s i).jtag = s.jtag ∧ (State.irqCas s i).sec = s.sec
    ∧ (State.irqCas s i).pwr = s.pwr ∧ (State.irqCas s i).gpio = s.gpio ∧ (State.irqCas s i).cnt = s.cnt
    ∧ (State.irqCas s i).pending = s.pending :=
  ⟨rfl, rfl, rfl, rfl, rfl, rfl, rfl, rfl, rfl, rfl, rfl, rfl, rfl, rfl, rfl, rfl, rfl, rfl, rfl, rfl, rfl, rfl⟩
@[simp] theorem State.irqLnk_frame (s : State) (i : Nat) :
    (State.irqLnk s i).hw = s.hw ∧ (State.irqLnk s i).sys = s.sys ∧ (State.irqLnk s i).chans = s.chans
    ∧ (State.irqLnk s i).seq = s.seq ∧ (State.irqLnk s i).hs = s.hs ∧ (State.irqLnk s i).camp = s.camp
    ∧ (State.irqLnk s i).hld = s.hld ∧ (State.irqLnk s i).flt = s.flt ∧ (State.irqLnk s i).wdg = s.wdg
    ∧ (State.irqLnk s i).env = s.env ∧ (State.irqLnk s i).bbx = s.bbx ∧ (State.irqLnk s i).cfg = s.cfg
    ∧ (State.irqLnk s i).cas = s.cas ∧ (State.irqLnk s i).hmp = s.hmp ∧ (State.irqLnk s i).pmb = s.pmb
    ∧ (State.irqLnk s i).lt = s.lt ∧ (State.irqLnk s i).jtag = s.jtag ∧ (State.irqLnk s i).sec = s.sec
    ∧ (State.irqLnk s i).pwr = s.pwr ∧ (State.irqLnk s i).gpio = s.gpio ∧ (State.irqLnk s i).cnt = s.cnt
    ∧ (State.irqLnk s i).pending = s.pending :=
  ⟨rfl, rfl, rfl, rfl, rfl, rfl, rfl, rfl, rfl, rfl, rfl, rfl, rfl, rfl, rfl, rfl, rfl, rfl, rfl, rfl, rfl, rfl⟩
@[simp] theorem State.irqSec_frame (s : State) (i : Nat) :
    (State.irqSec s i).hw = s.hw ∧ (State.irqSec s i).sys = s.sys ∧ (State.irqSec s i).chans = s.chans
    ∧ (State.irqSec s i).seq = s.seq ∧ (State.irqSec s i).hs = s.hs ∧ (State.irqSec s i).camp = s.camp
    ∧ (State.irqSec s i).hld = s.hld ∧ (State.irqSec s i).flt = s.flt ∧ (State.irqSec s i).wdg = s.wdg
    ∧ (State.irqSec s i).env = s.env ∧ (State.irqSec s i).bbx = s.bbx ∧ (State.irqSec s i).cfg = s.cfg
    ∧ (State.irqSec s i).cas = s.cas ∧ (State.irqSec s i).hmp = s.hmp ∧ (State.irqSec s i).mcp = s.mcp
    ∧ (State.irqSec s i).pmb = s.pmb ∧ (State.irqSec s i).lt = s.lt ∧ (State.irqSec s i).jtag = s.jtag
    ∧ (State.irqSec s i).pwr = s.pwr ∧ (State.irqSec s i).gpio = s.gpio ∧ (State.irqSec s i).cnt = s.cnt
    ∧ (State.irqSec s i).pending = s.pending :=
  ⟨rfl, rfl, rfl, rfl, rfl, rfl, rfl, rfl, rfl, rfl, rfl, rfl, rfl, rfl, rfl, rfl, rfl, rfl, rfl, rfl, rfl, rfl⟩
@[simp] theorem State.irqPwr_frame (s : State) (i : Nat) :
    (State.irqPwr s i).hw = s.hw ∧ (State.irqPwr s i).sys = s.sys ∧ (State.irqPwr s i).chans = s.chans
    ∧ (State.irqPwr s i).seq = s.seq ∧ (State.irqPwr s i).hs = s.hs ∧ (State.irqPwr s i).camp = s.camp
    ∧ (State.irqPwr s i).hld = s.hld ∧ (State.irqPwr s i).flt = s.flt ∧ (State.irqPwr s i).wdg = s.wdg
    ∧ (State.irqPwr s i).env = s.env ∧ (State.irqPwr s i).bbx = s.bbx ∧ (State.irqPwr s i).cfg = s.cfg
    ∧ (State.irqPwr s i).cas = s.cas ∧ (State.irqPwr s i).hmp = s.hmp ∧ (State.irqPwr s i).mcp = s.mcp
    ∧ (State.irqPwr s i).pmb = s.pmb ∧ (State.irqPwr s i).lt = s.lt ∧ (State.irqPwr s i).jtag = s.jtag
    ∧ (State.irqPwr s i).sec = s.sec ∧ (State.irqPwr s i).gpio = s.gpio ∧ (State.irqPwr s i).cnt = s.cnt
    ∧ (State.irqPwr s i).pending = s.pending :=
  ⟨rfl, rfl, rfl, rfl, rfl, rfl, rfl, rfl, rfl, rfl, rfl, rfl, rfl, rfl, rfl, rfl, rfl, rfl, rfl, rfl, rfl, rfl⟩
@[simp] theorem State.irqGpio_frame (s : State) (i : Nat) :
    (State.irqGpio s i).hw = s.hw ∧ (State.irqGpio s i).sys = s.sys ∧ (State.irqGpio s i).chans = s.chans
    ∧ (State.irqGpio s i).seq = s.seq ∧ (State.irqGpio s i).hs = s.hs ∧ (State.irqGpio s i).camp = s.camp
    ∧ (State.irqGpio s i).hld = s.hld ∧ (State.irqGpio s i).flt = s.flt ∧ (State.irqGpio s i).wdg = s.wdg
    ∧ (State.irqGpio s i).env = s.env ∧ (State.irqGpio s i).bbx = s.bbx ∧ (State.irqGpio s i).cfg = s.cfg
    ∧ (State.irqGpio s i).cas = s.cas ∧ (State.irqGpio s i).hmp = s.hmp ∧ (State.irqGpio s i).mcp = s.mcp
    ∧ (State.irqGpio s i).pmb = s.pmb ∧ (State.irqGpio s i).lt = s.lt ∧ (State.irqGpio s i).jtag = s.jtag
    ∧ (State.irqGpio s i).sec = s.sec ∧ (State.irqGpio s i).pwr = s.pwr ∧ (State.irqGpio s i).cnt = s.cnt
    ∧ (State.irqGpio s i).pending = s.pending :=
  ⟨rfl, rfl, rfl, rfl, rfl, rfl, rfl, rfl, rfl, rfl, rfl, rfl, rfl, rfl, rfl, rfl, rfl, rfl, rfl, rfl, rfl, rfl⟩
@[simp] theorem State.irqCnt_frame (s : State) (i : Nat) :
    (State.irqCnt s i).hw = s.hw ∧ (State.irqCnt s i).sys = s.sys ∧ (State.irqCnt s i).chans = s.chans
    ∧ (State.irqCnt s i).seq = s.seq ∧ (State.irqCnt s i).hs = s.hs ∧ (State.irqCnt s i).camp = s.camp
    ∧ (State.irqCnt s i).hld = s.hld ∧ (State.irqCnt s i).flt = s.flt ∧ (State.irqCnt s i).wdg = s.wdg
    ∧ (State.irqCnt s i).env = s.env ∧ (State.irqCnt s i).bbx = s.bbx ∧ (State.irqCnt s i).cfg = s.cfg
    ∧ (State.irqCnt s i).cas = s.cas ∧ (State.irqCnt s i).hmp = s.hmp ∧ (State.irqCnt s i).mcp = s.mcp
    ∧ (State.irqCnt s i).pmb = s.pmb ∧ (State.irqCnt s i).lt = s.lt ∧ (State.irqCnt s i).jtag = s.jtag
    ∧ (State.irqCnt s i).sec = s.sec ∧ (State.irqCnt s i).pwr = s.pwr ∧ (State.irqCnt s i).gpio = s.gpio
    ∧ (State.irqCnt s i).pending = s.pending :=
  ⟨rfl, rfl, rfl, rfl, rfl, rfl, rfl, rfl, rfl, rfl, rfl, rfl, rfl, rfl, rfl, rfl, rfl, rfl, rfl, rfl, rfl, rfl⟩
@[simp] theorem State.setCause_frame (s : State) (f : Causes → Causes) :
    (State.setCause s f).hw = s.hw ∧ (State.setCause s f).sys = s.sys ∧ (State.setCause s f).chans = s.chans
    ∧ (State.setCause s f).seq = s.seq ∧ (State.setCause s f).hs = s.hs ∧ (State.setCause s f).camp = s.camp
    ∧ (State.setCause s f).flt = s.flt ∧ (State.setCause s f).wdg = s.wdg ∧ (State.setCause s f).env = s.env
    ∧ (State.setCause s f).bbx = s.bbx ∧ (State.setCause s f).cfg = s.cfg ∧ (State.setCause s f).cas = s.cas
    ∧ (State.setCause s f).hmp = s.hmp ∧ (State.setCause s f).mcp = s.mcp ∧ (State.setCause s f).pmb = s.pmb
    ∧ (State.setCause s f).lt = s.lt ∧ (State.setCause s f).jtag = s.jtag ∧ (State.setCause s f).sec = s.sec
    ∧ (State.setCause s f).pwr = s.pwr ∧ (State.setCause s f).gpio = s.gpio ∧ (State.setCause s f).cnt = s.cnt
    ∧ (State.setCause s f).pending = s.pending :=
  ⟨rfl, rfl, rfl, rfl, rfl, rfl, rfl, rfl, rfl, rfl, rfl, rfl, rfl, rfl, rfl, rfl, rfl, rfl, rfl, rfl, rfl, rfl⟩
@[simp] theorem State.tpAdd_frame (s : State) (p bytes frames errs : Nat) :
    (State.tpAdd s p bytes frames errs).hw = s.hw ∧ (State.tpAdd s p bytes frames errs).sys = s.sys
    ∧ (State.tpAdd s p bytes frames errs).chans = s.chans ∧ (State.tpAdd s p bytes frames errs).seq = s.seq
    ∧ (State.tpAdd s p bytes frames errs).hs = s.hs ∧ (State.tpAdd s p bytes frames errs).camp = s.camp
    ∧ (State.tpAdd s p bytes frames errs).hld = s.hld ∧ (State.tpAdd s p bytes frames errs).flt = s.flt
    ∧ (State.tpAdd s p bytes frames errs).wdg = s.wdg ∧ (State.tpAdd s p bytes frames errs).env = s.env
    ∧ (State.tpAdd s p bytes frames errs).bbx = s.bbx ∧ (State.tpAdd s p bytes frames errs).cfg = s.cfg
    ∧ (State.tpAdd s p bytes frames errs).cas = s.cas ∧ (State.tpAdd s p bytes frames errs).hmp = s.hmp
    ∧ (State.tpAdd s p bytes frames errs).mcp = s.mcp ∧ (State.tpAdd s p bytes frames errs).pmb = s.pmb
    ∧ (State.tpAdd s p bytes frames errs).lt = s.lt ∧ (State.tpAdd s p bytes frames errs).jtag = s.jtag
    ∧ (State.tpAdd s p bytes frames errs).sec = s.sec ∧ (State.tpAdd s p bytes frames errs).pwr = s.pwr
    ∧ (State.tpAdd s p bytes frames errs).gpio = s.gpio ∧ (State.tpAdd s p bytes frames errs).pending = s.pending :=
  ⟨rfl, rfl, rfl, rfl, rfl, rfl, rfl, rfl, rfl, rfl, rfl, rfl, rfl, rfl, rfl, rfl, rfl, rfl, rfl, rfl, rfl, rfl⟩
@[simp] theorem State.count_frame (s : State) (n e : Nat) :
    (State.count s n e).hw = s.hw ∧ (State.count s n e).sys = s.sys ∧ (State.count s n e).chans = s.chans
    ∧ (State.count s n e).seq = s.seq ∧ (State.count s n e).hs = s.hs ∧ (State.count s n e).camp = s.camp
    ∧ (State.count s n e).hld = s.hld ∧ (State.count s n e).flt = s.flt ∧ (State.count s n e).wdg = s.wdg
    ∧ (State.count s n e).bbx = s.bbx ∧ (State.count s n e).cfg = s.cfg ∧ (State.count s n e).cas = s.cas
    ∧ (State.count s n e).hmp = s.hmp ∧ (State.count s n e).mcp = s.mcp ∧ (State.count s n e).pmb = s.pmb
    ∧ (State.count s n e).lt = s.lt ∧ (State.count s n e).jtag = s.jtag ∧ (State.count s n e).sec = s.sec
    ∧ (State.count s n e).pwr = s.pwr ∧ (State.count s n e).gpio = s.gpio ∧ (State.count s n e).pending = s.pending :=
  ⟨rfl, rfl, rfl, rfl, rfl, rfl, rfl, rfl, rfl, rfl, rfl, rfl, rfl, rfl, rfl, rfl, rfl, rfl, rfl, rfl, rfl⟩
@[simp] theorem State.modPort_frame (s : State) (p : Nat) (f : Port → Port) :
    (State.modPort s p f).hw = s.hw ∧ (State.modPort s p f).sys = s.sys ∧ (State.modPort s p f).chans = s.chans
    ∧ (State.modPort s p f).seq = s.seq ∧ (State.modPort s p f).hs = s.hs ∧ (State.modPort s p f).camp = s.camp
    ∧ (State.modPort s p f).hld = s.hld ∧ (State.modPort s p f).flt = s.flt ∧ (State.modPort s p f).wdg = s.wdg
    ∧ (State.modPort s p f).env = s.env ∧ (State.modPort s p f).bbx = s.bbx ∧ (State.modPort s p f).cfg = s.cfg
    ∧ (State.modPort s p f).cas = s.cas ∧ (State.modPort s p f).hmp = s.hmp ∧ (State.modPort s p f).mcp = s.mcp
    ∧ (State.modPort s p f).pmb = s.pmb ∧ (State.modPort s p f).lt = s.lt ∧ (State.modPort s p f).jtag = s.jtag
    ∧ (State.modPort s p f).sec = s.sec ∧ (State.modPort s p f).pwr = s.pwr ∧ (State.modPort s p f).cnt = s.cnt
    ∧ (State.modPort s p f).pending = s.pending :=
  ⟨rfl, rfl, rfl, rfl, rfl, rfl, rfl, rfl, rfl, rfl, rfl, rfl, rfl, rfl, rfl, rfl, rfl, rfl, rfl, rfl, rfl, rfl⟩
@[simp] theorem State.modPortC_frame (s : State) (p : Nat) (f : CasPort → CasPort) :
    (State.modPortC s p f).hw = s.hw ∧ (State.modPortC s p f).sys = s.sys ∧ (State.modPortC s p f).chans = s.chans
    ∧ (State.modPortC s p f).seq = s.seq ∧ (State.modPortC s p f).hs = s.hs ∧ (State.modPortC s p f).camp = s.camp
    ∧ (State.modPortC s p f).hld = s.hld ∧ (State.modPortC s p f).flt = s.flt ∧ (State.modPortC s p f).wdg = s.wdg
    ∧ (State.modPortC s p f).env = s.env ∧ (State.modPortC s p f).bbx = s.bbx ∧ (State.modPortC s p f).cfg = s.cfg
    ∧ (State.modPortC s p f).hmp = s.hmp ∧ (State.modPortC s p f).mcp = s.mcp ∧ (State.modPortC s p f).pmb = s.pmb
    ∧ (State.modPortC s p f).lt = s.lt ∧ (State.modPortC s p f).jtag = s.jtag ∧ (State.modPortC s p f).sec = s.sec
    ∧ (State.modPortC s p f).pwr = s.pwr ∧ (State.modPortC s p f).gpio = s.gpio ∧ (State.modPortC s p f).cnt = s.cnt
    ∧ (State.modPortC s p f).pending = s.pending :=
  ⟨rfl, rfl, rfl, rfl, rfl, rfl, rfl, rfl, rfl, rfl, rfl, rfl, rfl, rfl, rfl, rfl, rfl, rfl, rfl, rfl, rfl, rfl⟩
@[simp] theorem State.outBits_frame (s : State) (p bits : Nat) (set : Bool) :
    (State.outBits s p bits set).hw = s.hw ∧ (State.outBits s p bits set).sys = s.sys
    ∧ (State.outBits s p bits set).chans = s.chans ∧ (State.outBits s p bits set).seq = s.seq
    ∧ (State.outBits s p bits set).hs = s.hs ∧ (State.outBits s p bits set).camp = s.camp
    ∧ (State.outBits s p bits set).hld = s.hld ∧ (State.outBits s p bits set).flt = s.flt
    ∧ (State.outBits s p bits set).wdg = s.wdg ∧ (State.outBits s p bits set).env = s.env
    ∧ (State.outBits s p bits set).bbx = s.bbx ∧ (State.outBits s p bits set).cfg = s.cfg
    ∧ (State.outBits s p bits set).cas = s.cas ∧ (State.outBits s p bits set).hmp = s.hmp
    ∧ (State.outBits s p bits set).mcp = s.mcp ∧ (State.outBits s p bits set).pmb = s.pmb
    ∧ (State.outBits s p bits set).lt = s.lt ∧ (State.outBits s p bits set).jtag = s.jtag
    ∧ (State.outBits s p bits set).sec = s.sec ∧ (State.outBits s p bits set).pwr = s.pwr
    ∧ (State.outBits s p bits set).cnt = s.cnt ∧ (State.outBits s p bits set).pending = s.pending :=
  ⟨rfl, rfl, rfl, rfl, rfl, rfl, rfl, rfl, rfl, rfl, rfl, rfl, rfl, rfl, rfl, rfl, rfl, rfl, rfl, rfl, rfl, rfl⟩
@[simp] theorem State.badFrame_frame (s : State) (status bytes : Nat) :
    (State.badFrame s status bytes).hw = s.hw ∧ (State.badFrame s status bytes).sys = s.sys
    ∧ (State.badFrame s status bytes).chans = s.chans ∧ (State.badFrame s status bytes).seq = s.seq
    ∧ (State.badFrame s status bytes).hs = s.hs ∧ (State.badFrame s status bytes).camp = s.camp
    ∧ (State.badFrame s status bytes).hld = s.hld ∧ (State.badFrame s status bytes).flt = s.flt
    ∧ (State.badFrame s status bytes).wdg = s.wdg ∧ (State.badFrame s status bytes).env = s.env
    ∧ (State.badFrame s status bytes).bbx = s.bbx ∧ (State.badFrame s status bytes).cfg = s.cfg
    ∧ (State.badFrame s status bytes).cas = s.cas ∧ (State.badFrame s status bytes).mcp = s.mcp
    ∧ (State.badFrame s status bytes).pmb = s.pmb ∧ (State.badFrame s status bytes).lt = s.lt
    ∧ (State.badFrame s status bytes).jtag = s.jtag ∧ (State.badFrame s status bytes).sec = s.sec
    ∧ (State.badFrame s status bytes).pwr = s.pwr ∧ (State.badFrame s status bytes).gpio = s.gpio
    ∧ (State.badFrame s status bytes).pending = s.pending :=
  ⟨rfl, rfl, rfl, rfl, rfl, rfl, rfl, rfl, rfl, rfl, rfl, rfl, rfl, rfl, rfl, rfl, rfl, rfl, rfl, rfl, rfl⟩
@[simp] theorem State.modLt_frame (s : State) (t : Nat) (f : Lt → Lt) :
    (State.modLt s t f).hw = s.hw ∧ (State.modLt s t f).sys = s.sys ∧ (State.modLt s t f).chans = s.chans
    ∧ (State.modLt s t f).seq = s.seq ∧ (State.modLt s t f).hs = s.hs ∧ (State.modLt s t f).camp = s.camp
    ∧ (State.modLt s t f).hld = s.hld ∧ (State.modLt s t f).flt = s.flt ∧ (State.modLt s t f).wdg = s.wdg
    ∧ (State.modLt s t f).env = s.env ∧ (State.modLt s t f).bbx = s.bbx ∧ (State.modLt s t f).cfg = s.cfg
    ∧ (State.modLt s t f).cas = s.cas ∧ (State.modLt s t f).hmp = s.hmp ∧ (State.modLt s t f).mcp = s.mcp
    ∧ (State.modLt s t f).pmb = s.pmb ∧ (State.modLt s t f).jtag = s.jtag ∧ (State.modLt s t f).sec = s.sec
    ∧ (State.modLt s t f).pwr = s.pwr ∧ (State.modLt s t f).gpio = s.gpio ∧ (State.modLt s t f).cnt = s.cnt
    ∧ (State.modLt s t f).pending = s.pending :=
  ⟨rfl, rfl, rfl, rfl, rfl, rfl, rfl, rfl, rfl, rfl, rfl, rfl, rfl, rfl, rfl, rfl, rfl, rfl, rfl, rfl, rfl, rfl⟩
@[simp] theorem State.answer_frame (s : State) (status detail : Nat) (payload : List Byte) :
    (State.answer s status detail payload).hw = s.hw ∧ (State.answer s status detail payload).sys = s.sys
    ∧ (State.answer s status detail payload).chans = s.chans ∧ (State.answer s status detail payload).seq = s.seq
    ∧ (State.answer s status detail payload).hs = s.hs ∧ (State.answer s status detail payload).camp = s.camp
    ∧ (State.answer s status detail payload).hld = s.hld ∧ (State.answer s status detail payload).flt = s.flt
    ∧ (State.answer s status detail payload).wdg = s.wdg ∧ (State.answer s status detail payload).env = s.env
    ∧ (State.answer s status detail payload).bbx = s.bbx ∧ (State.answer s status detail payload).cfg = s.cfg
    ∧ (State.answer s status detail payload).cas = s.cas ∧ (State.answer s status detail payload).mcp = s.mcp
    ∧ (State.answer s status detail payload).pmb = s.pmb ∧ (State.answer s status detail payload).lt = s.lt
    ∧ (State.answer s status detail payload).jtag = s.jtag ∧ (State.answer s status detail payload).sec = s.sec
    ∧ (State.answer s status detail payload).pwr = s.pwr ∧ (State.answer s status detail payload).gpio = s.gpio
    ∧ (State.answer s status detail payload).cnt = s.cnt
    ∧ (State.answer s status detail payload).pending = s.pending :=
  ⟨rfl, rfl, rfl, rfl, rfl, rfl, rfl, rfl, rfl, rfl, rfl, rfl, rfl, rfl, rfl, rfl, rfl, rfl, rfl, rfl, rfl, rfl⟩
@[simp] theorem State.answerOk_frame (s : State) (at_ status detail : Nat) (payload : List Byte) :
    (State.answerOk s at_ status detail payload).hw = s.hw ∧ (State.answerOk s at_ status detail payload).sys = s.sys
    ∧ (State.answerOk s at_ status detail payload).chans = s.chans
    ∧ (State.answerOk s at_ status detail payload).seq = s.seq
    ∧ (State.answerOk s at_ status detail payload).hs = s.hs
    ∧ (State.answerOk s at_ status detail payload).camp = s.camp
    ∧ (State.answerOk s at_ status detail payload).hld = s.hld
    ∧ (State.answerOk s at_ status detail payload).flt = s.flt
    ∧ (State.answerOk s at_ status detail payload).wdg = s.wdg
    ∧ (State.answerOk s at_ status detail payload).env = s.env
    ∧ (State.answerOk s at_ status detail payload).bbx = s.bbx
    ∧ (State.answerOk s at_ status detail payload).cfg = s.cfg
    ∧ (State.answerOk s at_ status detail payload).cas = s.cas
    ∧ (State.answerOk s at_ status detail payload).mcp = s.mcp
    ∧ (State.answerOk s at_ status detail payload).pmb = s.pmb
    ∧ (State.answerOk s at_ status detail payload).lt = s.lt
    ∧ (State.answerOk s at_ status detail payload).jtag = s.jtag
    ∧ (State.answerOk s at_ status detail payload).sec = s.sec
    ∧ (State.answerOk s at_ status detail payload).pwr = s.pwr
    ∧ (State.answerOk s at_ status detail payload).gpio = s.gpio
    ∧ (State.answerOk s at_ status detail payload).cnt = s.cnt
    ∧ (State.answerOk s at_ status detail payload).pending = s.pending :=
  ⟨rfl, rfl, rfl, rfl, rfl, rfl, rfl, rfl, rfl, rfl, rfl, rfl, rfl, rfl, rfl, rfl, rfl, rfl, rfl, rfl, rfl, rfl⟩
@[simp] theorem State.keyRefuse_frame (s : State) (c : Nat) :
    (State.keyRefuse s c).hw = s.hw ∧ (State.keyRefuse s c).sys = s.sys ∧ (State.keyRefuse s c).chans = s.chans
    ∧ (State.keyRefuse s c).seq = s.seq ∧ (State.keyRefuse s c).hs = s.hs ∧ (State.keyRefuse s c).camp = s.camp
    ∧ (State.keyRefuse s c).hld = s.hld ∧ (State.keyRefuse s c).flt = s.flt ∧ (State.keyRefuse s c).wdg = s.wdg
    ∧ (State.keyRefuse s c).env = s.env ∧ (State.keyRefuse s c).bbx = s.bbx ∧ (State.keyRefuse s c).cfg = s.cfg
    ∧ (State.keyRefuse s c).cas = s.cas ∧ (State.keyRefuse s c).hmp = s.hmp ∧ (State.keyRefuse s c).mcp = s.mcp
    ∧ (State.keyRefuse s c).pmb = s.pmb ∧ (State.keyRefuse s c).lt = s.lt ∧ (State.keyRefuse s c).jtag = s.jtag
    ∧ (State.keyRefuse s c).pwr = s.pwr ∧ (State.keyRefuse s c).gpio = s.gpio ∧ (State.keyRefuse s c).cnt = s.cnt
    ∧ (State.keyRefuse s c).pending = s.pending :=
  ⟨rfl, rfl, rfl, rfl, rfl, rfl, rfl, rfl, rfl, rfl, rfl, rfl, rfl, rfl, rfl, rfl, rfl, rfl, rfl, rfl, rfl, rfl⟩
@[simp] theorem State.keyStore_frame (s : State) (key : List Byte) (a kind index : Nat) :
    (State.keyStore s key a kind index).hw = s.hw ∧ (State.keyStore s key a kind index).sys = s.sys
    ∧ (State.keyStore s key a kind index).chans = s.chans ∧ (State.keyStore s key a kind index).seq = s.seq
    ∧ (State.keyStore s key a kind index).hs = s.hs ∧ (State.keyStore s key a kind index).camp = s.camp
    ∧ (State.keyStore s key a kind index).hld = s.hld ∧ (State.keyStore s key a kind index).flt = s.flt
    ∧ (State.keyStore s key a kind index).wdg = s.wdg ∧ (State.keyStore s key a kind index).env = s.env
    ∧ (State.keyStore s key a kind index).bbx = s.bbx ∧ (State.keyStore s key a kind index).cfg = s.cfg
    ∧ (State.keyStore s key a kind index).cas = s.cas ∧ (State.keyStore s key a kind index).hmp = s.hmp
    ∧ (State.keyStore s key a kind index).mcp = s.mcp ∧ (State.keyStore s key a kind index).pmb = s.pmb
    ∧ (State.keyStore s key a kind index).lt = s.lt ∧ (State.keyStore s key a kind index).jtag = s.jtag
    ∧ (State.keyStore s key a kind index).pwr = s.pwr ∧ (State.keyStore s key a kind index).gpio = s.gpio
    ∧ (State.keyStore s key a kind index).cnt = s.cnt ∧ (State.keyStore s key a kind index).pending = s.pending :=
  ⟨rfl, rfl, rfl, rfl, rfl, rfl, rfl, rfl, rfl, rfl, rfl, rfl, rfl, rfl, rfl, rfl, rfl, rfl, rfl, rfl, rfl, rfl⟩
@[simp] theorem State.rungTo_frame (s : State) (r : Rung) :
    (State.rungTo s r).hw = s.hw ∧ (State.rungTo s r).sys = s.sys ∧ (State.rungTo s r).chans = s.chans
    ∧ (State.rungTo s r).seq = s.seq ∧ (State.rungTo s r).hs = s.hs ∧ (State.rungTo s r).camp = s.camp
    ∧ (State.rungTo s r).hld = s.hld ∧ (State.rungTo s r).flt = s.flt ∧ (State.rungTo s r).wdg = s.wdg
    ∧ (State.rungTo s r).env = s.env ∧ (State.rungTo s r).bbx = s.bbx ∧ (State.rungTo s r).cfg = s.cfg
    ∧ (State.rungTo s r).cas = s.cas ∧ (State.rungTo s r).hmp = s.hmp ∧ (State.rungTo s r).mcp = s.mcp
    ∧ (State.rungTo s r).pmb = s.pmb ∧ (State.rungTo s r).lt = s.lt ∧ (State.rungTo s r).jtag = s.jtag
    ∧ (State.rungTo s r).sec = s.sec ∧ (State.rungTo s r).gpio = s.gpio ∧ (State.rungTo s r).cnt = s.cnt
    ∧ (State.rungTo s r).pending = s.pending :=
  ⟨rfl, rfl, rfl, rfl, rfl, rfl, rfl, rfl, rfl, rfl, rfl, rfl, rfl, rfl, rfl, rfl, rfl, rfl, rfl, rfl, rfl, rfl⟩
@[simp] theorem State.pwrRefuse_frame (s : State) (c : Nat) :
    (State.pwrRefuse s c).hw = s.hw ∧ (State.pwrRefuse s c).sys = s.sys ∧ (State.pwrRefuse s c).chans = s.chans
    ∧ (State.pwrRefuse s c).seq = s.seq ∧ (State.pwrRefuse s c).hs = s.hs ∧ (State.pwrRefuse s c).camp = s.camp
    ∧ (State.pwrRefuse s c).hld = s.hld ∧ (State.pwrRefuse s c).flt = s.flt ∧ (State.pwrRefuse s c).wdg = s.wdg
    ∧ (State.pwrRefuse s c).env = s.env ∧ (State.pwrRefuse s c).bbx = s.bbx ∧ (State.pwrRefuse s c).cfg = s.cfg
    ∧ (State.pwrRefuse s c).cas = s.cas ∧ (State.pwrRefuse s c).hmp = s.hmp ∧ (State.pwrRefuse s c).mcp = s.mcp
    ∧ (State.pwrRefuse s c).pmb = s.pmb ∧ (State.pwrRefuse s c).lt = s.lt ∧ (State.pwrRefuse s c).jtag = s.jtag
    ∧ (State.pwrRefuse s c).sec = s.sec ∧ (State.pwrRefuse s c).gpio = s.gpio ∧ (State.pwrRefuse s c).cnt = s.cnt
    ∧ (State.pwrRefuse s c).pending = s.pending :=
  ⟨rfl, rfl, rfl, rfl, rfl, rfl, rfl, rfl, rfl, rfl, rfl, rfl, rfl, rfl, rfl, rfl, rfl, rfl, rfl, rfl, rfl, rfl⟩
@[simp] theorem State.shiftOut_frame (s : State) (d : Nat) :
    (State.shiftOut s d).hw = s.hw ∧ (State.shiftOut s d).sys = s.sys ∧ (State.shiftOut s d).chans = s.chans
    ∧ (State.shiftOut s d).seq = s.seq ∧ (State.shiftOut s d).hs = s.hs ∧ (State.shiftOut s d).camp = s.camp
    ∧ (State.shiftOut s d).hld = s.hld ∧ (State.shiftOut s d).flt = s.flt ∧ (State.shiftOut s d).wdg = s.wdg
    ∧ (State.shiftOut s d).env = s.env ∧ (State.shiftOut s d).bbx = s.bbx ∧ (State.shiftOut s d).cfg = s.cfg
    ∧ (State.shiftOut s d).cas = s.cas ∧ (State.shiftOut s d).hmp = s.hmp ∧ (State.shiftOut s d).mcp = s.mcp
    ∧ (State.shiftOut s d).pmb = s.pmb ∧ (State.shiftOut s d).lt = s.lt ∧ (State.shiftOut s d).sec = s.sec
    ∧ (State.shiftOut s d).pwr = s.pwr ∧ (State.shiftOut s d).gpio = s.gpio ∧ (State.shiftOut s d).cnt = s.cnt
    ∧ (State.shiftOut s d).pending = s.pending :=
  ⟨rfl, rfl, rfl, rfl, rfl, rfl, rfl, rfl, rfl, rfl, rfl, rfl, rfl, rfl, rfl, rfl, rfl, rfl, rfl, rfl, rfl, rfl⟩
@[simp] theorem State.endSession_frame (s : State) :
    (State.endSession s).hw = s.hw ∧ (State.endSession s).sys = s.sys ∧ (State.endSession s).chans = s.chans
    ∧ (State.endSession s).seq = s.seq ∧ (State.endSession s).hs = s.hs ∧ (State.endSession s).camp = s.camp
    ∧ (State.endSession s).hld = s.hld ∧ (State.endSession s).flt = s.flt ∧ (State.endSession s).wdg = s.wdg
    ∧ (State.endSession s).env = s.env ∧ (State.endSession s).bbx = s.bbx ∧ (State.endSession s).cfg = s.cfg
    ∧ (State.endSession s).cas = s.cas ∧ (State.endSession s).pmb = s.pmb ∧ (State.endSession s).lt = s.lt
    ∧ (State.endSession s).jtag = s.jtag ∧ (State.endSession s).sec = s.sec ∧ (State.endSession s).pwr = s.pwr
    ∧ (State.endSession s).gpio = s.gpio ∧ (State.endSession s).cnt = s.cnt
    ∧ (State.endSession s).pending = s.pending :=
  ⟨rfl, rfl, rfl, rfl, rfl, rfl, rfl, rfl, rfl, rfl, rfl, rfl, rfl, rfl, rfl, rfl, rfl, rfl, rfl, rfl, rfl⟩
@[simp] theorem State.casTo_frame (s : State) (dst : Nat) (f : CasFrame) :
    (State.casTo s dst f).hw = s.hw ∧ (State.casTo s dst f).sys = s.sys ∧ (State.casTo s dst f).chans = s.chans
    ∧ (State.casTo s dst f).seq = s.seq ∧ (State.casTo s dst f).hs = s.hs ∧ (State.casTo s dst f).camp = s.camp
    ∧ (State.casTo s dst f).hld = s.hld ∧ (State.casTo s dst f).flt = s.flt ∧ (State.casTo s dst f).wdg = s.wdg
    ∧ (State.casTo s dst f).env = s.env ∧ (State.casTo s dst f).bbx = s.bbx ∧ (State.casTo s dst f).cfg = s.cfg
    ∧ (State.casTo s dst f).hmp = s.hmp ∧ (State.casTo s dst f).mcp = s.mcp ∧ (State.casTo s dst f).pmb = s.pmb
    ∧ (State.casTo s dst f).lt = s.lt ∧ (State.casTo s dst f).jtag = s.jtag ∧ (State.casTo s dst f).sec = s.sec
    ∧ (State.casTo s dst f).pwr = s.pwr ∧ (State.casTo s dst f).gpio = s.gpio ∧ (State.casTo s dst f).cnt = s.cnt
    ∧ (State.casTo s dst f).pending = s.pending :=
  ⟨rfl, rfl, rfl, rfl, rfl, rfl, rfl, rfl, rfl, rfl, rfl, rfl, rfl, rfl, rfl, rfl, rfl, rfl, rfl, rfl, rfl, rfl⟩
@[simp] theorem State.casUp_frame (s : State) (f : CasFrame) :
    (State.casUp s f).hw = s.hw ∧ (State.casUp s f).sys = s.sys ∧ (State.casUp s f).chans = s.chans
    ∧ (State.casUp s f).seq = s.seq ∧ (State.casUp s f).hs = s.hs ∧ (State.casUp s f).camp = s.camp
    ∧ (State.casUp s f).hld = s.hld ∧ (State.casUp s f).flt = s.flt ∧ (State.casUp s f).wdg = s.wdg
    ∧ (State.casUp s f).env = s.env ∧ (State.casUp s f).bbx = s.bbx ∧ (State.casUp s f).cfg = s.cfg
    ∧ (State.casUp s f).hmp = s.hmp ∧ (State.casUp s f).mcp = s.mcp ∧ (State.casUp s f).pmb = s.pmb
    ∧ (State.casUp s f).lt = s.lt ∧ (State.casUp s f).jtag = s.jtag ∧ (State.casUp s f).sec = s.sec
    ∧ (State.casUp s f).pwr = s.pwr ∧ (State.casUp s f).gpio = s.gpio ∧ (State.casUp s f).cnt = s.cnt
    ∧ (State.casUp s f).pending = s.pending :=
  ⟨rfl, rfl, rfl, rfl, rfl, rfl, rfl, rfl, rfl, rfl, rfl, rfl, rfl, rfl, rfl, rfl, rfl, rfl, rfl, rfl, rfl, rfl⟩
@[simp] theorem State.casDown_frame (s : State) (f : CasFrame) :
    (State.casDown s f).hw = s.hw ∧ (State.casDown s f).sys = s.sys ∧ (State.casDown s f).chans = s.chans
    ∧ (State.casDown s f).seq = s.seq ∧ (State.casDown s f).hs = s.hs ∧ (State.casDown s f).camp = s.camp
    ∧ (State.casDown s f).hld = s.hld ∧ (State.casDown s f).flt = s.flt ∧ (State.casDown s f).wdg = s.wdg
    ∧ (State.casDown s f).env = s.env ∧ (State.casDown s f).bbx = s.bbx ∧ (State.casDown s f).cfg = s.cfg
    ∧ (State.casDown s f).hmp = s.hmp ∧ (State.casDown s f).mcp = s.mcp ∧ (State.casDown s f).pmb = s.pmb
    ∧ (State.casDown s f).lt = s.lt ∧ (State.casDown s f).jtag = s.jtag ∧ (State.casDown s f).sec = s.sec
    ∧ (State.casDown s f).pwr = s.pwr ∧ (State.casDown s f).gpio = s.gpio ∧ (State.casDown s f).cnt = s.cnt
    ∧ (State.casDown s f).pending = s.pending :=
  ⟨rfl, rfl, rfl, rfl, rfl, rfl, rfl, rfl, rfl, rfl, rfl, rfl, rfl, rfl, rfl, rfl, rfl, rfl, rfl, rfl, rfl, rfl⟩
@[simp] theorem State.safeStep_frame (s : State) (k : Nat) :
    (State.safeStep s k).hw = s.hw ∧ (State.safeStep s k).sys = s.sys ∧ (State.safeStep s k).chans = s.chans
    ∧ (State.safeStep s k).seq = s.seq ∧ (State.safeStep s k).hs = s.hs ∧ (State.safeStep s k).camp = s.camp
    ∧ (State.safeStep s k).hld = s.hld ∧ (State.safeStep s k).wdg = s.wdg ∧ (State.safeStep s k).env = s.env
    ∧ (State.safeStep s k).bbx = s.bbx ∧ (State.safeStep s k).cfg = s.cfg ∧ (State.safeStep s k).cas = s.cas
    ∧ (State.safeStep s k).hmp = s.hmp ∧ (State.safeStep s k).mcp = s.mcp ∧ (State.safeStep s k).pmb = s.pmb
    ∧ (State.safeStep s k).lt = s.lt ∧ (State.safeStep s k).jtag = s.jtag ∧ (State.safeStep s k).sec = s.sec
    ∧ (State.safeStep s k).pwr = s.pwr ∧ (State.safeStep s k).gpio = s.gpio ∧ (State.safeStep s k).cnt = s.cnt
    ∧ (State.safeStep s k).pending = s.pending :=
  ⟨rfl, rfl, rfl, rfl, rfl, rfl, rfl, rfl, rfl, rfl, rfl, rfl, rfl, rfl, rfl, rfl, rfl, rfl, rfl, rfl, rfl, rfl⟩
@[simp] theorem State.gpioErr_frame (s : State) (code p pin : Nat) :
    (State.gpioErr s code p pin).hw = s.hw ∧ (State.gpioErr s code p pin).sys = s.sys
    ∧ (State.gpioErr s code p pin).chans = s.chans ∧ (State.gpioErr s code p pin).seq = s.seq
    ∧ (State.gpioErr s code p pin).hs = s.hs ∧ (State.gpioErr s code p pin).camp = s.camp
    ∧ (State.gpioErr s code p pin).hld = s.hld ∧ (State.gpioErr s code p pin).flt = s.flt
    ∧ (State.gpioErr s code p pin).wdg = s.wdg ∧ (State.gpioErr s code p pin).env = s.env
    ∧ (State.gpioErr s code p pin).bbx = s.bbx ∧ (State.gpioErr s code p pin).cfg = s.cfg
    ∧ (State.gpioErr s code p pin).cas = s.cas ∧ (State.gpioErr s code p pin).hmp = s.hmp
    ∧ (State.gpioErr s code p pin).mcp = s.mcp ∧ (State.gpioErr s code p pin).pmb = s.pmb
    ∧ (State.gpioErr s code p pin).lt = s.lt ∧ (State.gpioErr s code p pin).jtag = s.jtag
    ∧ (State.gpioErr s code p pin).sec = s.sec ∧ (State.gpioErr s code p pin).pwr = s.pwr
    ∧ (State.gpioErr s code p pin).cnt = s.cnt ∧ (State.gpioErr s code p pin).pending = s.pending :=
  ⟨rfl, rfl, rfl, rfl, rfl, rfl, rfl, rfl, rfl, rfl, rfl, rfl, rfl, rfl, rfl, rfl, rfl, rfl, rfl, rfl, rfl, rfl⟩
@[simp] theorem State.bbxTrigger_frame (s : State) (kind src stamp : Nat) :
    (State.bbxTrigger s kind src stamp).hw = s.hw ∧ (State.bbxTrigger s kind src stamp).sys = s.sys
    ∧ (State.bbxTrigger s kind src stamp).chans = s.chans ∧ (State.bbxTrigger s kind src stamp).seq = s.seq
    ∧ (State.bbxTrigger s kind src stamp).hs = s.hs ∧ (State.bbxTrigger s kind src stamp).camp = s.camp
    ∧ (State.bbxTrigger s kind src stamp).hld = s.hld ∧ (State.bbxTrigger s kind src stamp).flt = s.flt
    ∧ (State.bbxTrigger s kind src stamp).wdg = s.wdg ∧ (State.bbxTrigger s kind src stamp).env = s.env
    ∧ (State.bbxTrigger s kind src stamp).cfg = s.cfg ∧ (State.bbxTrigger s kind src stamp).cas = s.cas
    ∧ (State.bbxTrigger s kind src stamp).hmp = s.hmp ∧ (State.bbxTrigger s kind src stamp).mcp = s.mcp
    ∧ (State.bbxTrigger s kind src stamp).pmb = s.pmb ∧ (State.bbxTrigger s kind src stamp).lt = s.lt
    ∧ (State.bbxTrigger s kind src stamp).jtag = s.jtag ∧ (State.bbxTrigger s kind src stamp).sec = s.sec
    ∧ (State.bbxTrigger s kind src stamp).pwr = s.pwr ∧ (State.bbxTrigger s kind src stamp).gpio = s.gpio
    ∧ (State.bbxTrigger s kind src stamp).cnt = s.cnt ∧ (State.bbxTrigger s kind src stamp).pending = s.pending :=
  ⟨rfl, rfl, rfl, rfl, rfl, rfl, rfl, rfl, rfl, rfl, rfl, rfl, rfl, rfl, rfl, rfl, rfl, rfl, rfl, rfl, rfl, rfl⟩
@[simp] theorem State.lockFails_frame (s : State) (p : Nat) :
    (State.lockFails s p).hw = s.hw ∧ (State.lockFails s p).sys = s.sys ∧ (State.lockFails s p).chans = s.chans
    ∧ (State.lockFails s p).seq = s.seq ∧ (State.lockFails s p).hs = s.hs ∧ (State.lockFails s p).camp = s.camp
    ∧ (State.lockFails s p).hld = s.hld ∧ (State.lockFails s p).flt = s.flt ∧ (State.lockFails s p).wdg = s.wdg
    ∧ (State.lockFails s p).env = s.env ∧ (State.lockFails s p).bbx = s.bbx ∧ (State.lockFails s p).cfg = s.cfg
    ∧ (State.lockFails s p).cas = s.cas ∧ (State.lockFails s p).hmp = s.hmp ∧ (State.lockFails s p).mcp = s.mcp
    ∧ (State.lockFails s p).pmb = s.pmb ∧ (State.lockFails s p).lt = s.lt ∧ (State.lockFails s p).jtag = s.jtag
    ∧ (State.lockFails s p).sec = s.sec ∧ (State.lockFails s p).pwr = s.pwr ∧ (State.lockFails s p).cnt = s.cnt
    ∧ (State.lockFails s p).pending = s.pending :=
  ⟨rfl, rfl, rfl, rfl, rfl, rfl, rfl, rfl, rfl, rfl, rfl, rfl, rfl, rfl, rfl, rfl, rfl, rfl, rfl, rfl, rfl, rfl⟩
@[simp] theorem State.takeFuses_frame (s : State) (f : Fuses) :
    (State.takeFuses s f).chans = s.chans ∧ (State.takeFuses s f).seq = s.seq ∧ (State.takeFuses s f).hs = s.hs
    ∧ (State.takeFuses s f).camp = s.camp ∧ (State.takeFuses s f).hld = s.hld ∧ (State.takeFuses s f).flt = s.flt
    ∧ (State.takeFuses s f).wdg = s.wdg ∧ (State.takeFuses s f).env = s.env ∧ (State.takeFuses s f).bbx = s.bbx
    ∧ (State.takeFuses s f).cfg = s.cfg ∧ (State.takeFuses s f).cas = s.cas ∧ (State.takeFuses s f).hmp = s.hmp
    ∧ (State.takeFuses s f).mcp = s.mcp ∧ (State.takeFuses s f).pmb = s.pmb ∧ (State.takeFuses s f).lt = s.lt
    ∧ (State.takeFuses s f).jtag = s.jtag ∧ (State.takeFuses s f).sec = s.sec ∧ (State.takeFuses s f).pwr = s.pwr
    ∧ (State.takeFuses s f).gpio = s.gpio ∧ (State.takeFuses s f).cnt = s.cnt
    ∧ (State.takeFuses s f).pending = s.pending :=
  ⟨rfl, rfl, rfl, rfl, rfl, rfl, rfl, rfl, rfl, rfl, rfl, rfl, rfl, rfl, rfl, rfl, rfl, rfl, rfl, rfl, rfl⟩
@[simp] theorem State.cntCapture_frame (s : State) (src t : Nat) :
    (State.cntCapture s src t).hw = s.hw ∧ (State.cntCapture s src t).sys = s.sys
    ∧ (State.cntCapture s src t).chans = s.chans ∧ (State.cntCapture s src t).seq = s.seq
    ∧ (State.cntCapture s src t).hs = s.hs ∧ (State.cntCapture s src t).camp = s.camp
    ∧ (State.cntCapture s src t).hld = s.hld ∧ (State.cntCapture s src t).flt = s.flt
    ∧ (State.cntCapture s src t).wdg = s.wdg ∧ (State.cntCapture s src t).env = s.env
    ∧ (State.cntCapture s src t).bbx = s.bbx ∧ (State.cntCapture s src t).cfg = s.cfg
    ∧ (State.cntCapture s src t).cas = s.cas ∧ (State.cntCapture s src t).hmp = s.hmp
    ∧ (State.cntCapture s src t).mcp = s.mcp ∧ (State.cntCapture s src t).pmb = s.pmb
    ∧ (State.cntCapture s src t).lt = s.lt ∧ (State.cntCapture s src t).jtag = s.jtag
    ∧ (State.cntCapture s src t).sec = s.sec ∧ (State.cntCapture s src t).pwr = s.pwr
    ∧ (State.cntCapture s src t).gpio = s.gpio ∧ (State.cntCapture s src t).pending = s.pending :=
  ⟨rfl, rfl, rfl, rfl, rfl, rfl, rfl, rfl, rfl, rfl, rfl, rfl, rfl, rfl, rfl, rfl, rfl, rfl, rfl, rfl, rfl, rfl⟩
@[simp] theorem State.release_frame (s : State) :
    (State.release s).hw = s.hw ∧ (State.release s).sys = s.sys ∧ (State.release s).seq = s.seq
    ∧ (State.release s).camp = s.camp ∧ (State.release s).hld = s.hld ∧ (State.release s).flt = s.flt
    ∧ (State.release s).wdg = s.wdg ∧ (State.release s).env = s.env ∧ (State.release s).bbx = s.bbx
    ∧ (State.release s).cfg = s.cfg ∧ (State.release s).cas = s.cas ∧ (State.release s).hmp = s.hmp
    ∧ (State.release s).mcp = s.mcp ∧ (State.release s).pmb = s.pmb ∧ (State.release s).lt = s.lt
    ∧ (State.release s).jtag = s.jtag ∧ (State.release s).sec = s.sec ∧ (State.release s).pwr = s.pwr
    ∧ (State.release s).gpio = s.gpio ∧ (State.release s).cnt = s.cnt ∧ (State.release s).pending = s.pending :=
  ⟨rfl, rfl, rfl, rfl, rfl, rfl, rfl, rfl, rfl, rfl, rfl, rfl, rfl, rfl, rfl, rfl, rfl, rfl, rfl, rfl, rfl⟩

end Sys2Proof.Machine
end

