-- ==== Sys2Proof/Laws/Tables.lean ====
section
/-! SUPPORT. Laws of the tables of channels, fault sources and counters: every operation keeps their canonical form
(Safety.tablesWf). One lemma for each operation says, for each table, that it is as it was, or that it is in canonical form where
it was before; the files Tabs… beside this one hold them. -/

open Sys2Proof

namespace Sys2Proof.Machine

/-- The table of channels is in canonical form. -/
def ChansWf (t : Tab Chan) : Prop := tabWf {} t = true
/-- The table of fault sources is in canonical form. -/
def SrcsWf (t : Tab Src) : Prop := tabWf {} t = true
/-- A table of counters is in canonical form. -/
def NatsWf (t : Tab Nat) : Prop := tabWf 0 t = true

/-- The channels of `t` are those of `s`. -/
abbrev ChansEq (t s : State) : Prop := t.chans = s.chans
/-- The channels of `t` are in canonical form where those of `s` are. -/
abbrev ChansOk (t s : State) : Prop := ChansWf s.chans → ChansWf t.chans
/-- The fault sources of `t` are those of `s`. -/
abbrev SrcsEq (t s : State) : Prop := t.flt.srcs = s.flt.srcs
/-- The fault sources of `t` are in canonical form where those of `s` are. -/
abbrev SrcsOk (t s : State) : Prop := SrcsWf s.flt.srcs → SrcsWf t.flt.srcs
/-- The counters of `t` are those of `s`. -/
abbrev CntEq (t s : State) : Prop := t.cnt.leaf = s.cnt.leaf ∧ t.cnt.isl = s.cnt.isl ∧ t.cnt.dev = s.cnt.dev
/-- The counters of `t` are in canonical form where those of `s` are. -/
abbrev CntOk (t s : State) : Prop :=
  (NatsWf s.cnt.leaf → NatsWf t.cnt.leaf) ∧ (NatsWf s.cnt.isl → NatsWf t.cnt.isl) ∧ (NatsWf s.cnt.dev → NatsWf t.cnt.dev)
/-- All three tables of `t` are in canonical form where those of `s` are. -/
abbrev TabsOk (t s : State) : Prop := ChansOk t s ∧ SrcsOk t s ∧ CntOk t s
/-- All three tables of `t` are those of `s`. -/
abbrev TabsEq (t s : State) : Prop := ChansEq t s ∧ SrcsEq t s ∧ CntEq t s

@[simp] theorem ChansWf_nil : ChansWf [] := rfl
@[simp] theorem SrcsWf_nil : SrcsWf [] := rfl
@[simp] theorem NatsWf_nil : NatsWf [] := rfl
@[simp] theorem ChansWf_tset (d : Chan) (t : Tab Chan) (k : Nat) (v : Chan) (hd : d = {}) (h : ChansWf t) : ChansWf
    (tset d t k v) :=
  hd ▸ tabWf_tset _ _ _ _ h
@[simp] theorem ChansWf_tmod (d : Chan) (t : Tab Chan) (k : Nat) (f : Chan → Chan) (hd : d = {}) (h : ChansWf t) :
    ChansWf (tmod d t k f) :=
  hd ▸ tabWf_tmod _ _ _ _ h
@[simp] theorem ChansWf_tmap (d : Chan) (t : Tab Chan) (f : Nat → Chan → Chan) (hd : d = {}) (h : ChansWf t) :
    ChansWf (tmap d f t) :=
  hd ▸ tabWf_tmap _ _ _ h
@[simp] theorem SrcsWf_tset (d : Src) (t : Tab Src) (k : Nat) (v : Src) (hd : d = {}) (h : SrcsWf t) : SrcsWf (tset d t k v) :=
  hd ▸ tabWf_tset _ _ _ _ h
@[simp] theorem SrcsWf_tmod (d : Src) (t : Tab Src) (k : Nat) (f : Src → Src) (hd : d = {}) (h : SrcsWf t) : SrcsWf
    (tmod d t k f) :=
  hd ▸ tabWf_tmod _ _ _ _ h
@[simp] theorem SrcsWf_tmap (d : Src) (t : Tab Src) (f : Nat → Src → Src) (hd : d = {}) (h : SrcsWf t) : SrcsWf (tmap d f t) :=
  hd ▸ tabWf_tmap _ _ _ h
@[simp] theorem NatsWf_tset (t : Tab Nat) (k : Nat) (v : Nat) (h : NatsWf t) : NatsWf (tset 0 t k v) := tabWf_tset _ _ _ _ h
@[simp] theorem NatsWf_tmod (t : Tab Nat) (k : Nat) (f : Nat → Nat) (h : NatsWf t) : NatsWf (tmod 0 t k f) :=
    tabWf_tmod _ _ _ _ h
@[simp] theorem NatsWf_tmap (t : Tab Nat) (f : Nat → Nat → Nat) (h : NatsWf t) : NatsWf (tmap 0 f t) := tabWf_tmap _ _ _ h
theorem NatsWf_foldl {α : Type} (g : Tab Nat → α → Tab Nat) (l : List α) (t : Tab Nat) (h : NatsWf t)
    (hg : ∀ t x, NatsWf t → NatsWf (g t x)) : NatsWf (l.foldl g t) := by
  induction l generalizing t with
  | nil => exact h
  | cons a r ih => exact ih _ (hg _ _ h)
@[simp] theorem Cnt.foldl_leaf {α : Type} (g : Cnt → α → Cnt) (l : List α) (c : Cnt) (hc : NatsWf c.leaf)
    (h : ∀ c x, NatsWf c.leaf → NatsWf (g c x).leaf) : NatsWf (l.foldl g c).leaf := by
  induction l generalizing c with
  | nil => exact hc
  | cons a r ih => exact ih _ (h _ _ hc)
@[simp] theorem Cnt.foldl_isl {α : Type} (g : Cnt → α → Cnt) (l : List α) (c : Cnt) (hc : NatsWf c.isl)
    (h : ∀ c x, NatsWf c.isl → NatsWf (g c x).isl) : NatsWf (l.foldl g c).isl := by
  induction l generalizing c with
  | nil => exact hc
  | cons a r ih => exact ih _ (h _ _ hc)
@[simp] theorem Cnt.foldl_dev {α : Type} (g : Cnt → α → Cnt) (l : List α) (c : Cnt) (hc : NatsWf c.dev)
    (h : ∀ c x, NatsWf c.dev → NatsWf (g c x).dev) : NatsWf (l.foldl g c).dev := by
  induction l generalizing c with
  | nil => exact hc
  | cons a r ih => exact ih _ (h _ _ hc)
@[simp] theorem ChansWf_ite (c : Prop) [Decidable c] (a b : Tab Chan) :
    ChansWf (if c then a else b) = if c then ChansWf a else ChansWf b := apply_ite _ _ _ _
@[simp] theorem SrcsWf_ite (c : Prop) [Decidable c] (a b : Tab Src) :
    SrcsWf (if c then a else b) = if c then SrcsWf a else SrcsWf b := apply_ite _ _ _ _
@[simp] theorem NatsWf_ite (c : Prop) [Decidable c] (a b : Tab Nat) :
    NatsWf (if c then a else b) = if c then NatsWf a else NatsWf b := apply_ite _ _ _ _
@[simp] theorem ite_chans (c : Prop) [Decidable c] (a b : State) :
    (if c then a else b).chans = if c then a.chans else b.chans := apply_ite _ _ _ _
@[simp] theorem ite_srcs (c : Prop) [Decidable c] (a b : State) :
    (if c then a else b).flt.srcs = if c then a.flt.srcs else b.flt.srcs := by split <;> rfl
@[simp] theorem ite_fsrcs (c : Prop) [Decidable c] (a b : Flt) :
    (if c then a else b).srcs = if c then a.srcs else b.srcs := apply_ite _ _ _ _
@[simp] theorem ite_leaf (c : Prop) [Decidable c] (a b : State) :
    (if c then a else b).cnt.leaf = if c then a.cnt.leaf else b.cnt.leaf := by split <;> rfl
@[simp] theorem ite_isl (c : Prop) [Decidable c] (a b : State) :
    (if c then a else b).cnt.isl = if c then a.cnt.isl else b.cnt.isl := by split <;> rfl
@[simp] theorem ite_dev (c : Prop) [Decidable c] (a b : State) :
    (if c then a else b).cnt.dev = if c then a.cnt.dev else b.cnt.dev := by split <;> rfl
@[simp] theorem ite_cleaf (c : Prop) [Decidable c] (a b : Cnt) :
    (if c then a else b).leaf = if c then a.leaf else b.leaf := apply_ite _ _ _ _
@[simp] theorem ite_cisl (c : Prop) [Decidable c] (a b : Cnt) :
    (if c then a else b).isl = if c then a.isl else b.isl := apply_ite _ _ _ _
@[simp] theorem ite_cdev (c : Prop) [Decidable c] (a b : Cnt) :
    (if c then a else b).dev = if c then a.dev else b.dev := apply_ite _ _ _ _

theorem TabsOk.rfl' (s : State) : TabsOk s s := ⟨id, id, id, id, id⟩
theorem TabsOk.trans' {a b c : State} (h : TabsOk a b) (k : TabsOk b c) : TabsOk a c :=
  ⟨h.1 ∘ k.1, h.2.1 ∘ k.2.1, h.2.2.1 ∘ k.2.2.1, h.2.2.2.1 ∘ k.2.2.2.1, h.2.2.2.2 ∘ k.2.2.2.2⟩
theorem TabsEq.ok {a b : State} (h : TabsEq a b) : TabsOk a b := by
  obtain ⟨h1, h2, h3, h4, h5⟩ := h
  exact ⟨fun h => h1 ▸ h, fun h => h2 ▸ h, fun h => h3 ▸ h, fun h => h4 ▸ h, fun h => h5 ▸ h⟩
theorem foldl_of {α β : Type} (P : β → β → Prop) (hr : ∀ s, P s s) (ht : ∀ {a b c}, P a b → P b c → P a c) (g : β → α → β)
    (h : ∀ s x, P (g s x) s) (l : List α) (s : β) : P (l.foldl g s) s := by
  induction l generalizing s with
  | nil => exact hr s
  | cons a r ih => exact ht (ih _) (h _ _)
theorem TabsOk.foldl {α : Type} (g : State → α → State) (h : ∀ s x, TabsOk (g s x) s) (l : List α) (s : State) :
    TabsOk (l.foldl g s) s := foldl_of TabsOk TabsOk.rfl' TabsOk.trans' g h l s
@[simp] theorem foldl_chans {α : Type} (g : State → α → State) (h : ∀ s x, (g s x).chans = s.chans) (l : List α) (s : State) :
    (l.foldl g s).chans = s.chans := foldl_of (fun t s => t.chans = s.chans) (fun _ => rfl) Eq.trans g h l s
@[simp] theorem foldl_srcs {α : Type} (g : State → α → State) (h : ∀ s x, (g s x).flt.srcs = s.flt.srcs) (l : List α)
    (s : State) :
    (l.foldl g s).flt.srcs = s.flt.srcs := foldl_of (fun t s => t.flt.srcs = s.flt.srcs) (fun _ => rfl) Eq.trans g h l s
@[simp] theorem foldl_leaf {α : Type} (g : State → α → State) (h : ∀ s x, (g s x).cnt.leaf = s.cnt.leaf) (l : List α)
    (s : State) :
    (l.foldl g s).cnt.leaf = s.cnt.leaf := foldl_of (fun t s => t.cnt.leaf = s.cnt.leaf) (fun _ => rfl) Eq.trans g h l s
@[simp] theorem foldl_isl {α : Type} (g : State → α → State) (h : ∀ s x, (g s x).cnt.isl = s.cnt.isl) (l : List α) (s : State) :
    (l.foldl g s).cnt.isl = s.cnt.isl := foldl_of (fun t s => t.cnt.isl = s.cnt.isl) (fun _ => rfl) Eq.trans g h l s
@[simp] theorem foldl_dev {α : Type} (g : State → α → State) (h : ∀ s x, (g s x).cnt.dev = s.cnt.dev) (l : List α) (s : State) :
    (l.foldl g s).cnt.dev = s.cnt.dev := foldl_of (fun t s => t.cnt.dev = s.cnt.dev) (fun _ => rfl) Eq.trans g h l s
@[simp] theorem foldl_chansWf {α : Type} (g : State → α → State) (l : List α) (s : State) (hs : ChansWf s.chans)
    (h : ∀ s x, ChansWf s.chans → ChansWf (g s x).chans) : ChansWf (l.foldl g s).chans :=
  foldl_of ChansOk (fun _ => id) (fun h k x => h (k x)) g h l s hs
@[simp] theorem foldl_srcsWf {α : Type} (g : State → α → State) (l : List α) (s : State) (hs : SrcsWf s.flt.srcs)
    (h : ∀ s x, SrcsWf s.flt.srcs → SrcsWf (g s x).flt.srcs) : SrcsWf (l.foldl g s).flt.srcs :=
  foldl_of SrcsOk (fun _ => id) (fun h k x => h (k x)) g h l s hs
@[simp] theorem foldl_leafWf {α : Type} (g : State → α → State) (l : List α) (s : State) (hs : NatsWf s.cnt.leaf)
    (h : ∀ s x, NatsWf s.cnt.leaf → NatsWf (g s x).cnt.leaf) : NatsWf (l.foldl g s).cnt.leaf := by
  induction l generalizing s with
  | nil => exact hs
  | cons a r ih => exact ih _ (h _ _ hs)
@[simp] theorem foldl_islWf {α : Type} (g : State → α → State) (l : List α) (s : State) (hs : NatsWf s.cnt.isl)
    (h : ∀ s x, NatsWf s.cnt.isl → NatsWf (g s x).cnt.isl) : NatsWf (l.foldl g s).cnt.isl := by
  induction l generalizing s with
  | nil => exact hs
  | cons a r ih => exact ih _ (h _ _ hs)
@[simp] theorem foldl_devWf {α : Type} (g : State → α → State) (l : List α) (s : State) (hs : NatsWf s.cnt.dev)
    (h : ∀ s x, NatsWf s.cnt.dev → NatsWf (g s x).cnt.dev) : NatsWf (l.foldl g s).cnt.dev := by
  induction l generalizing s with
  | nil => exact hs
  | cons a r ih => exact ih _ (h _ _ hs)
@[simp] theorem foldr_chansWf {α : Type} (g : α → State → State) (l : List α) (s : State) (hs : ChansWf s.chans)
    (h : ∀ x s, ChansWf s.chans → ChansWf (g x s).chans) : ChansWf (l.foldr g s).chans := by
  induction l with
  | nil => exact hs
  | cons a r ih => exact h _ _ ih
@[simp] theorem foldr_srcsWf {α : Type} (g : α → State → State) (l : List α) (s : State) (hs : SrcsWf s.flt.srcs)
    (h : ∀ x s, SrcsWf s.flt.srcs → SrcsWf (g x s).flt.srcs) : SrcsWf (l.foldr g s).flt.srcs := by
  induction l with
  | nil => exact hs
  | cons a r ih => exact h _ _ ih
@[simp] theorem foldr_leafWf {α : Type} (g : α → State → State) (l : List α) (s : State) (hs : NatsWf s.cnt.leaf)
    (h : ∀ x s, NatsWf s.cnt.leaf → NatsWf (g x s).cnt.leaf) : NatsWf (l.foldr g s).cnt.leaf := by
  induction l with
  | nil => exact hs
  | cons a r ih => exact h _ _ ih
@[simp] theorem foldr_islWf {α : Type} (g : α → State → State) (l : List α) (s : State) (hs : NatsWf s.cnt.isl)
    (h : ∀ x s, NatsWf s.cnt.isl → NatsWf (g x s).cnt.isl) : NatsWf (l.foldr g s).cnt.isl := by
  induction l with
  | nil => exact hs
  | cons a r ih => exact h _ _ ih
@[simp] theorem foldr_devWf {α : Type} (g : α → State → State) (l : List α) (s : State) (hs : NatsWf s.cnt.dev)
    (h : ∀ x s, NatsWf s.cnt.dev → NatsWf (g x s).cnt.dev) : NatsWf (l.foldr g s).cnt.dev := by
  induction l with
  | nil => exact hs
  | cons a r ih => exact h _ _ ih
@[simp] theorem ChansWf_foldl {α : Type} (g : Tab Chan → α → Tab Chan) (l : List α) (t : Tab Chan) (h : ChansWf t)
    (hg : ∀ t x, ChansWf t → ChansWf (g t x)) : ChansWf (l.foldl g t) := by
  induction l generalizing t with
  | nil => exact h
  | cons a r ih => exact ih _ (hg _ _ h)
@[simp] theorem Cnt.foldr_leaf {α : Type} (g : α → Cnt → Cnt) (l : List α) (c : Cnt) (hc : NatsWf c.leaf)
    (h : ∀ x c, NatsWf c.leaf → NatsWf (g x c).leaf) : NatsWf (l.foldr g c).leaf := by
  induction l with
  | nil => exact hc
  | cons a r ih => exact h _ _ ih
@[simp] theorem Cnt.foldr_isl {α : Type} (g : α → Cnt → Cnt) (l : List α) (c : Cnt) (hc : NatsWf c.isl)
    (h : ∀ x c, NatsWf c.isl → NatsWf (g x c).isl) : NatsWf (l.foldr g c).isl := by
  induction l with
  | nil => exact hc
  | cons a r ih => exact h _ _ ih
@[simp] theorem Cnt.foldr_dev {α : Type} (g : α → Cnt → Cnt) (l : List α) (c : Cnt) (hc : NatsWf c.dev)
    (h : ∀ x c, NatsWf c.dev → NatsWf (g x c).dev) : NatsWf (l.foldr g c).dev := by
  induction l with
  | nil => exact hc
  | cons a r ih => exact h _ _ ih
/-- The channels of `t` are those of `s`; its fault sources and counters are in canonical form where those of `s` are. -/
abbrev ReadOk (t s : State) : Prop := ChansEq t s ∧ SrcsOk t s ∧ CntOk t s
theorem ReadOk.rfl' (s : State) : ReadOk s s := ⟨rfl, id, id, id, id⟩
theorem ReadOk.trans' {a b c : State} (h : ReadOk a b) (k : ReadOk b c) : ReadOk a c :=
  ⟨h.1.trans k.1, h.2.1 ∘ k.2.1, h.2.2.1 ∘ k.2.2.1, h.2.2.2.1 ∘ k.2.2.2.1, h.2.2.2.2 ∘ k.2.2.2.2⟩

end Sys2Proof.Machine
end

