-- ==== Sys2Proof/Laws/TabsOps.lean ====
section
/-! SUPPORT. What the shared operations of Operands, Flags, Capture and Ops do to the tables (Tables.lean). -/

open Sys2Proof

namespace Sys2Proof.Machine

@[simp] theorem State.modChan_tabs (s : State) (n : Nat) (f : Chan → Chan) : ChansOk (State.modChan s n f) s ∧ SrcsEq
    (State.modChan s n f) s ∧ CntEq (State.modChan s n f) s := by
  refine ⟨?_, ?_, ?_⟩
  · intro h; simp [State.modChan, h]
  · simp [SrcsEq, State.modChan]
  · simp [CntEq, State.modChan]
@[simp] theorem State.byHost_chans (s : State) (a : Nat) (min : Level) (f : Level → State) (h : ChansWf s.chans) (hf :
    ∀ l, ChansWf s.chans → ChansWf (f l).chans) : ChansWf (State.byHost s a min f).chans := by
  unfold State.byHost; split
  · exact h
  · exact hf _ h
@[simp] theorem State.byHost_srcs (s : State) (a : Nat) (min : Level) (f : Level → State) (h : SrcsWf s.flt.srcs) (hf
    : ∀ l, SrcsWf s.flt.srcs → SrcsWf (f l).flt.srcs) : SrcsWf (State.byHost s a min f).flt.srcs := by
  unfold State.byHost; split
  · exact h
  · exact hf _ h
@[simp] theorem State.byHost_leaf (s : State) (a : Nat) (min : Level) (f : Level → State) (h : NatsWf s.cnt.leaf) (hf
    : ∀ l, NatsWf s.cnt.leaf → NatsWf (f l).cnt.leaf) : NatsWf (State.byHost s a min f).cnt.leaf := by
  unfold State.byHost; split
  · exact h
  · exact hf _ h
@[simp] theorem State.byHost_isl (s : State) (a : Nat) (min : Level) (f : Level → State) (h : NatsWf s.cnt.isl) (hf :
    ∀ l, NatsWf s.cnt.isl → NatsWf (f l).cnt.isl) : NatsWf (State.byHost s a min f).cnt.isl := by
  unfold State.byHost; split
  · exact h
  · exact hf _ h
@[simp] theorem State.byHost_dev (s : State) (a : Nat) (min : Level) (f : Level → State) (h : NatsWf s.cnt.dev) (hf :
    ∀ l, NatsWf s.cnt.dev → NatsWf (f l).cnt.dev) : NatsWf (State.byHost s a min f).cnt.dev := by
  unfold State.byHost; split
  · exact h
  · exact hf _ h
@[simp] theorem State.byHost_chansEq (s : State) (a : Nat) (min : Level) (f : Level → State) (hf : ∀ l, (f l).chans =
    s.chans) : (State.byHost s a min f).chans = s.chans := by
  unfold State.byHost; split
  · rfl
  · exact hf _
@[simp] theorem State.byHost_srcsEq (s : State) (a : Nat) (min : Level) (f : Level → State) (hf : ∀ l, (f l).flt.srcs
    = s.flt.srcs) : (State.byHost s a min f).flt.srcs = s.flt.srcs := by
  unfold State.byHost; split
  · rfl
  · exact hf _
@[simp] theorem State.byHost_leafEq (s : State) (a : Nat) (min : Level) (f : Level → State) (hf : ∀ l, (f l).cnt.leaf
    = s.cnt.leaf) : (State.byHost s a min f).cnt.leaf = s.cnt.leaf := by
  unfold State.byHost; split
  · rfl
  · exact hf _
@[simp] theorem State.byHost_islEq (s : State) (a : Nat) (min : Level) (f : Level → State) (hf : ∀ l, (f l).cnt.isl =
    s.cnt.isl) : (State.byHost s a min f).cnt.isl = s.cnt.isl := by
  unfold State.byHost; split
  · rfl
  · exact hf _
@[simp] theorem State.byHost_devEq (s : State) (a : Nat) (min : Level) (f : Level → State) (hf : ∀ l, (f l).cnt.dev =
    s.cnt.dev) : (State.byHost s a min f).cnt.dev = s.cnt.dev := by
  unfold State.byHost; split
  · rfl
  · exact hf _
@[simp] theorem State.byReader_chans (s : State) (a : Nat) (f : State) (h : ChansWf s.chans)
    (hf : ChansWf f.chans) :
    ChansWf (s.byReader a f).chans := by
  unfold State.byReader; (repeat' split) <;> assumption
@[simp] theorem State.byReader_srcs (s : State) (a : Nat) (f : State) (h : SrcsWf s.flt.srcs)
    (hf : SrcsWf f.flt.srcs) :
    SrcsWf (s.byReader a f).flt.srcs := by
  unfold State.byReader; (repeat' split) <;> assumption
@[simp] theorem State.byReader_leaf (s : State) (a : Nat) (f : State) (h : NatsWf s.cnt.leaf)
    (hf : NatsWf f.cnt.leaf) :
    NatsWf (s.byReader a f).cnt.leaf := by
  unfold State.byReader; (repeat' split) <;> assumption
@[simp] theorem State.byReader_isl (s : State) (a : Nat) (f : State) (h : NatsWf s.cnt.isl)
    (hf : NatsWf f.cnt.isl) :
    NatsWf (s.byReader a f).cnt.isl := by
  unfold State.byReader; (repeat' split) <;> assumption
@[simp] theorem State.byReader_dev (s : State) (a : Nat) (f : State) (h : NatsWf s.cnt.dev)
    (hf : NatsWf f.cnt.dev) :
    NatsWf (s.byReader a f).cnt.dev := by
  unfold State.byReader; (repeat' split) <;> assumption
@[simp] theorem State.chTouch_tabs (s : State) (n : Nat) : ChansOk (State.chTouch s n) s ∧ SrcsEq (State.chTouch s n)
    s ∧ CntEq (State.chTouch s n) s := by
  refine ⟨?_, ?_, ?_⟩
  · intro h; simp [State.chTouch, h]
  · simp [SrcsEq, State.chTouch]
  · simp [CntEq, State.chTouch]
@[simp] theorem State.chHost_chans (s : State) (n ofs : Nat) (min : Level) (f : State → Level → State) (h : ChansWf
    s.chans) (hf : ∀ t l, ChansWf t.chans → ChansWf (f t l).chans) : ChansWf (State.chHost s n ofs min f).chans := by
  unfold State.chHost; refine State.byHost_chans _ _ _ _ h (fun l h => ?_); split <;> simp [h, hf]
@[simp] theorem State.chHost_srcs (s : State) (n ofs : Nat) (min : Level) (f : State → Level → State) (h : SrcsWf
    s.flt.srcs) (hf : ∀ t l, SrcsWf t.flt.srcs → SrcsWf (f t l).flt.srcs) : SrcsWf (State.chHost s n ofs min
    f).flt.srcs := by
  unfold State.chHost; refine State.byHost_srcs _ _ _ _ h (fun l h => ?_); split <;> simp [h, hf]
@[simp] theorem State.chHost_leaf (s : State) (n ofs : Nat) (min : Level) (f : State → Level → State) (h : NatsWf
    s.cnt.leaf) (hf : ∀ t l, NatsWf t.cnt.leaf → NatsWf (f t l).cnt.leaf) : NatsWf (State.chHost s n ofs min
    f).cnt.leaf := by
  unfold State.chHost; refine State.byHost_leaf _ _ _ _ h (fun l h => ?_); split <;> simp [h, hf]
@[simp] theorem State.chHost_isl (s : State) (n ofs : Nat) (min : Level) (f : State → Level → State) (h : NatsWf
    s.cnt.isl) (hf : ∀ t l, NatsWf t.cnt.isl → NatsWf (f t l).cnt.isl) : NatsWf (State.chHost s n ofs min f).cnt.isl
    := by
  unfold State.chHost; refine State.byHost_isl _ _ _ _ h (fun l h => ?_); split <;> simp [h, hf]
@[simp] theorem State.chHost_dev (s : State) (n ofs : Nat) (min : Level) (f : State → Level → State) (h : NatsWf
    s.cnt.dev) (hf : ∀ t l, NatsWf t.cnt.dev → NatsWf (f t l).cnt.dev) : NatsWf (State.chHost s n ofs min f).cnt.dev
    := by
  unfold State.chHost; refine State.byHost_dev _ _ _ _ h (fun l h => ?_); split <;> simp [h, hf]
@[simp] theorem State.chHost_srcsEq (s : State) (n ofs : Nat) (min : Level) (f : State → Level → State) (hf : ∀ t l,
    (f t l).flt.srcs = t.flt.srcs) : (State.chHost s n ofs min f).flt.srcs = s.flt.srcs := by
  unfold State.chHost; refine State.byHost_srcsEq _ _ _ _ (fun l => ?_); split <;> simp [hf]
@[simp] theorem State.chHost_leafEq (s : State) (n ofs : Nat) (min : Level) (f : State → Level → State) (hf : ∀ t l,
    (f t l).cnt.leaf = t.cnt.leaf) : (State.chHost s n ofs min f).cnt.leaf = s.cnt.leaf := by
  unfold State.chHost; refine State.byHost_leafEq _ _ _ _ (fun l => ?_); split <;> simp [hf]
@[simp] theorem State.chHost_islEq (s : State) (n ofs : Nat) (min : Level) (f : State → Level → State) (hf : ∀ t l, (f
    t l).cnt.isl = t.cnt.isl) : (State.chHost s n ofs min f).cnt.isl = s.cnt.isl := by
  unfold State.chHost; refine State.byHost_islEq _ _ _ _ (fun l => ?_); split <;> simp [hf]
@[simp] theorem State.chHost_devEq (s : State) (n ofs : Nat) (min : Level) (f : State → Level → State) (hf : ∀ t l, (f
    t l).cnt.dev = t.cnt.dev) : (State.chHost s n ofs min f).cnt.dev = s.cnt.dev := by
  unfold State.chHost; refine State.byHost_devEq _ _ _ _ (fun l => ?_); split <;> simp [hf]
@[simp] theorem State.irqSys_tabs (s : State) (i : Nat) : TabsEq (State.irqSys s i) s := by
  simp [TabsEq, ChansEq, SrcsEq, CntEq, State.irqSys]
@[simp] theorem State.irqSeq_tabs (s : State) (i : Nat) : TabsEq (State.irqSeq s i) s := by
  simp [TabsEq, ChansEq, SrcsEq, CntEq, State.irqSeq]
@[simp] theorem State.irqSpring_tabs (s : State) (i : Nat) : TabsEq (State.irqSpring s i) s := by
  simp [TabsEq, ChansEq, SrcsEq, CntEq, State.irqSpring]
@[simp] theorem State.irqHld_tabs (s : State) (i : Nat) : TabsEq (State.irqHld s i) s := by
  simp [TabsEq, ChansEq, SrcsEq, CntEq, State.irqHld]
@[simp] theorem State.irqFlt_tabs (s : State) (i : Nat) : TabsEq (State.irqFlt s i) s := by
  simp [TabsEq, ChansEq, SrcsEq, CntEq, State.irqFlt]
@[simp] theorem State.irqWdg_tabs (s : State) (i : Nat) : TabsEq (State.irqWdg s i) s := by
  simp [TabsEq, ChansEq, SrcsEq, CntEq, State.irqWdg]
@[simp] theorem State.irqEnv_tabs (s : State) (i : Nat) : TabsEq (State.irqEnv s i) s := by
  simp [TabsEq, ChansEq, SrcsEq, CntEq, State.irqEnv]
@[simp] theorem State.irqBbx_tabs (s : State) (i : Nat) : TabsEq (State.irqBbx s i) s := by
  simp [TabsEq, ChansEq, SrcsEq, CntEq, State.irqBbx]
@[simp] theorem State.irqCfg_tabs (s : State) (i : Nat) : TabsEq (State.irqCfg s i) s := by
  simp [TabsEq, ChansEq, SrcsEq, CntEq, State.irqCfg]
@[simp] theorem State.irqCas_tabs (s : State) (i : Nat) : TabsEq (State.irqCas s i) s := by
  simp [TabsEq, ChansEq, SrcsEq, CntEq, State.irqCas]
@[simp] theorem State.irqLnk_tabs (s : State) (i : Nat) : TabsEq (State.irqLnk s i) s := by
  simp [TabsEq, ChansEq, SrcsEq, CntEq, State.irqLnk]
@[simp] theorem State.irqSec_tabs (s : State) (i : Nat) : TabsEq (State.irqSec s i) s := by
  simp [TabsEq, ChansEq, SrcsEq, CntEq, State.irqSec]
@[simp] theorem State.irqPwr_tabs (s : State) (i : Nat) : TabsEq (State.irqPwr s i) s := by
  simp [TabsEq, ChansEq, SrcsEq, CntEq, State.irqPwr]
@[simp] theorem State.irqGpio_tabs (s : State) (i : Nat) : TabsEq (State.irqGpio s i) s := by
  simp [TabsEq, ChansEq, SrcsEq, CntEq, State.irqGpio]
@[simp] theorem State.irqCnt_tabs (s : State) (i : Nat) : TabsEq (State.irqCnt s i) s := by
  simp [TabsEq, ChansEq, SrcsEq, CntEq, State.irqCnt]
@[simp] theorem State.irqCh_tabs (s : State) (n i : Nat) : ChansOk (State.irqCh s n i) s ∧ SrcsEq (State.irqCh s n i)
    s ∧ CntEq (State.irqCh s n i) s := by
  refine ⟨?_, ?_, ?_⟩
  · intro h; simp [State.irqCh, h]
  · simp [SrcsEq, State.irqCh]
  · simp [CntEq, State.irqCh]
@[simp] theorem State.irqMh_tabs (s : State) (n i : Nat) : ChansOk (State.irqMh s n i) s ∧ SrcsEq (State.irqMh s n i)
    s ∧ CntEq (State.irqMh s n i) s := by
  refine ⟨?_, ?_, ?_⟩
  · intro h; simp [State.irqMh, h]
  · simp [SrcsEq, State.irqMh]
  · simp [CntEq, State.irqMh]
@[simp] theorem State.draw_tabs (s : State) (len : Nat) : TabsEq (State.draw s len).2 s := by
  simp [TabsEq, ChansEq, SrcsEq, CntEq, State.draw]
@[simp] theorem Cnt.inc_tabs (c : Cnt) (k : Nat) : (NatsWf c.leaf → NatsWf (Cnt.inc c k).leaf) ∧ (NatsWf c.isl →
    NatsWf (Cnt.inc c k).isl) ∧ (NatsWf c.dev → NatsWf (Cnt.inc c k).dev) := by
  refine ⟨fun h => ?_, fun h => ?_, fun h => ?_⟩ <;>
    (simp [Cnt.inc, h])
@[simp] theorem Cnt.unInc_tabs (c : Cnt) (k : Nat) : (NatsWf c.leaf → NatsWf (Cnt.unInc c k).leaf) ∧ (NatsWf c.isl →
    NatsWf (Cnt.unInc c k).isl) ∧ (NatsWf c.dev → NatsWf (Cnt.unInc c k).dev) := by
  refine ⟨fun h => ?_, fun h => ?_, fun h => ?_⟩ <;>
    (simp [Cnt.unInc, h])
@[simp] theorem Cnt.tickEnd_tabs (c : Cnt) : (Cnt.tickEnd c).leaf = c.leaf ∧ (Cnt.tickEnd c).isl = c.isl ∧
    (Cnt.tickEnd c).dev = c.dev := by
  simp [Cnt.tickEnd]
@[simp] theorem Cnt.newTick_tabs (c : Cnt) : (Cnt.newTick c).leaf = c.leaf ∧ (Cnt.newTick c).isl = c.isl ∧
    (Cnt.newTick c).dev = c.dev := by
  simp [Cnt.newTick]
@[simp] theorem Cnt.count_tabs (c : Cnt) (n : Nat) (es : List Nat) : (NatsWf c.leaf → NatsWf (Cnt.count c n es).leaf)
    ∧ (NatsWf c.isl → NatsWf (Cnt.count c n es).isl) ∧ (NatsWf c.dev → NatsWf (Cnt.count c n es).dev) := by
  refine ⟨fun h => ?_, fun h => ?_, fun h => ?_⟩ <;>
    (simp +contextual [Cnt.count, h])
@[simp] theorem State.count_tabs (s : State) (n e : Nat) : ChansEq (State.count s n e) s ∧ SrcsEq (State.count s n e)
    s ∧ CntOk (State.count s n e) s := by
  refine ⟨?_, ?_, ?_, ?_, ?_⟩
  · simp [ChansEq, State.count]
  · simp [SrcsEq, State.count]
  · intro h; simp [State.count, h]
  · intro h; simp [State.count, h]
  · intro h; simp [State.count, h]
@[simp] theorem State.tpAdd_tabs (s : State) (p bytes frames errs : Nat) : TabsEq (State.tpAdd s p bytes frames errs)
    s := by
  simp [TabsEq, ChansEq, SrcsEq, CntEq, State.tpAdd]
@[simp] theorem State.sendTick_tabs (s : State) : TabsEq (State.sendTick s) s := by
  simp [TabsEq, ChansEq, SrcsEq, CntEq, State.sendTick]
@[simp] theorem State.mcpSend_tabs (s : State) (fs : List McpFrame) : TabsEq (State.mcpSend s fs) s := by
  simp [TabsEq, ChansEq, SrcsEq, CntEq, State.mcpSend]
@[simp] theorem State.casTo_tabs (s : State) (dst : Nat) (f : CasFrame) : TabsEq (State.casTo s dst f) s := by
  simp [TabsEq, ChansEq, SrcsEq, CntEq, State.casTo]
@[simp] theorem State.casUp_tabs (s : State) (f : CasFrame) : TabsEq (State.casUp s f) s := by
  simp [TabsEq, ChansEq, SrcsEq, CntEq, State.casUp]
@[simp] theorem State.casDown_tabs (s : State) (f : CasFrame) : TabsEq (State.casDown s f) s := by
  simp [TabsEq, ChansEq, SrcsEq, CntEq, State.casDown]
@[simp] theorem State.answer_tabs (s : State) (status detail : Nat) (payload : List Byte) : TabsEq (State.answer s
    status detail payload) s := by
  simp [TabsEq, ChansEq, SrcsEq, CntEq, State.answer]
@[simp] theorem State.answerOk_tabs (s : State) (at_ status detail : Nat) (payload : List Byte) : TabsEq
    (State.answerOk s at_ status detail payload) s := by
  simp [TabsEq, ChansEq, SrcsEq, CntEq, State.answerOk]
@[simp] theorem State.bbxTrigger_tabs (s : State) (kind src stamp : Nat) : TabsEq (State.bbxTrigger s kind src stamp)
    s := by
  simp [TabsEq, ChansEq, SrcsEq, CntEq, State.bbxTrigger]
@[simp] theorem Flt.logAdd_tabs (f : Flt) (e : FEntry) : (Flt.logAdd f e).srcs = f.srcs := by
  simp [Flt.logAdd]
@[simp] theorem Flt.raise_tabs (f : Flt) (x : Src) (i lev stamp kind : Nat) (wire inj react : Bool) : SrcsWf f.srcs →
    SrcsWf (Flt.raise f x i lev stamp kind wire inj react).srcs := by
  intro h
  simp [Flt.raise, h]
@[simp] theorem Flt.undo_tabs (f : Flt) (i stamp : Nat) : SrcsWf f.srcs → SrcsWf (Flt.undo f i stamp).srcs := by
  intro h
  simp only [Flt.undo]; (repeat' split) <;> simp [h]
@[simp] theorem Flt.conseq_tabs (f : Flt) (i origin stamp : Nat) (inj : Bool) : SrcsWf f.srcs → SrcsWf (Flt.conseq f i
    origin stamp inj).srcs := by
  intro h
  simp [Flt.conseq, h]
@[simp] theorem Cnt.srcEvent_tabs (c : Cnt) (i : Nat) (masked : Bool) : (NatsWf c.leaf → NatsWf (Cnt.srcEvent c i
    masked).leaf) ∧ (NatsWf c.isl → NatsWf (Cnt.srcEvent c i masked).isl) ∧ (NatsWf c.dev → NatsWf (Cnt.srcEvent c i
    masked).dev) := by
  refine ⟨fun h => ?_, fun h => ?_, fun h => ?_⟩ <;>
    (simp [Cnt.srcEvent, h])
@[simp] theorem State.countSrc_tabs (s : State) (i : Nat) (masked : Bool) : ChansEq (State.countSrc s i masked) s ∧
    SrcsEq (State.countSrc s i masked) s ∧ CntOk (State.countSrc s i masked) s := by
  refine ⟨?_, ?_, ?_, ?_, ?_⟩
  · simp [ChansEq, State.countSrc]
  · simp [SrcsEq, State.countSrc]
  · intro h; simp [State.countSrc, h]
  · intro h; simp [State.countSrc, h]
  · intro h; simp [State.countSrc, h]
@[simp] theorem State.report_tabs (s : State) (i stamp : Nat) (inj : Bool) : ChansEq (State.report s i stamp inj) s ∧
    SrcsOk (State.report s i stamp inj) s ∧ CntOk (State.report s i stamp inj) s := by
  refine ⟨?_, ?_, ?_, ?_, ?_⟩
  · simp only [State.report]; (repeat' split) <;> simp [ChansEq]
  · intro h; simp only [State.report]; (repeat' split) <;> simp [h]
  · intro h; simp only [State.report]; (repeat' split) <;> simp [h]
  · intro h; simp only [State.report]; (repeat' split) <;> simp [h]
  · intro h; simp only [State.report]; (repeat' split) <;> simp [h]
@[simp] theorem State.reportWire_tabs (s : State) (i stamp : Nat) (inj : Bool) : ChansEq (State.reportWire s i stamp
    inj) s ∧ SrcsOk (State.reportWire s i stamp inj) s ∧ CntOk (State.reportWire s i stamp inj) s := by
  refine ⟨?_, ?_, ?_, ?_, ?_⟩
  · simp [ChansEq, State.reportWire]
  · intro h; simp [State.reportWire, h]
  · intro h; simp [State.reportWire, h]
  · intro h; simp [State.reportWire, h]
  · intro h; simp [State.reportWire, h]
@[simp] theorem State.reports_tabs (s : State) (l : List Nat) (stamp : Nat) : ChansEq (State.reports s l stamp) s ∧
    SrcsOk (State.reports s l stamp) s ∧ CntOk (State.reports s l stamp) s := by
  refine ⟨?_, ?_, ?_, ?_, ?_⟩
  · simp [ChansEq, State.reports]
  · intro h; simp +contextual [State.reports, h]
  · intro h; simp +contextual [State.reports, h]
  · intro h; simp +contextual [State.reports, h]
  · intro h; simp +contextual [State.reports, h]
@[simp] theorem State.jrnl_tabs (s : State) (r : JRec) : ChansEq (State.jrnl s r) s ∧ SrcsOk (State.jrnl s r) s ∧
    CntOk (State.jrnl s r) s := by
  refine ⟨?_, ?_, ?_, ?_, ?_⟩
  · simp [ChansEq, State.jrnl]
  · intro h; simp [State.jrnl, h]
  · intro h; simp [State.jrnl, h]
  · intro h; simp [State.jrnl, h]
  · intro h; simp [State.jrnl, h]
@[simp] theorem State.recordAt_tabs (s : State) (cls typ arg stamp queued : Nat) (parts : List (Nat × List Byte)) :
    ChansEq (State.recordAt s cls typ arg stamp queued parts) s ∧ SrcsOk (State.recordAt s cls typ arg stamp queued
    parts) s ∧ CntOk (State.recordAt s cls typ arg stamp queued parts) s := by
  refine ⟨?_, ?_, ?_, ?_, ?_⟩
  · simp [ChansEq, State.recordAt]
  · intro h; simp [State.recordAt, h]
  · intro h; simp [State.recordAt, h]
  · intro h; simp [State.recordAt, h]
  · intro h; simp [State.recordAt, h]
@[simp] theorem State.record_tabs (s : State) (cls typ arg stamp : Nat) (parts : List (Nat × List Byte)) : ChansEq
    (State.record s cls typ arg stamp parts) s ∧ SrcsOk (State.record s cls typ arg stamp parts) s ∧ CntOk
    (State.record s cls typ arg stamp parts) s := by
  refine ⟨?_, ?_, ?_, ?_, ?_⟩
  · simp [ChansEq, State.record]
  · intro h; simp [State.record, h]
  · intro h; simp [State.record, h]
  · intro h; simp [State.record, h]
  · intro h; simp [State.record, h]
@[simp] theorem Flt.privSet_tabs (f : Flt) (which stamp : Nat) : (Flt.privSet f which stamp).srcs = f.srcs := by
  simp [Flt.privSet]
@[simp] theorem State.privEvent_tabs (s : State) (which stamp : Nat) : ChansEq (State.privEvent s which stamp) s ∧
    SrcsOk (State.privEvent s which stamp) s ∧ CntOk (State.privEvent s which stamp) s := by
  refine ⟨?_, ?_, ?_, ?_, ?_⟩
  · simp [ChansEq, State.privEvent]
  · intro h; simp [State.privEvent, h]
  · intro h; simp [State.privEvent, h]
  · intro h; simp [State.privEvent, h]
  · intro h; simp [State.privEvent, h]
@[simp] theorem State.rcEdge_tabs (s : State) : TabsEq (State.rcEdge s) s := by
  simp [TabsEq, ChansEq, SrcsEq, CntEq, State.rcEdge]
@[simp] theorem State.newTick_tabs (s : State) : ChansOk (State.newTick s) s ∧ SrcsEq (State.newTick s) s ∧ CntEq
    (State.newTick s) s := by
  refine ⟨?_, ?_, ?_⟩
  · intro h; simp [State.newTick, h]
  · simp [SrcsEq, State.newTick]
  · simp [CntEq, State.newTick]
@[simp] theorem tickPass_tabs (s : State) : ChansOk (tickPass s) s ∧ SrcsEq (tickPass s) s ∧ CntEq (tickPass s) s :=
    by
  refine ⟨?_, ?_, ?_⟩
  · intro h; simp [tickPass, h]
  · simp [SrcsEq, tickPass]
  · simp [CntEq, tickPass]

end Sys2Proof.Machine
end

