-- ==== Sys2Proof/Laws/TabsRail.lean ====
section
/-! SUPPORT. What holding, rungs, the safe state and rails do to the tables (Tables.lean). -/

open Sys2Proof

namespace Sys2Proof.Machine

@[simp] theorem State.admissionBy_tabs (s : State) (mayOpen : Bool) (stamp : Nat) (rejected : List Nat) : ChansEq
    (State.admissionBy s mayOpen stamp rejected) s ∧ SrcsOk (State.admissionBy s mayOpen stamp rejected) s ∧ CntOk
    (State.admissionBy s mayOpen stamp rejected) s := by
  refine ⟨?_, ?_, ?_, ?_, ?_⟩
  · simp [ChansEq, State.admissionBy]
  · intro h; simp [State.admissionBy, h]
  · intro h; simp [State.admissionBy, h]
  · intro h; simp [State.admissionBy, h]
  · intro h; simp [State.admissionBy, h]
@[simp] theorem State.admission_tabs (s : State) (stamp : Nat) (rejected : List Nat) : ChansEq (State.admission s
    stamp rejected) s ∧ SrcsOk (State.admission s stamp rejected) s ∧ CntOk (State.admission s stamp rejected) s := by
  refine ⟨?_, ?_, ?_, ?_, ?_⟩
  · simp [ChansEq, State.admission]
  · intro h; simp [State.admission, h]
  · intro h; simp [State.admission, h]
  · intro h; simp [State.admission, h]
  · intro h; simp [State.admission, h]
@[simp] theorem State.admitTick_tabs (s : State) : ChansEq (State.admitTick s) s ∧ SrcsOk (State.admitTick s) s ∧
    CntOk (State.admitTick s) s := by
  refine ⟨?_, ?_, ?_, ?_, ?_⟩
  · simp [ChansEq, State.admitTick]
  · intro h; simp [State.admitTick, h]
  · intro h; simp [State.admitTick, h]
  · intro h; simp [State.admitTick, h]
  · intro h; simp [State.admitTick, h]
@[simp] theorem State.setCause_tabs (s : State) (f : Causes → Causes) : TabsEq (State.setCause s f) s := by
  simp [TabsEq, ChansEq, SrcsEq, CntEq, State.setCause]
@[simp] theorem State.drainEnd_tabs (s : State) (end_ stamp : Nat) : ChansEq (State.drainEnd s end_ stamp) s ∧ SrcsOk
    (State.drainEnd s end_ stamp) s ∧ CntOk (State.drainEnd s end_ stamp) s := by
  refine ⟨?_, ?_, ?_, ?_, ?_⟩
  · unfold State.drainEnd; split <;> simp [ChansEq]
  · intro h; unfold State.drainEnd; split <;> simp [h]
  · intro h; unfold State.drainEnd; split <;> simp [h]
  · intro h; unfold State.drainEnd; split <;> simp [h]
  · intro h; unfold State.drainEnd; split <;> simp [h]
@[simp] theorem State.drainStart_tabs (s : State) (trig stamp : Nat) : ChansEq (State.drainStart s trig stamp) s ∧
    SrcsOk (State.drainStart s trig stamp) s ∧ CntOk (State.drainStart s trig stamp) s := by
  refine ⟨?_, ?_, ?_, ?_, ?_⟩
  · unfold State.drainStart; split <;> simp [ChansEq]
  · intro h; unfold State.drainStart; split <;> simp [h]
  · intro h; unfold State.drainStart; split <;> simp [h]
  · intro h; unfold State.drainStart; split <;> simp [h]
  · intro h; unfold State.drainStart; split <;> simp [h]
@[simp] theorem State.drainFrame_tabs (s : State) : ChansEq (State.drainFrame s) s ∧ SrcsOk (State.drainFrame s) s ∧
    CntOk (State.drainFrame s) s := by
  refine ⟨?_, ?_, ?_, ?_, ?_⟩
  · unfold State.drainFrame; split <;> simp [ChansEq]
  · intro h; unfold State.drainFrame; split <;> simp [h]
  · intro h; unfold State.drainFrame; split <;> simp [h]
  · intro h; unfold State.drainFrame; split <;> simp [h]
  · intro h; unfold State.drainFrame; split <;> simp [h]
@[simp] theorem State.drainTick_tabs (s : State) : ChansEq (State.drainTick s) s ∧ SrcsOk (State.drainTick s) s ∧
    CntOk (State.drainTick s) s := by
  refine ⟨?_, ?_, ?_, ?_, ?_⟩
  · simp [ChansEq, State.drainTick]
  · intro h; simp [State.drainTick, h]
  · intro h; simp [State.drainTick, h]
  · intro h; simp [State.drainTick, h]
  · intro h; simp [State.drainTick, h]
@[simp] theorem State.permits_tabs (s : State) : TabsEq (State.permits s) s := by
  simp [TabsEq, ChansEq, SrcsEq, CntEq, State.permits]
@[simp] theorem State.permitTick_tabs (s : State) : TabsEq (State.permitTick s) s := by
  simp [TabsEq, ChansEq, SrcsEq, CntEq, State.permitTick]
@[simp] theorem State.zeroize_tabs (s : State) : TabsEq (State.zeroize s) s := by
  simp [TabsEq, ChansEq, SrcsEq, CntEq, State.zeroize]
@[simp] theorem State.modPort_tabs (s : State) (p : Nat) (f : Port → Port) : TabsEq (State.modPort s p f) s := by
  simp [TabsEq, ChansEq, SrcsEq, CntEq, State.modPort]
@[simp] theorem State.parkAll_tabs (s : State) : TabsEq (State.parkAll s) s := by
  simp [TabsEq, ChansEq, SrcsEq, CntEq, State.parkAll]
@[simp] theorem State.wdgMode_tabs (s : State) : TabsEq (State.wdgMode s) s := by
  simp [TabsEq, ChansEq, SrcsEq, CntEq, State.wdgMode]
@[simp] theorem State.setDbg_tabs (s : State) (d : Dbg) : TabsEq (State.setDbg s d) s := by
  simp [TabsEq, ChansEq, SrcsEq, CntEq, State.setDbg]
@[simp] theorem State.endSession_tabs (s : State) : TabsEq (State.endSession s) s := by
  simp [TabsEq, ChansEq, SrcsEq, CntEq, State.endSession]
@[simp] theorem State.linkRevert_tabs (s : State) (stamp : Nat) : ChansEq (State.linkRevert s stamp) s ∧ SrcsOk
    (State.linkRevert s stamp) s ∧ CntOk (State.linkRevert s stamp) s := by
  refine ⟨?_, ?_, ?_, ?_, ?_⟩
  · simp [ChansEq, State.linkRevert]
  · intro h; simp [State.linkRevert, h]
  · intro h; simp [State.linkRevert, h]
  · intro h; simp [State.linkRevert, h]
  · intro h; simp [State.linkRevert, h]
@[simp] theorem State.mcpGone_tabs (s : State) (why stamp : Nat) (quiet : Bool) : ChansEq (State.mcpGone s why stamp
    quiet) s ∧ SrcsOk (State.mcpGone s why stamp quiet) s ∧ CntOk (State.mcpGone s why stamp quiet) s := by
  refine ⟨?_, ?_, ?_, ?_, ?_⟩
  · simp [ChansEq, State.mcpGone]
  · intro h; simp [State.mcpGone, h]
  · intro h; simp [State.mcpGone, h]
  · intro h; simp [State.mcpGone, h]
  · intro h; simp [State.mcpGone, h]
@[simp] theorem State.mcpLost_tabs (s : State) (why stamp : Nat) : ChansEq (State.mcpLost s why stamp) s ∧ SrcsOk
    (State.mcpLost s why stamp) s ∧ CntOk (State.mcpLost s why stamp) s := by
  refine ⟨?_, ?_, ?_, ?_, ?_⟩
  · simp [ChansEq, State.mcpLost]
  · intro h; simp [State.mcpLost, h]
  · intro h; simp [State.mcpLost, h]
  · intro h; simp [State.mcpLost, h]
  · intro h; simp [State.mcpLost, h]
@[simp] theorem State.eqxReply_tabs (s : State) (ok : Bool) (why : Nat) : TabsEq (State.eqxReply s ok why) s := by
  simp [TabsEq, ChansEq, SrcsEq, CntEq, State.eqxReply]
@[simp] theorem State.dropView_tabs (s : State) : TabsEq (State.dropView s) s := by
  simp [TabsEq, ChansEq, SrcsEq, CntEq, State.dropView]
@[simp] theorem State.domBegin_tabs (fuel p : Nat) (s : State) : TabsEq (State.domBegin fuel p s) s := by
  induction fuel generalizing p s with
  | zero => simp [TabsEq, ChansEq, SrcsEq, CntEq, State.domBegin]
  | succ n ih => simp [TabsEq, ChansEq, SrcsEq, CntEq, State.domBegin, ih]
@[simp] theorem State.domLeave_tabs (s : State) (a : Nat) (skip : Bool) : TabsEq (State.domLeave s a skip) s := by
  unfold State.domLeave; split <;> simp [TabsEq, ChansEq, SrcsEq, CntEq]
@[simp] theorem State.upLost_tabs (s : State) : TabsEq (State.upLost s) s := by
  simp [TabsEq, ChansEq, SrcsEq, CntEq, State.upLost]
@[simp] theorem State.casDisable_tabs (s : State) : TabsEq (State.casDisable s) s := by
  simp [TabsEq, ChansEq, SrcsEq, CntEq, State.casDisable]
@[simp] theorem State.rungPrepare_tabs (s : State) : ChansEq (State.rungPrepare s) s ∧ SrcsOk (State.rungPrepare s) s
    ∧ CntOk (State.rungPrepare s) s := by
  refine ⟨?_, ?_, ?_, ?_, ?_⟩
  · unfold State.rungPrepare; split <;> simp [ChansEq]
  · intro h; unfold State.rungPrepare; split <;> simp [h]
  · intro h; unfold State.rungPrepare; split <;> simp [h]
  · intro h; unfold State.rungPrepare; split <;> simp [h]
  · intro h; unfold State.rungPrepare; split <;> simp [h]
@[simp] theorem State.rungEnter_tabs (s : State) (r : Rung) (asked : Bool) : TabsEq (State.rungEnter s r asked) s :=
    by
  simp [TabsEq, ChansEq, SrcsEq, CntEq, State.rungEnter]
@[simp] theorem State.entryYields_tabs (s : State) : TabsEq (State.entryYields s) s := by
  simp [TabsEq, ChansEq, SrcsEq, CntEq, State.entryYields]
@[simp] theorem State.wakeBy_tabs (s : State) (src : Nat) : TabsEq (State.wakeBy s src) s := by
  simp [TabsEq, ChansEq, SrcsEq, CntEq, State.wakeBy]
@[simp] theorem State.wakeEvent_tabs (s : State) (src : Nat) : TabsEq (State.wakeEvent s src) s := by
  simp [TabsEq, ChansEq, SrcsEq, CntEq, State.wakeEvent]
@[simp] theorem State.disAll_tabs (s : State) (t : Nat) : ChansOk (State.disAll s t) s ∧ SrcsEq (State.disAll s t) s ∧
    CntEq (State.disAll s t) s := by
  refine ⟨?_, ?_, ?_⟩
  · intro h; simp [State.disAll, h]
  · simp [SrcsEq, State.disAll]
  · simp [CntEq, State.disAll]
@[simp] theorem State.safeEnter_tabs (s : State) (origin stamp : Nat) : TabsOk (State.safeEnter s origin stamp) s :=
    by
  refine ⟨fun h => ?_, fun h => ?_, fun h => ?_, fun h => ?_, fun h => ?_⟩ <;>
    (simp [State.safeEnter, h])
@[simp] theorem State.chanEvent_tabs (s : State) (src stamp : Nat) (inj : Bool) : TabsOk (State.chanEvent s src stamp
    inj) s := by
  refine ⟨fun h => ?_, fun h => ?_, fun h => ?_, fun h => ?_, fun h => ?_⟩ <;>
    (simp [State.chanEvent, h])
@[simp] theorem State.countRecords_tabs (s : State) (stamp : Nat) : ChansEq (State.countRecords s stamp) s ∧ SrcsOk
    (State.countRecords s stamp) s ∧ CntOk (State.countRecords s stamp) s := by
  refine ⟨?_, ?_, ?_, ?_, ?_⟩
  · simp [ChansEq, State.countRecords]
  · intro h; simp +contextual [State.countRecords, h]
  · intro h; simp +contextual [State.countRecords, h]
  · intro h; simp +contextual [State.countRecords, h]
  · intro h; simp +contextual [State.countRecords, h]
@[simp] theorem State.counts_tabs (s : State) (n : Nat) (l : List Nat) : ChansEq (State.counts s n l) s ∧ SrcsEq
    (State.counts s n l) s ∧ CntOk (State.counts s n l) s := by
  refine ⟨?_, ?_, ?_, ?_, ?_⟩
  · simp [ChansEq, State.counts]
  · simp [SrcsEq, State.counts]
  · intro h; simp +contextual [State.counts, h]
  · intro h; simp +contextual [State.counts, h]
  · intro h; simp +contextual [State.counts, h]
@[simp] theorem State.publish_tabs (s : State) (r : Nat) : TabsEq (State.publish s r) s := by
  simp [TabsEq, ChansEq, SrcsEq, CntEq, State.publish]
@[simp] theorem State.cmpEvent_tabs (s : State) (n : Nat) (k : Cmp) (stamp : Nat) : TabsOk (State.cmpEvent s n k
    stamp) s := by
  refine ⟨fun h => ?_, fun h => ?_, fun h => ?_, fun h => ?_, fun h => ?_⟩ <;>
    (simp [State.cmpEvent, h])
@[simp] theorem State.armRaise_tabs (s : State) (n : Nat) (k : Cmp) (stamp : Nat) : TabsOk (State.armRaise s n k
    stamp) s := by
  refine ⟨fun h => ?_, fun h => ?_, fun h => ?_, fun h => ?_, fun h => ?_⟩ <;>
    (simp [State.armRaise, h])
@[simp] theorem State.armDue_tabs (s : State) (n : Nat) : TabsOk (State.armDue s n) s := by
  refine ⟨fun h => ?_, fun h => ?_, fun h => ?_, fun h => ?_, fun h => ?_⟩ <;>
    (unfold State.armDue; split <;> simp [h])
@[simp] theorem State.armMoved_tabs (s : State) (n : Nat) (new : RailState) : TabsOk (State.armMoved s n new) s := by
  refine ⟨fun h => ?_, fun h => ?_, fun h => ?_, fun h => ?_, fun h => ?_⟩ <;>
    (simp [State.armMoved, h])
@[simp] theorem State.hsTrip_tabs (s : State) (stamp : Nat) : ChansEq (State.hsTrip s stamp) s ∧ SrcsOk (State.hsTrip
    s stamp) s ∧ CntOk (State.hsTrip s stamp) s := by
  refine ⟨?_, ?_, ?_, ?_, ?_⟩
  · simp [ChansEq, State.hsTrip]
  · intro h; simp [State.hsTrip, h]
  · intro h; simp [State.hsTrip, h]
  · intro h; simp [State.hsTrip, h]
  · intro h; simp [State.hsTrip, h]
@[simp] theorem State.hsMoved_tabs (s : State) (old new : RailState) (stamp : Nat) : ChansEq (State.hsMoved s old new
    stamp) s ∧ SrcsOk (State.hsMoved s old new stamp) s ∧ CntOk (State.hsMoved s old new stamp) s := by
  refine ⟨?_, ?_, ?_, ?_, ?_⟩
  · simp [ChansEq, State.hsMoved]
  · intro h; simp [State.hsMoved, h]
  · intro h; simp [State.hsMoved, h]
  · intro h; simp [State.hsMoved, h]
  · intro h; simp [State.hsMoved, h]
@[simp] theorem State.moveRail_tabs (s : State) (r : Nat) (new : RailState) (cause stamp : Nat) : TabsOk
    (State.moveRail s r new cause stamp) s := by
  refine ⟨fun h => ?_, fun h => ?_, fun h => ?_, fun h => ?_, fun h => ?_⟩ <;>
    (simp [State.moveRail, h])
@[simp] theorem State.modRail_tabs (s : State) (r : Nat) (f : Rail → Rail) : ChansOk (State.modRail s r f) s ∧ SrcsEq
    (State.modRail s r f) s ∧ CntEq (State.modRail s r f) s := by
  refine ⟨?_, ?_, ?_⟩
  · intro h; simp [State.modRail, h]
  · simp [SrcsEq, State.modRail]
  · simp [CntEq, State.modRail]
@[simp] theorem State.rollback_tabs (s : State) (r why cause stamp : Nat) : TabsOk (State.rollback s r why cause
    stamp) s := by
  refine ⟨fun h => ?_, fun h => ?_, fun h => ?_, fun h => ?_, fun h => ?_⟩ <;>
    (simp [State.rollback, h])
@[simp] theorem State.confirm_tabs (s : State) (r stamp : Nat) : TabsOk (State.confirm s r stamp) s := by
  refine ⟨fun h => ?_, fun h => ?_, fun h => ?_, fun h => ?_, fun h => ?_⟩ <;>
    (simp [State.confirm, h])
@[simp] theorem State.block_tabs (s : State) (r ref stamp : Nat) : TabsOk (State.block s r ref stamp).1 s := by
  refine ⟨fun h => ?_, fun h => ?_, fun h => ?_, fun h => ?_, fun h => ?_⟩ <;>
    (unfold State.block; (repeat' split) <;> simp [h])
@[simp] theorem State.spread_tabs (stamp fuel : Nat) (q : List Nat) (s : State) : TabsOk (State.spread stamp fuel q s) s := by
  induction fuel generalizing q s with
  | zero => exact TabsOk.rfl' s
  | succ n ih =>
    cases q with
    | nil => exact TabsOk.rfl' s
    | cons q r =>
      refine (ih _ _).trans' ?_
      refine foldl_fst _ TabsOk TabsOk.rfl' (fun _ _ _ => TabsOk.trans') ?_ _ (s, [])
      intro a x
      refine ⟨fun h => ?_, fun h => ?_, fun h => ?_, fun h => ?_, fun h => ?_⟩ <;>
        (dsimp only; split <;> simp [h])
@[simp] theorem State.spreadFrom_tabs (s : State) (r stamp : Nat) : TabsOk (State.spreadFrom s r stamp) s := by
  refine ⟨fun h => ?_, fun h => ?_, fun h => ?_, fun h => ?_, fun h => ?_⟩ <;>
    (simp [State.spreadFrom, h])
@[simp] theorem State.evalRail_tabs (s : State) (r stamp : Nat) : TabsOk (State.evalRail s r stamp) s := by
  refine ⟨fun h => ?_, fun h => ?_, fun h => ?_, fun h => ?_, fun h => ?_⟩ <;>
    (simp only [State.evalRail]; (repeat' split) <;> simp [h])
@[simp] theorem State.graphPass_tabs (s : State) (stamp : Nat) : TabsOk (State.graphPass s stamp) s := by
  refine ⟨fun h => ?_, fun h => ?_, fun h => ?_, fun h => ?_, fun h => ?_⟩ <;>
    (simp +contextual [State.graphPass, h])
@[simp] theorem State.advance_tabs (s : State) (p stamp : Nat) : TabsOk (State.advance s p stamp) s := by
  refine ⟨fun h => ?_, fun h => ?_, fun h => ?_, fun h => ?_, fun h => ?_⟩ <;>
    (simp +contextual [State.advance, h])
@[simp] theorem State.setGood_tabs (s : State) (r : Nat) (g : Bool) (stamp : Nat) : TabsOk (State.setGood s r g stamp)
    s := by
  refine ⟨fun h => ?_, fun h => ?_, fun h => ?_, fun h => ?_, fun h => ?_⟩ <;>
    (simp only [State.setGood]; (repeat' split) <;> simp (maxDischargeDepth := 40) [h])
@[simp] theorem State.hsGood_tabs (s : State) (stamp : Nat) : TabsOk (State.hsGood s stamp) s := by
  refine ⟨fun h => ?_, fun h => ?_, fun h => ?_, fun h => ?_, fun h => ?_⟩ <;>
    (simp [State.hsGood, h])
@[simp] theorem State.stopPass_tabs (s : State) (stamp : Nat) : TabsOk (State.stopPass s stamp) s := by
  refine TabsOk.foldl _ (fun t x => ?_) _ _
  refine ⟨fun h => ?_, fun h => ?_, fun h => ?_, fun h => ?_, fun h => ?_⟩ <;>
    (dsimp only; (repeat' split) <;> simp [h])
@[simp] theorem State.shutRail_tabs (s : State) (r src stamp : Nat) : TabsOk (State.shutRail s r src stamp) s := by
  refine ⟨fun h => ?_, fun h => ?_, fun h => ?_, fun h => ?_, fun h => ?_⟩ <;>
    (unfold State.shutRail; split <;> simp [h])
@[simp] theorem State.shutDown_tabs (s : State) (rails : Option (List Nat)) (src origin stamp : Nat) (roots : List
    Nat) : TabsOk (State.shutDown s rails src origin stamp roots) s := by
  refine ⟨fun h => ?_, fun h => ?_, fun h => ?_, fun h => ?_, fun h => ?_⟩ <;>
    (simp +contextual (maxDischargeDepth := 40) [State.shutDown, h])
@[simp] theorem State.onRail_tabs (s : State) (r src stamp : Nat) : TabsOk (State.onRail s r src stamp) s := by
  refine ⟨fun h => ?_, fun h => ?_, fun h => ?_, fun h => ?_, fun h => ?_⟩ <;>
    (simp (maxDischargeDepth := 40) [State.onRail, h])
@[simp] theorem State.onAct_tabs (s : State) (src stamp : Nat) (latched : Bool) : TabsOk (State.onAct s src stamp
    latched) s := by
  refine ⟨fun h => ?_, fun h => ?_, fun h => ?_, fun h => ?_, fun h => ?_⟩ <;>
    (simp +contextual (maxDischargeDepth := 40) [State.onAct, h])
@[simp] theorem State.onTake_tabs (s : State) (src stamp : Nat) (latched : Bool) : TabsOk (State.onTake s src stamp
    latched) s := by
  refine ⟨fun h => ?_, fun h => ?_, fun h => ?_, fun h => ?_, fun h => ?_⟩ <;>
    (simp [State.onTake, h])
@[simp] theorem State.onJudge_tabs (s : State) (src stamp : Nat) (latched : Bool) : TabsOk (State.onJudge s src stamp
    latched) s := by
  refine ⟨fun h => ?_, fun h => ?_, fun h => ?_, fun h => ?_, fun h => ?_⟩ <;>
    (simp [State.onJudge, h])
@[simp] theorem State.onReq_tabs (s : State) (src stamp : Nat) (latched : Bool) : TabsOk (State.onReq s src stamp
    latched) s := by
  refine ⟨fun h => ?_, fun h => ?_, fun h => ?_, fun h => ?_, fun h => ?_⟩ <;>
    (simp [State.onReq, h])
@[simp] theorem State.onResume_tabs (s : State) : TabsOk (State.onResume s) s := by
  refine ⟨fun h => ?_, fun h => ?_, fun h => ?_, fun h => ?_, fun h => ?_⟩ <;>
    (simp +contextual [State.onResume, h])
@[simp] theorem State.onLast_tabs (s : State) : TabsOk (State.onLast s) s := by
  refine ⟨fun h => ?_, fun h => ?_, fun h => ?_, fun h => ?_, fun h => ?_⟩ <;>
    (simp +contextual [State.onLast, h])
@[simp] theorem State.lossRung_tabs (s : State) : TabsEq (State.lossRung s) s := by
  unfold State.lossRung; (repeat' split) <;> simp [TabsEq, ChansEq, SrcsEq, CntEq]
@[simp] theorem State.seqChange_tabs (s : State) (stamp : Nat) : ChansEq (State.seqChange s stamp) s ∧ SrcsOk
    (State.seqChange s stamp) s ∧ CntOk (State.seqChange s stamp) s := by
  refine ⟨?_, ?_, ?_, ?_, ?_⟩
  · simp [ChansEq, State.seqChange]
  · intro h; simp [State.seqChange, h]
  · intro h; simp [State.seqChange, h]
  · intro h; simp [State.seqChange, h]
  · intro h; simp [State.seqChange, h]
@[simp] theorem State.isolationEnd_tabs (s : State) : TabsEq (State.isolationEnd s) s := by
  simp [TabsEq, ChansEq, SrcsEq, CntEq, State.isolationEnd]
@[simp] theorem State.resetDrive_tabs (s : State) (stamp : Nat) : TabsOk (State.resetDrive s stamp) s := by
  refine ⟨fun h => ?_, fun h => ?_, fun h => ?_, fun h => ?_, fun h => ?_⟩ <;>
    (simp [State.resetDrive, h])
@[simp] theorem State.brkArmed_tabs (s : State) (stamp : Nat) : ChansEq (State.brkArmed s stamp) s ∧ SrcsOk
    (State.brkArmed s stamp) s ∧ CntOk (State.brkArmed s stamp) s := by
  refine ⟨?_, ?_, ?_, ?_, ?_⟩
  · simp [ChansEq, State.brkArmed]
  · intro h; simp [State.brkArmed, h]
  · intro h; simp [State.brkArmed, h]
  · intro h; simp [State.brkArmed, h]
  · intro h; simp [State.brkArmed, h]
@[simp] theorem State.settle_tabs (s : State) (stamp : Nat) : TabsOk (State.settle s stamp) s := by
  refine ⟨fun h => ?_, fun h => ?_, fun h => ?_, fun h => ?_, fun h => ?_⟩ <;>
    (simp (maxDischargeDepth := 40) [State.settle, h])
@[simp] theorem State.ffReact_tabs (s : State) (src code t : Nat) : ChansEq (State.ffReact s src code t) s ∧ SrcsOk
    (State.ffReact s src code t) s ∧ CntOk (State.ffReact s src code t) s := by
  refine ⟨?_, ?_, ?_, ?_, ?_⟩
  · simp [ChansEq, State.ffReact]
  · intro h; simp [State.ffReact, h]
  · intro h; simp [State.ffReact, h]
  · intro h; simp [State.ffReact, h]
  · intro h; simp [State.ffReact, h]
@[simp] theorem State.ffEarly_tabs (s : State) (src t : Nat) : ChansEq (State.ffEarly s src t) s ∧ SrcsOk
    (State.ffEarly s src t) s ∧ CntOk (State.ffEarly s src t) s := by
  refine ⟨?_, ?_, ?_, ?_, ?_⟩
  · simp [ChansEq, State.ffEarly]
  · intro h; simp +contextual [State.ffEarly, h]
  · intro h; simp +contextual [State.ffEarly, h]
  · intro h; simp +contextual [State.ffEarly, h]
  · intro h; simp +contextual [State.ffEarly, h]
@[simp] theorem State.latchFirst_tabs (s : State) : ChansEq (State.latchFirst s) s ∧ SrcsOk (State.latchFirst s) s ∧
    CntOk (State.latchFirst s) s := by
  refine ⟨?_, ?_, ?_, ?_, ?_⟩
  · unfold State.latchFirst; (repeat' split) <;> simp [ChansEq]
  · intro h; unfold State.latchFirst; (repeat' split) <;> simp [h]
  · intro h; unfold State.latchFirst; (repeat' split) <;> simp [h]
  · intro h; unfold State.latchFirst; (repeat' split) <;> simp [h]
  · intro h; unfold State.latchFirst; (repeat' split) <;> simp [h]
@[simp] theorem State.wdgExpire_tabs (s : State) (t : Nat) : TabsOk (State.wdgExpire s t) s := by
  refine ⟨fun h => ?_, fun h => ?_, fun h => ?_, fun h => ?_, fun h => ?_⟩ <;>
    (simp [State.wdgExpire, h])
@[simp] theorem State.wdgRefuse_tabs (s : State) (c : Nat) : TabsEq (State.wdgRefuse s c) s := by
  simp [TabsEq, ChansEq, SrcsEq, CntEq, State.wdgRefuse]
@[simp] theorem State.keyEnds_tabs (s : State) : TabsOk (State.keyEnds s) s := by
  refine ⟨fun h => ?_, fun h => ?_, fun h => ?_, fun h => ?_, fun h => ?_⟩ <;>
    (unfold State.keyEnds; split <;> simp [h])
@[simp] theorem Flt.logReact_tabs (f : Flt) (d : Due) (kind t : Nat) : (Flt.logReact f d kind t).srcs = f.srcs := by
  simp [Flt.logReact]
@[simp] theorem State.noteReact_tabs (s : State) (d : Due) (exh : Bool) (t : Nat) : ChansEq (State.noteReact s d exh
    t) s ∧ SrcsOk (State.noteReact s d exh t) s ∧ CntOk (State.noteReact s d exh t) s := by
  refine ⟨?_, ?_, ?_, ?_, ?_⟩
  · simp [ChansEq, State.noteReact]
  · intro h; simp [State.noteReact, h]
  · intro h; simp [State.noteReact, h]
  · intro h; simp [State.noteReact, h]
  · intro h; simp [State.noteReact, h]
@[simp] theorem State.carryOut_tabs (s : State) (ds : List Due) (t : Nat) : TabsOk (State.carryOut s ds t) s := by
  refine ⟨fun h => ?_, fun h => ?_, fun h => ?_, fun h => ?_, fun h => ?_⟩ <;>
    (unfold State.carryOut; dsimp only; (repeat' split) <;> simp +contextual (maxDischargeDepth := 40) [h])
@[simp] theorem State.react_tabs (s : State) (ds : List Due) (t : Nat) : TabsOk (State.react s ds t) s := by
  refine ⟨fun h => ?_, fun h => ?_, fun h => ?_, fun h => ?_, fun h => ?_⟩ <;>
    (simp [State.react, h])
@[simp] theorem State.graceAt_tabs (s : State) (t : Nat) : TabsOk (State.graceAt s t) s := by
  refine ⟨fun h => ?_, fun h => ?_, fun h => ?_, fun h => ?_, fun h => ?_⟩ <;>
    (simp (maxDischargeDepth := 40) [State.graceAt, h])

end Sys2Proof.Machine
end

