-- ==== Sys2Proof/Laws/TabsChannel.lean ====
section
/-! SUPPORT. What sequencing, buses, margining, channels, hot-swap and the media link do to the tables (Tables.lean). -/

open Sys2Proof

namespace Sys2Proof.Machine

@[simp] theorem State.railDue_tabs (s : State) (r t : Nat) : TabsOk (State.railDue s r t) s := by
  refine ⟨fun h => ?_, fun h => ?_, fun h => ?_, fun h => ?_, fun h => ?_⟩ <;>
    (simp [State.railDue, h])
@[simp] theorem State.qualEnds_tabs (s : State) (r t : Nat) : TabsOk (State.qualEnds s r t) s := by
  refine ⟨fun h => ?_, fun h => ?_, fun h => ?_, fun h => ?_, fun h => ?_⟩ <;>
    (simp (maxDischargeDepth := 40) [State.qualEnds, h])
@[simp] theorem State.startEnds_tabs (s : State) (r t : Nat) : TabsOk (State.startEnds s r t) s := by
  refine ⟨fun h => ?_, fun h => ?_, fun h => ?_, fun h => ?_, fun h => ?_⟩ <;>
    (simp (maxDischargeDepth := 40) [State.startEnds, h])
@[simp] theorem State.dglEnds_tabs (s : State) (n t : Nat) : TabsOk (State.dglEnds s n t) s := by
  refine ⟨fun h => ?_, fun h => ?_, fun h => ?_, fun h => ?_, fun h => ?_⟩ <;>
    (simp (maxDischargeDepth := 40) [State.dglEnds, h])
@[simp] theorem State.retryFails_tabs (s : State) (r t : Nat) : TabsOk (State.retryFails s r t) s := by
  refine ⟨fun h => ?_, fun h => ?_, fun h => ?_, fun h => ?_, fun h => ?_⟩ <;>
    (simp +contextual (maxDischargeDepth := 40) [State.retryFails, h])
@[simp] theorem State.disEnds_tabs (s : State) (n t : Nat) : TabsOk (State.disEnds s n t) s := by
  refine ⟨fun h => ?_, fun h => ?_, fun h => ?_, fun h => ?_, fun h => ?_⟩ <;>
    (simp (maxDischargeDepth := 40) [State.disEnds, h])
@[simp] theorem State.retryEnds_tabs (s : State) (n t : Nat) : TabsOk (State.retryEnds s n t) s := by
  refine ⟨fun h => ?_, fun h => ?_, fun h => ?_, fun h => ?_, fun h => ?_⟩ <;>
    (simp +contextual (maxDischargeDepth := 40) [State.retryEnds, h])
@[simp] theorem State.specEnds_tabs (s : State) (n t : Nat) : TabsOk (State.specEnds s n t) s := by
  refine ⟨fun h => ?_, fun h => ?_, fun h => ?_, fun h => ?_, fun h => ?_⟩ <;>
    (simp (maxDischargeDepth := 40) [State.specEnds, h])
@[simp] theorem State.hsLossEnds_tabs (s : State) (t : Nat) : TabsOk (State.hsLossEnds s t) s := by
  refine ⟨fun h => ?_, fun h => ?_, fun h => ?_, fun h => ?_, fun h => ?_⟩ <;>
    (simp [State.hsLossEnds, h])
@[simp] theorem State.orphanEnds_tabs (s : State) (t : Nat) : TabsOk (State.orphanEnds s t) s := by
  refine ⟨fun h => ?_, fun h => ?_, fun h => ?_, fun h => ?_, fun h => ?_⟩ <;>
    (simp [State.orphanEnds, h])
@[simp] theorem State.domOffAt_tabs (s : State) (t : Nat) : TabsOk (State.domOffAt s t) s := by
  refine ⟨fun h => ?_, fun h => ?_, fun h => ?_, fun h => ?_, fun h => ?_⟩ <;>
    (simp [State.domOffAt, h])
@[simp] theorem State.domOnAt_tabs (s : State) (t : Nat) : TabsOk (State.domOnAt s t) s := by
  refine ⟨fun h => ?_, fun h => ?_, fun h => ?_, fun h => ?_, fun h => ?_⟩ <;>
    (simp [State.domOnAt, h])
@[simp] theorem State.latchedOn_tabs (s : State) (t : Nat) : TabsOk (State.latchedOn s t) s := by
  refine ⟨fun h => ?_, fun h => ?_, fun h => ?_, fun h => ?_, fun h => ?_⟩ <;>
    (unfold State.latchedOn; split <;> simp [h])
@[simp] theorem State.holdEnds_tabs (s : State) (n : Nat) (k : Cmp) : TabsOk (State.holdEnds s n k) s := by
  refine ⟨fun h => ?_, fun h => ?_, fun h => ?_, fun h => ?_, fun h => ?_⟩ <;>
    (simp only [State.holdEnds]; (repeat' split) <;> simp (maxDischargeDepth := 40) [h])
@[simp] theorem State.holdsEnd_tabs (s : State) (n : Nat) : TabsOk (State.holdsEnd s n) s := by
  refine ⟨fun h => ?_, fun h => ?_, fun h => ?_, fun h => ?_, fun h => ?_⟩ <;>
    (simp (maxDischargeDepth := 40) [State.holdsEnd, h])
@[simp] theorem State.blankEnds_tabs (s : State) (n t : Nat) : TabsOk (State.blankEnds s n t) s := by
  refine ⟨fun h => ?_, fun h => ?_, fun h => ?_, fun h => ?_, fun h => ?_⟩ <;>
    (simp (maxDischargeDepth := 40) [State.blankEnds, h])
@[simp] theorem State.doItem_tabs (s : State) (k : SeqItem) (r t : Nat) : TabsOk (State.doItem s k r t) s := by
  refine ⟨fun h => ?_, fun h => ?_, fun h => ?_, fun h => ?_, fun h => ?_⟩ <;>
    (unfold State.doItem; split <;> simp [h])
@[simp] theorem State.settleTo_tabs (s : State) (t : Nat) : TabsEq (State.settleTo s t) s := by
  simp [TabsEq, ChansEq, SrcsEq, CntEq, State.settleTo]
@[simp] theorem State.runItem_tabs (s : State) (k : SeqItem) (r t : Nat) : TabsOk (State.runItem s k r t) s := by
  refine ⟨fun h => ?_, fun h => ?_, fun h => ?_, fun h => ?_, fun h => ?_⟩ <;>
    (simp [State.runItem, h])
@[simp] theorem State.catchUp_tabs (t k fuel : Nat) (s : State) : TabsOk (State.catchUp t k fuel s) s := by
  induction fuel generalizing s with
  | zero => exact TabsOk.rfl' s
  | succ n ih =>
    unfold State.catchUp
    split
    · exact TabsOk.rfl' s
    · refine (ih _).trans' ?_
      refine ⟨fun h => ?_, fun h => ?_, fun h => ?_, fun h => ?_, fun h => ?_⟩ <;> simp [h]
@[simp] theorem State.upTo_tabs (s : State) (t k : Nat) : TabsOk (State.upTo s t k) s := by
  refine ⟨fun h => ?_, fun h => ?_, fun h => ?_, fun h => ?_, fun h => ?_⟩ <;>
    (simp [State.upTo, h])
@[simp] theorem State.prior_tabs (s : State) : TabsOk (State.prior s) s := by
  refine ⟨fun h => ?_, fun h => ?_, fun h => ?_, fun h => ?_, fun h => ?_⟩ <;>
    (simp [State.prior, h])
@[simp] theorem State.rowEnds_tabs (s : State) (k : SeqItem) (r : Nat) : TabsOk (State.rowEnds s k r) s := by
  refine ⟨fun h => ?_, fun h => ?_, fun h => ?_, fun h => ?_, fun h => ?_⟩ <;>
    (unfold State.rowEnds; split <;> simp [h])
@[simp] theorem State.itemNow_tabs (s : State) (k : SeqItem) (r : Nat) : TabsOk (State.itemNow s k r) s := by
  refine ⟨fun h => ?_, fun h => ?_, fun h => ?_, fun h => ?_, fun h => ?_⟩ <;>
    (unfold State.itemNow; split <;> simp [h])
@[simp] theorem State.seqCtl_tabs (s : State) (l : Level) (on off : Bool) : TabsOk (State.seqCtl s l on off) s := by
  refine ⟨fun h => ?_, fun h => ?_, fun h => ?_, fun h => ?_, fun h => ?_⟩ <;>
    (simp (maxDischargeDepth := 40) [State.seqCtl, h])
@[simp] theorem State.tlogRead_tabs (s : State) : TabsEq (State.tlogRead s) s := by
  unfold State.tlogRead; split <;> simp [TabsEq, ChansEq, SrcsEq, CntEq]
@[simp] theorem State.tlogClr_tabs (s : State) : TabsEq (State.tlogClr s) s := by
  simp [TabsEq, ChansEq, SrcsEq, CntEq, State.tlogClr]
@[simp] theorem State.springCtl_tabs (s : State) (l : Level) (dis : Bool) : TabsEq (State.springCtl s l dis) s := by
  simp [TabsEq, ChansEq, SrcsEq, CntEq, State.springCtl]
@[simp] theorem State.pmbOk_tabs (s : State) (t : PmbTxn) (data : Nat) : ChansOk (State.pmbOk s t data) s ∧ SrcsEq
    (State.pmbOk s t data) s ∧ CntEq (State.pmbOk s t data) s := by
  refine ⟨?_, ?_, ?_⟩
  · intro h; unfold State.pmbOk; split <;> simp [h]
  · unfold State.pmbOk; split <;> simp [SrcsEq]
  · unfold State.pmbOk; split <;> simp [CntEq]
@[simp] theorem State.pmbGiveUp_tabs (s : State) (t : PmbTxn) (why : Nat) : TabsOk (State.pmbGiveUp s t why) s := by
  refine ⟨fun h => ?_, fun h => ?_, fun h => ?_, fun h => ?_, fun h => ?_⟩ <;>
    (unfold State.pmbGiveUp; split <;> simp [h])
@[simp] theorem State.pmbFail_tabs (s : State) (why : Nat) : TabsOk (State.pmbFail s why) s := by
  refine ⟨fun h => ?_, fun h => ?_, fun h => ?_, fun h => ?_, fun h => ?_⟩ <;>
    (unfold State.pmbFail; split <;> simp [h])
@[simp] theorem State.pmbEnds_tabs (s : State) (res : PmbEnd) (data : Nat) : TabsOk (State.pmbEnds s res data) s := by
  refine ⟨fun h => ?_, fun h => ?_, fun h => ?_, fun h => ?_, fun h => ?_⟩ <;>
    (unfold State.pmbEnds; (repeat' split) <;> simp [h])
@[simp] theorem State.pmbAgain_tabs (s : State) : TabsEq (State.pmbAgain s) s := by
  unfold State.pmbAgain; split <;> simp [TabsEq, ChansEq, SrcsEq, CntEq]
@[simp] theorem State.pmbPoll_tabs (s : State) (n : Nat) : ChansOk (State.pmbPoll s n) s ∧ SrcsEq (State.pmbPoll s n)
    s ∧ CntEq (State.pmbPoll s n) s := by
  refine ⟨?_, ?_, ?_⟩
  · intro h; simp only [State.pmbPoll]; (repeat' split) <;> simp [h]
  · simp only [State.pmbPoll]; (repeat' split) <;> simp [SrcsEq]
  · simp only [State.pmbPoll]; (repeat' split) <;> simp [CntEq]
@[simp] theorem State.pmbGo_tabs (s : State) (l : Level) (dev cmd : Nat) : TabsEq (State.pmbGo s l dev cmd) s := by
  simp [TabsEq, ChansEq, SrcsEq, CntEq, State.pmbGo]
@[simp] theorem State.mgnReturn_tabs (s : State) (n code stamp : Nat) : ChansOk (State.mgnReturn s n code stamp) s ∧
    SrcsEq (State.mgnReturn s n code stamp) s ∧ CntEq (State.mgnReturn s n code stamp) s := by
  refine ⟨?_, ?_, ?_⟩
  · intro h; simp [State.mgnReturn, h]
  · simp [SrcsEq, State.mgnReturn]
  · simp [CntEq, State.mgnReturn]
@[simp] theorem State.marginLimit_tabs (s : State) (n stamp : Nat) : TabsOk (State.marginLimit s n stamp) s := by
  refine ⟨fun h => ?_, fun h => ?_, fun h => ?_, fun h => ?_, fun h => ?_⟩ <;>
    (simp (maxDischargeDepth := 40) [State.marginLimit, h])
@[simp] theorem State.leaveSummer_tabs (s : State) (stamp : Nat) : ChansOk (State.leaveSummer s stamp) s ∧ SrcsEq
    (State.leaveSummer s stamp) s ∧ CntEq (State.leaveSummer s stamp) s := by
  refine ⟨?_, ?_, ?_⟩
  · intro h; simp +contextual (maxDischargeDepth := 40) [State.leaveSummer, h]
  · simp [SrcsEq, State.leaveSummer]
  · simp [CntEq, State.leaveSummer]
@[simp] theorem State.mgnAct_tabs (s : State) (n cmd : Nat) (pct code : Int) (stamp : Nat) : ChansOk (State.mgnAct s n
    cmd pct code stamp) s ∧ SrcsEq (State.mgnAct s n cmd pct code stamp) s ∧ CntOk (State.mgnAct s n cmd pct code
    stamp) s := by
  refine ⟨?_, ?_, ?_, ?_, ?_⟩
  · intro h; unfold State.mgnAct; split <;> simp [h]
  · unfold State.mgnAct; split <;> simp [SrcsEq]
  · intro h; unfold State.mgnAct; split <;> simp [h]
  · intro h; unfold State.mgnAct; split <;> simp [h]
  · intro h; unfold State.mgnAct; split <;> simp [h]
@[simp] theorem State.mgnReq_tabs (s : State) (n cmd : Nat) (pct code : Int) (l : Level) : ChansOk (State.mgnReq s n
    cmd pct code l) s ∧ SrcsEq (State.mgnReq s n cmd pct code l) s ∧ CntOk (State.mgnReq s n cmd pct code l) s := by
  refine ⟨?_, ?_, ?_, ?_, ?_⟩
  · intro h; unfold State.mgnReq; (repeat' split) <;> simp [h]
  · unfold State.mgnReq; (repeat' split) <;> simp [SrcsEq]
  · intro h; unfold State.mgnReq; (repeat' split) <;> simp [h]
  · intro h; unfold State.mgnReq; (repeat' split) <;> simp [h]
  · intro h; unfold State.mgnReq; (repeat' split) <;> simp [h]
@[simp] theorem State.mgnWrite_tabs (s : State) (n cmd : Nat) (pct code : Int) : ChansOk (State.mgnWrite s n cmd pct
    code) s ∧ SrcsEq (State.mgnWrite s n cmd pct code) s ∧ CntOk (State.mgnWrite s n cmd pct code) s := by
  refine ⟨?_, ?_, ?_, ?_, ?_⟩
  · intro h; simp +contextual [State.mgnWrite, h]
  · simp [SrcsEq, State.mgnWrite]
  · intro h; simp +contextual [State.mgnWrite, h]
  · intro h; simp +contextual [State.mgnWrite, h]
  · intro h; simp +contextual [State.mgnWrite, h]
@[simp] theorem State.servo_tabs (s : State) (n t : Nat) : TabsOk (State.servo s n t) s := by
  refine ⟨fun h => ?_, fun h => ?_, fun h => ?_, fun h => ?_, fun h => ?_⟩ <;>
    (simp [State.servo, h])
@[simp] theorem State.servoDue_tabs (s : State) (n : Nat) : TabsOk (State.servoDue s n) s := by
  refine ⟨fun h => ?_, fun h => ?_, fun h => ?_, fun h => ?_, fun h => ?_⟩ <;>
    (simp [State.servoDue, h])
@[simp] theorem State.walkDue_tabs (s : State) (n : Nat) : ChansOk (State.walkDue s n) s ∧ SrcsEq (State.walkDue s n)
    s ∧ CntEq (State.walkDue s n) s := by
  refine ⟨?_, ?_, ?_⟩
  · intro h; simp [State.walkDue, h]
  · simp [SrcsEq, State.walkDue]
  · simp [CntEq, State.walkDue]
@[simp] theorem State.campIssue_tabs (s : State) (corner tick : Nat) (abort : Bool) : TabsEq (State.campIssue s corner
    tick abort) s := by
  simp [TabsEq, ChansEq, SrcsEq, CntEq, State.campIssue]
@[simp] theorem State.campGo_tabs (s : State) (corner : Nat) (abort : Bool) : TabsEq (State.campGo s corner abort) s
    := by
  simp [TabsEq, ChansEq, SrcsEq, CntEq, State.campGo]
@[simp] theorem State.cornerOn_tabs (s : State) (corner t n : Nat) : ChansOk (State.cornerOn s corner t n) s ∧ SrcsEq
    (State.cornerOn s corner t n) s ∧ CntOk (State.cornerOn s corner t n) s := by
  refine ⟨?_, ?_, ?_, ?_, ?_⟩
  · intro h; simp [State.cornerOn, h]
  · simp [SrcsEq, State.cornerOn]
  · intro h; simp [State.cornerOn, h]
  · intro h; simp [State.cornerOn, h]
  · intro h; simp [State.cornerOn, h]
@[simp] theorem State.cornerTick_tabs (s : State) : TabsOk (State.cornerTick s) s := by
  refine ⟨fun h => ?_, fun h => ?_, fun h => ?_, fun h => ?_, fun h => ?_⟩ <;>
    (unfold State.cornerTick; dsimp only; (repeat' split) <;> simp +contextual (maxDischargeDepth := 40) [h])
@[simp] theorem State.campCount_tabs (s : State) (org : Nat) (fail : Bool) (rail why stamp : Nat) : TabsEq
    (State.campCount s org fail rail why stamp) s := by
  simp [TabsEq, ChansEq, SrcsEq, CntEq, State.campCount]
@[simp] theorem State.campReport_tabs (s : State) : TabsEq (State.campReport s) s := by
  unfold State.campReport; split <;> simp [TabsEq, ChansEq, SrcsEq, CntEq]
@[simp] theorem State.modPrb_tabs (s : State) (n : Nat) (f : Probe → Probe) : ChansOk (State.modPrb s n f) s ∧ SrcsEq
    (State.modPrb s n f) s ∧ CntEq (State.modPrb s n f) s := by
  refine ⟨?_, ?_, ?_⟩
  · intro h; simp [State.modPrb, h]
  · simp [SrcsEq, State.modPrb]
  · simp [CntEq, State.modPrb]
@[simp] theorem State.prbReq_tabs (s : State) (n : Nat) (l : Level) : ChansOk (State.prbReq s n l) s ∧ SrcsEq
    (State.prbReq s n l) s ∧ CntEq (State.prbReq s n l) s := by
  refine ⟨?_, ?_, ?_⟩
  · intro h; unfold State.prbReq; (repeat' split) <;> simp [h]
  · unfold State.prbReq; (repeat' split) <;> simp [SrcsEq]
  · unfold State.prbReq; (repeat' split) <;> simp [CntEq]
@[simp] theorem State.prbReset_tabs (s : State) (n : Nat) (l : Level) : TabsOk (State.prbReset s n l) s := by
  refine ⟨fun h => ?_, fun h => ?_, fun h => ?_, fun h => ?_, fun h => ?_⟩ <;>
    (simp [State.prbReset, h])
@[simp] theorem State.prbDue_tabs (s : State) (n : Nat) : ChansOk (State.prbDue s n) s ∧ SrcsEq (State.prbDue s n) s ∧
    CntEq (State.prbDue s n) s := by
  refine ⟨?_, ?_, ?_⟩
  · intro h; simp [State.prbDue, h]
  · simp [SrcsEq, State.prbDue]
  · simp [CntEq, State.prbDue]
@[simp] theorem State.prbStart_tabs (s : State) : ChansOk (State.prbStart s) s ∧ SrcsEq (State.prbStart s) s ∧ CntEq
    (State.prbStart s) s := by
  refine ⟨?_, ?_, ?_⟩
  · intro h; unfold State.prbStart; (repeat' split) <;> simp [h]
  · unfold State.prbStart; (repeat' split) <;> simp [SrcsEq]
  · unfold State.prbStart; (repeat' split) <;> simp [CntEq]
@[simp] theorem State.prbStep_tabs (s : State) : ChansOk (State.prbStep s) s ∧ SrcsEq (State.prbStep s) s ∧ CntEq
    (State.prbStep s) s := by
  refine ⟨?_, ?_, ?_⟩
  · intro h; unfold State.prbStep; split <;> simp [h]
  · unfold State.prbStep; split <;> simp [SrcsEq]
  · unfold State.prbStep; split <;> simp [CntEq]
@[simp] theorem State.prbReturn_tabs (s : State) : ChansOk (State.prbReturn s) s ∧ SrcsEq (State.prbReturn s) s ∧
    CntEq (State.prbReturn s) s := by
  refine ⟨?_, ?_, ?_⟩
  · intro h; unfold State.prbReturn; split <;> simp [h]
  · unfold State.prbReturn; split <;> simp [SrcsEq]
  · unfold State.prbReturn; split <;> simp [CntEq]
@[simp] theorem State.prbFit_tabs (s : State) (wn zeta qeff fitQ : Nat) : TabsOk (State.prbFit s wn zeta qeff fitQ) s
    := by
  refine ⟨fun h => ?_, fun h => ?_, fun h => ?_, fun h => ?_, fun h => ?_⟩ <;>
    (unfold State.prbFit; split <;> simp (maxDischargeDepth := 40) [h])
@[simp] theorem State.leaderLost_tabs (s : State) (a : Nat) : TabsEq (State.leaderLost s a) s := by
  simp [TabsEq, ChansEq, SrcsEq, CntEq, State.leaderLost]
@[simp] theorem State.leaderLostAll_tabs (s : State) (l : List Nat) : TabsEq (State.leaderLostAll s l) s := by
  simp [TabsEq, ChansEq, SrcsEq, CntEq, State.leaderLostAll]
@[simp] theorem State.subtreeLost_tabs (s : State) (p : Nat) : TabsEq (State.subtreeLost s p) s := by
  simp [TabsEq, ChansEq, SrcsEq, CntEq, State.subtreeLost]
@[simp] theorem State.portsLost_tabs (s : State) (p : Nat → Bool) : TabsEq (State.portsLost s p) s := by
  simp [TabsEq, ChansEq, SrcsEq, CntEq, State.portsLost]
@[simp] theorem State.cmpTrip_tabs (s : State) (n : Nat) (k : Cmp) (level held : Nat) : TabsOk (State.cmpTrip s n k
    level held) s := by
  refine ⟨fun h => ?_, fun h => ?_, fun h => ?_, fun h => ?_, fun h => ?_⟩ <;>
    (simp (maxDischargeDepth := 40) [State.cmpTrip, h])
@[simp] theorem State.cmpRelease_tabs (s : State) (n : Nat) (k : Cmp) (level : Nat) : ChansOk (State.cmpRelease s n k
    level) s ∧ SrcsEq (State.cmpRelease s n k level) s ∧ CntEq (State.cmpRelease s n k level) s := by
  refine ⟨?_, ?_, ?_⟩
  · intro h; simp [State.cmpRelease, h]
  · simp [SrcsEq, State.cmpRelease]
  · simp [CntEq, State.cmpRelease]
@[simp] theorem State.takeSample_tabs (s : State) (n v i : Nat) : ChansOk (State.takeSample s n v i) s ∧ SrcsEq
    (State.takeSample s n v i) s ∧ CntEq (State.takeSample s n v i) s := by
  refine ⟨?_, ?_, ?_⟩
  · intro h; simp [State.takeSample, h]
  · simp [SrcsEq, State.takeSample]
  · simp [CntEq, State.takeSample]
@[simp] theorem State.goodUpd_tabs (s : State) (n stamp : Nat) : TabsOk (State.goodUpd s n stamp) s := by
  refine ⟨fun h => ?_, fun h => ?_, fun h => ?_, fun h => ?_, fun h => ?_⟩ <;>
    (simp [State.goodUpd, h])
@[simp] theorem State.bandCheck_tabs (s : State) (n v stamp : Nat) : TabsOk (State.bandCheck s n v stamp) s := by
  refine ⟨fun h => ?_, fun h => ?_, fun h => ?_, fun h => ?_, fun h => ?_⟩ <;>
    (simp [State.bandCheck, h])
@[simp] theorem State.belowDis_tabs (s : State) (n stamp : Nat) : TabsOk (State.belowDis s n stamp) s := by
  refine ⟨fun h => ?_, fun h => ?_, fun h => ?_, fun h => ?_, fun h => ?_⟩ <;>
    (unfold State.belowDis; split <;> simp [h])
@[simp] theorem State.springTry_tabs (s : State) (r stamp : Nat) : TabsOk (State.springTry s r stamp) s := by
  refine ⟨fun h => ?_, fun h => ?_, fun h => ?_, fun h => ?_, fun h => ?_⟩ <;>
    (simp [State.springTry, h])
@[simp] theorem State.springPass_tabs (s : State) : TabsOk (State.springPass s) s := by
  refine ⟨fun h => ?_, fun h => ?_, fun h => ?_, fun h => ?_, fun h => ?_⟩ <;>
    (simp +contextual (maxDischargeDepth := 40) [State.springPass, h])
@[simp] theorem State.chanSample_tabs (s : State) (n v i : Nat) : TabsOk (State.chanSample s n v i) s := by
  refine ⟨fun h => ?_, fun h => ?_, fun h => ?_, fun h => ?_, fun h => ?_⟩ <;>
    (simp (maxDischargeDepth := 40) [State.chanSample, h])
@[simp] theorem State.pgChange_tabs (s : State) (n : Nat) (level : Bool) : TabsOk (State.pgChange s n level) s := by
  refine ⟨fun h => ?_, fun h => ?_, fun h => ?_, fun h => ?_, fun h => ?_⟩ <;>
    (simp (maxDischargeDepth := 40) [State.pgChange, h])
@[simp] theorem State.stageThr_tabs (s : State) (n reg : Nat) (w : Word) : ChansOk (State.stageThr s n reg w) s ∧
    SrcsEq (State.stageThr s n reg w) s ∧ CntEq (State.stageThr s n reg w) s := by
  refine ⟨?_, ?_, ?_⟩
  · intro h; simp [State.stageThr, h]
  · simp [SrcsEq, State.stageThr]
  · simp [CntEq, State.stageThr]
@[simp] theorem State.chApply_tabs (s : State) (n : Nat) : ChansOk (State.chApply s n) s ∧ SrcsEq (State.chApply s n)
    s ∧ CntEq (State.chApply s n) s := by
  refine ⟨?_, ?_, ?_⟩
  · intro h; simp [State.chApply, h]
  · simp [SrcsEq, State.chApply]
  · simp [CntEq, State.chApply]
@[simp] theorem State.chApplyServo_tabs (s : State) (n : Nat) : TabsOk (State.chApplyServo s n) s := by
  refine ⟨fun h => ?_, fun h => ?_, fun h => ?_, fun h => ?_, fun h => ?_⟩ <;>
    (simp [State.chApplyServo, h])
@[simp] theorem State.chDiscard_tabs (s : State) (n : Nat) : ChansOk (State.chDiscard s n) s ∧ SrcsEq (State.chDiscard
    s n) s ∧ CntEq (State.chDiscard s n) s := by
  refine ⟨?_, ?_, ?_⟩
  · intro h; simp [State.chDiscard, h]
  · simp [SrcsEq, State.chDiscard]
  · simp [CntEq, State.chDiscard]
@[simp] theorem State.chLock_tabs (s : State) (n key : Nat) : ChansOk (State.chLock s n key) s ∧ SrcsEq (State.chLock
    s n key) s ∧ CntEq (State.chLock s n key) s := by
  refine ⟨?_, ?_, ?_⟩
  · intro h; simp [State.chLock, h]
  · simp [SrcsEq, State.chLock]
  · simp [CntEq, State.chLock]
@[simp] theorem State.energy_tabs (s : State) (h : Nat) : TabsEq (State.energy s h) s := by
  simp [TabsEq, ChansEq, SrcsEq, CntEq, State.energy]
@[simp] theorem State.floorCheck_tabs (s : State) (h : Nat) : TabsEq (State.floorCheck s h) s := by
  simp [TabsEq, ChansEq, SrcsEq, CntEq, State.floorCheck]
@[simp] theorem State.capClose_tabs (s : State) (out c stamp : Nat) : ChansEq (State.capClose s out c stamp) s ∧
    SrcsOk (State.capClose s out c stamp) s ∧ CntOk (State.capClose s out c stamp) s := by
  refine ⟨?_, ?_, ?_, ?_, ?_⟩
  · simp [ChansEq, State.capClose]
  · intro h; simp [State.capClose, h]
  · intro h; simp [State.capClose, h]
  · intro h; simp [State.capClose, h]
  · intro h; simp [State.capClose, h]
@[simp] theorem State.capSample_tabs (s : State) (h stamp : Nat) : ChansEq (State.capSample s h stamp) s ∧ SrcsOk
    (State.capSample s h stamp) s ∧ CntOk (State.capSample s h stamp) s := by
  refine ⟨?_, ?_, ?_, ?_, ?_⟩
  · simp only [State.capSample]; (repeat' split) <;> simp [ChansEq]
  · intro h; simp only [State.capSample]; (repeat' split) <;> simp [h]
  · intro h; simp only [State.capSample]; (repeat' split) <;> simp [h]
  · intro h; simp only [State.capSample]; (repeat' split) <;> simp [h]
  · intro h; simp only [State.capSample]; (repeat' split) <;> simp [h]
@[simp] theorem State.hvsSample_tabs (s : State) (k code : Nat) : TabsOk (State.hvsSample s k code) s := by
  refine ⟨fun h => ?_, fun h => ?_, fun h => ?_, fun h => ?_, fun h => ?_⟩ <;>
    (simp (maxDischargeDepth := 40) [State.hvsSample, h])
@[simp] theorem State.senseSample_tabs (s : State) (code : Nat) : TabsEq (State.senseSample s code) s := by
  simp [TabsEq, ChansEq, SrcsEq, CntEq, State.senseSample]
@[simp] theorem State.brkRise_tabs (s : State) (held : Nat) : TabsOk (State.brkRise s held) s := by
  refine ⟨fun h => ?_, fun h => ?_, fun h => ?_, fun h => ?_, fun h => ?_⟩ <;>
    (simp (maxDischargeDepth := 40) [State.brkRise, h])
@[simp] theorem State.gateUp_tabs (s : State) : TabsOk (State.gateUp s) s := by
  refine ⟨fun h => ?_, fun h => ?_, fun h => ?_, fun h => ?_, fun h => ?_⟩ <;>
    (simp [State.gateUp, h])
@[simp] theorem State.vinLost_tabs (s : State) : TabsOk (State.vinLost s) s := by
  refine ⟨fun h => ?_, fun h => ?_, fun h => ?_, fun h => ?_, fun h => ?_⟩ <;>
    (simp (maxDischargeDepth := 40) [State.vinLost, h])
@[simp] theorem State.vinBack_tabs (s : State) : TabsOk (State.vinBack s) s := by
  refine ⟨fun h => ?_, fun h => ?_, fun h => ?_, fun h => ?_, fun h => ?_⟩ <;>
    (simp [State.vinBack, h])
@[simp] theorem State.nakCheck_tabs (s : State) (stamp : Nat) : ChansEq (State.nakCheck s stamp) s ∧ SrcsOk
    (State.nakCheck s stamp) s ∧ CntOk (State.nakCheck s stamp) s := by
  refine ⟨?_, ?_, ?_, ?_, ?_⟩
  · simp [ChansEq, State.nakCheck]
  · intro h; simp [State.nakCheck, h]
  · intro h; simp [State.nakCheck, h]
  · intro h; simp [State.nakCheck, h]
  · intro h; simp [State.nakCheck, h]
@[simp] theorem State.blockTimeout_tabs (s : State) (blk : Nat) : TabsOk (State.blockTimeout s blk) s := by
  refine ⟨fun h => ?_, fun h => ?_, fun h => ?_, fun h => ?_, fun h => ?_⟩ <;>
    (simp [State.blockTimeout, h])
@[simp] theorem State.stray_tabs (s : State) (len : Nat) : TabsEq (State.stray s len) s := by
  simp [TabsEq, ChansEq, SrcsEq, CntEq, State.stray]
@[simp] theorem State.blockOver_tabs (s : State) (blk : Nat) : TabsEq (State.blockOver s blk) s := by
  simp [TabsEq, ChansEq, SrcsEq, CntEq, State.blockOver]
@[simp] theorem State.arrive_chans (s : State) (blk len : Nat) (f : State → State) (h : ChansWf s.chans) (hf : ∀ t,
    ChansWf t.chans → ChansWf (f t).chans) : ChansWf (State.arrive s blk len f).chans := by
  unfold State.arrive; dsimp only
  (repeat' split) <;> simp [h, hf]
@[simp] theorem State.arrive_srcs (s : State) (blk len : Nat) (f : State → State) (h : SrcsWf s.flt.srcs) (hf : ∀ t,
    SrcsWf t.flt.srcs → SrcsWf (f t).flt.srcs) : SrcsWf (State.arrive s blk len f).flt.srcs := by
  unfold State.arrive; dsimp only
  (repeat' split) <;> simp [h, hf]
@[simp] theorem State.arrive_leaf (s : State) (blk len : Nat) (f : State → State) (h : NatsWf s.cnt.leaf) (hf : ∀ t,
    NatsWf t.cnt.leaf → NatsWf (f t).cnt.leaf) : NatsWf (State.arrive s blk len f).cnt.leaf := by
  unfold State.arrive; dsimp only
  (repeat' split) <;> simp [h, hf]
@[simp] theorem State.arrive_isl (s : State) (blk len : Nat) (f : State → State) (h : NatsWf s.cnt.isl) (hf : ∀ t,
    NatsWf t.cnt.isl → NatsWf (f t).cnt.isl) : NatsWf (State.arrive s blk len f).cnt.isl := by
  unfold State.arrive; dsimp only
  (repeat' split) <;> simp [h, hf]
@[simp] theorem State.arrive_dev (s : State) (blk len : Nat) (f : State → State) (h : NatsWf s.cnt.dev) (hf : ∀ t,
    NatsWf t.cnt.dev → NatsWf (f t).cnt.dev) : NatsWf (State.arrive s blk len f).cnt.dev := by
  unfold State.arrive; dsimp only
  (repeat' split) <;> simp [h, hf]
@[simp] theorem State.macPass_tabs (s : State) (blk undef : Nat) : TabsOk (State.macPass s blk undef) s := by
  refine ⟨fun h => ?_, fun h => ?_, fun h => ?_, fun h => ?_, fun h => ?_⟩ <;>
    (simp [State.macPass, h])
@[simp] theorem State.macFail_tabs (s : State) (blk : Nat) : TabsOk (State.macFail s blk) s := by
  refine ⟨fun h => ?_, fun h => ?_, fun h => ?_, fun h => ?_, fun h => ?_⟩ <;>
    (simp (maxDischargeDepth := 40) [State.macFail, h])
@[simp] theorem State.ledgerReject_tabs (s : State) (code group : Nat) (named : Bool) : TabsOk (State.ledgerReject s
    code group named) s := by
  refine ⟨fun h => ?_, fun h => ?_, fun h => ?_, fun h => ?_, fun h => ?_⟩ <;>
    (simp (maxDischargeDepth := 40) [State.ledgerReject, h])
@[simp] theorem State.verdictsFirst_tabs (s : State) (blk : Nat) : TabsOk (State.verdictsFirst s blk) s := by
  unfold State.verdictsFirst
  refine TabsOk.foldl _ (fun t i => ?_) _ _
  refine ⟨fun h => ?_, fun h => ?_, fun h => ?_, fun h => ?_, fun h => ?_⟩ <;>
    ((repeat' split) <;> simp [h])
@[simp] theorem State.ledgerOpen_tabs (s : State) (blk bytes group epoch : Nat) : TabsOk (State.ledgerOpen s blk bytes
    group epoch) s := by
  refine ⟨fun h => ?_, fun h => ?_, fun h => ?_, fun h => ?_, fun h => ?_⟩ <;>
    (simp only [State.ledgerOpen]; (repeat' split) <;> simp [h])
@[simp] theorem State.ledgerDone_tabs (s : State) (blk group : Nat) : TabsOk (State.ledgerDone s blk group) s := by
  refine ⟨fun h => ?_, fun h => ?_, fun h => ?_, fun h => ?_, fun h => ?_⟩ <;>
    (simp [State.ledgerDone, h])
@[simp] theorem State.ledgerSeal_tabs (s : State) (blk group epoch : Nat) : TabsOk (State.ledgerSeal s blk group
    epoch) s := by
  refine ⟨fun h => ?_, fun h => ?_, fun h => ?_, fun h => ?_, fun h => ?_⟩ <;>
    (simp [State.ledgerSeal, h])
@[simp] theorem State.alarm_tabs (s : State) (i : Nat) : TabsOk (State.alarm s i) s := by
  refine ⟨fun h => ?_, fun h => ?_, fun h => ?_, fun h => ?_, fun h => ?_⟩ <;>
    (simp [State.alarm, h])
@[simp] theorem State.failsFirst_tabs (s : State) : TabsOk (State.failsFirst s) s := by
  unfold State.failsFirst
  refine TabsOk.foldl _ (fun t i => ?_) _ _
  refine ⟨fun h => ?_, fun h => ?_, fun h => ?_, fun h => ?_, fun h => ?_⟩ <;>
    ((repeat' split) <;> simp [h])
@[simp] theorem State.lctlNak_tabs (s : State) (n : Nat) : TabsOk (State.lctlNak s n) s := by
  refine ⟨fun h => ?_, fun h => ?_, fun h => ?_, fun h => ?_, fun h => ?_⟩ <;>
    (simp [State.lctlNak, h])
@[simp] theorem State.ackTimeout_tabs (s : State) : TabsOk (State.ackTimeout s) s := by
  refine ⟨fun h => ?_, fun h => ?_, fun h => ?_, fun h => ?_, fun h => ?_⟩ <;>
    (simp (maxDischargeDepth := 40) [State.ackTimeout, h])
@[simp] theorem State.lctlAck_tabs (s : State) (n : Nat) : TabsOk (State.lctlAck s n) s := by
  refine ⟨fun h => ?_, fun h => ?_, fun h => ?_, fun h => ?_, fun h => ?_⟩ <;>
    (simp [State.lctlAck, h])
@[simp] theorem State.silence_tabs (s : State) : TabsOk (State.silence s) s := by
  refine ⟨fun h => ?_, fun h => ?_, fun h => ?_, fun h => ?_, fun h => ?_⟩ <;>
    (simp (maxDischargeDepth := 40) [State.silence, h])
@[simp] theorem State.laneUp_tabs (s : State) (lane : Nat) : TabsOk (State.laneUp s lane) s := by
  refine ⟨fun h => ?_, fun h => ?_, fun h => ?_, fun h => ?_, fun h => ?_⟩ <;>
    (simp only [State.laneUp]; (repeat' split) <;> simp [h])
@[simp] theorem State.lanesFirst_tabs (s : State) (lane : Nat) : TabsOk (State.lanesFirst s lane) s := by
  unfold State.lanesFirst
  refine TabsOk.foldl _ (fun t i => ?_) _ _
  refine ⟨fun h => ?_, fun h => ?_, fun h => ?_, fun h => ?_, fun h => ?_⟩ <;>
    ((repeat' split) <;> simp [h])
@[simp] theorem State.laneDown_tabs (s : State) (lane hdr : Nat) : TabsOk (State.laneDown s lane hdr) s := by
  refine ⟨fun h => ?_, fun h => ?_, fun h => ?_, fun h => ?_, fun h => ?_⟩ <;>
    (simp (maxDischargeDepth := 40) [State.laneDown, h])
@[simp] theorem State.kx_tabs (s : State) (blk : Nat) (nonceM : List Byte) : TabsOk (State.kx s blk nonceM) s := by
  refine ⟨fun h => ?_, fun h => ?_, fun h => ?_, fun h => ?_, fun h => ?_⟩ <;>
    (simp [State.kx, h])
@[simp] theorem State.keyTimeout_tabs (s : State) : TabsOk (State.keyTimeout s) s := by
  refine ⟨fun h => ?_, fun h => ?_, fun h => ?_, fun h => ?_, fun h => ?_⟩ <;>
    (unfold State.keyTimeout; split <;> simp (maxDischargeDepth := 40) [h])
@[simp] theorem State.hldCtl_tabs (s : State) (l : Level) (hold release drain : Bool) : TabsOk (State.hldCtl s l hold
    release drain) s := by
  refine ⟨fun h => ?_, fun h => ?_, fun h => ?_, fun h => ?_, fun h => ?_⟩ <;>
    (simp (maxDischargeDepth := 40) [State.hldCtl, h])
@[simp] theorem State.epochTick_tabs (s : State) : TabsEq (State.epochTick s) s := by
  simp [TabsEq, ChansEq, SrcsEq, CntEq, State.epochTick]
@[simp] theorem State.epochPeriod_tabs (s : State) : ChansEq (State.epochPeriod s) s ∧ SrcsOk (State.epochPeriod s) s
    ∧ CntOk (State.epochPeriod s) s := by
  refine ⟨?_, ?_, ?_, ?_, ?_⟩
  · unfold State.epochPeriod; split <;> simp [ChansEq]
  · intro h; unfold State.epochPeriod; split <;> simp [h]
  · intro h; unfold State.epochPeriod; split <;> simp [h]
  · intro h; unfold State.epochPeriod; split <;> simp [h]
  · intro h; unfold State.epochPeriod; split <;> simp [h]

end Sys2Proof.Machine
end

