-- ==== Sys2Proof/Laws/TabsStore.lean ====
section
/-! SUPPORT. What faults, the watchdog, the ENV store and journal, keys, pins and power do to the tables (Tables.lean). -/

open Sys2Proof

namespace Sys2Proof.Machine

@[simp] theorem State.wireEvent_tabs (s : State) (i stamp : Nat) (inj : Bool) : TabsOk (State.wireEvent s i stamp inj)
    s := by
  refine ⟨fun h => ?_, fun h => ?_, fun h => ?_, fun h => ?_, fun h => ?_⟩ <;>
    (simp (maxDischargeDepth := 40) [State.wireEvent, h])
@[simp] theorem State.decay_tabs (s : State) (i : Nat) : ChansEq (State.decay s i) s ∧ SrcsOk (State.decay s i) s ∧
    CntEq (State.decay s i) s := by
  refine ⟨?_, ?_, ?_⟩
  · simp only [State.decay]; (repeat' split) <;> simp [ChansEq]
  · intro h; simp only [State.decay]; (repeat' split) <;> simp [h]
  · simp only [State.decay]; (repeat' split) <;> simp [CntEq]
@[simp] theorem State.safeStep_tabs (s : State) (k : Nat) : TabsEq (State.safeStep s k) s := by
  simp [TabsEq, ChansEq, SrcsEq, CntEq, State.safeStep]
@[simp] theorem State.safeAdvance_tabs (s : State) : TabsOk (State.safeAdvance s) s := by
  refine ⟨fun h => ?_, fun h => ?_, fun h => ?_, fun h => ?_, fun h => ?_⟩ <;>
    (unfold State.safeAdvance; (repeat' split) <;> simp [h])
@[simp] theorem State.safeGoes_tabs (s : State) : TabsOk (State.safeGoes s) s := by
  refine ⟨fun h => ?_, fun h => ?_, fun h => ?_, fun h => ?_, fun h => ?_⟩ <;>
    (simp (maxDischargeDepth := 40) [State.safeGoes, h])
@[simp] theorem State.cmdRefuse_tabs (s : State) (c : Nat) : TabsEq (State.cmdRefuse s c) s := by
  simp [TabsEq, ChansEq, SrcsEq, CntEq, State.cmdRefuse]
@[simp] theorem Flt.answer_tabs (f : Flt) (i : Nat) (x : Src) (kind t : Nat) : SrcsWf f.srcs → SrcsWf (Flt.answer f i
    x kind t).srcs := by
  intro h
  simp [Flt.answer, h]
@[simp] theorem State.cmdAck_tabs (s : State) (i : Nat) : ChansEq (State.cmdAck s i) s ∧ SrcsOk (State.cmdAck s i) s ∧
    CntEq (State.cmdAck s i) s := by
  refine ⟨?_, ?_, ?_⟩
  · simp [ChansEq, State.cmdAck]
  · intro h; simp [State.cmdAck, h]
  · simp [CntEq, State.cmdAck]
@[simp] theorem State.cmdClr_tabs (s : State) (i : Nat) : ChansEq (State.cmdClr s i) s ∧ SrcsOk (State.cmdClr s i) s ∧
    CntEq (State.cmdClr s i) s := by
  refine ⟨?_, ?_, ?_⟩
  · simp [ChansEq, State.cmdClr]
  · intro h; simp [State.cmdClr, h]
  · simp [CntEq, State.cmdClr]
@[simp] theorem State.cmdSafeClr_tabs (s : State) : TabsEq (State.cmdSafeClr s) s := by
  unfold State.cmdSafeClr; split <;> simp [TabsEq, ChansEq, SrcsEq, CntEq]
@[simp] theorem State.safeLeave_tabs (s : State) : TabsOk (State.safeLeave s) s := by
  refine ⟨fun h => ?_, fun h => ?_, fun h => ?_, fun h => ?_, fun h => ?_⟩ <;>
    (simp [State.safeLeave, h])
@[simp] theorem State.cmdRearm_tabs (s : State) : TabsEq (State.cmdRearm s) s := by
  simp [TabsEq, ChansEq, SrcsEq, CntEq, State.cmdRearm]
@[simp] theorem State.fltCmd_tabs (s : State) (l : Level) (ack clr safeClr rearm : Bool) (src : Nat) : ChansEq
    (State.fltCmd s l ack clr safeClr rearm src) s ∧ SrcsOk (State.fltCmd s l ack clr safeClr rearm src) s ∧ CntEq
    (State.fltCmd s l ack clr safeClr rearm src) s := by
  refine ⟨?_, ?_, ?_⟩
  · simp [ChansEq, State.fltCmd]
  · intro h; simp [State.fltCmd, h]
  · simp [CntEq, State.fltCmd]
@[simp] theorem State.privClear_tabs (s : State) (bits : Nat) : TabsOk (State.privClear s bits) s := by
  refine ⟨fun h => ?_, fun h => ?_, fun h => ?_, fun h => ?_, fun h => ?_⟩ <;>
    (simp [State.privClear, h])
@[simp] theorem State.selfFault_tabs (s : State) (why : Nat) : TabsOk (State.selfFault s why) s := by
  refine ⟨fun h => ?_, fun h => ?_, fun h => ?_, fun h => ?_, fun h => ?_⟩ <;>
    (simp (maxDischargeDepth := 40) [State.selfFault, h])
@[simp] theorem State.inject_tabs (s : State) (src : Nat) (wire : Bool) : TabsOk (State.inject s src wire) s := by
  refine ⟨fun h => ?_, fun h => ?_, fun h => ?_, fun h => ?_, fun h => ?_⟩ <;>
    (simp [State.inject, h])
@[simp] theorem State.flogRead_tabs (s : State) : TabsEq (State.flogRead s) s := by
  unfold State.flogRead; split <;> simp [TabsEq, ChansEq, SrcsEq, CntEq]
@[simp] theorem State.flogClr_tabs (s : State) : TabsEq (State.flogClr s) s := by
  simp [TabsEq, ChansEq, SrcsEq, CntEq, State.flogClr]
@[simp] theorem State.wdgCatch_tabs (s : State) : TabsOk (State.wdgCatch s) s := by
  refine ⟨fun h => ?_, fun h => ?_, fun h => ?_, fun h => ?_, fun h => ?_⟩ <;>
    (unfold State.wdgCatch; split <;> simp [h])
@[simp] theorem State.wdgOpens_tabs (s : State) : TabsEq (State.wdgOpens s) s := by
  simp [TabsEq, ChansEq, SrcsEq, CntEq, State.wdgOpens]
@[simp] theorem State.wdgStart_tabs (s : State) (l : Level) : TabsEq (State.wdgStart s l) s := by
  simp [TabsEq, ChansEq, SrcsEq, CntEq, State.wdgStart]
@[simp] theorem State.wdgRaise_tabs (s : State) (c src : Nat) : TabsOk (State.wdgRaise s c src) s := by
  refine ⟨fun h => ?_, fun h => ?_, fun h => ?_, fun h => ?_, fun h => ?_⟩ <;>
    (simp [State.wdgRaise, h])
@[simp] theorem State.wdgNext_tabs (s : State) (l : Level) (next : Nat) : TabsOk (State.wdgNext s l next) s := by
  refine ⟨fun h => ?_, fun h => ?_, fun h => ?_, fun h => ?_, fun h => ?_⟩ <;>
    (simp [State.wdgNext, h])
@[simp] theorem State.wdgAns_tabs (s : State) (i answer : Nat) : TabsOk (State.wdgAns s i answer) s := by
  refine ⟨fun h => ?_, fun h => ?_, fun h => ?_, fun h => ?_, fun h => ?_⟩ <;>
    (simp only [State.wdgAns]; (repeat' split) <;> simp [h])
@[simp] theorem State.wdgAccept_tabs (s : State) : TabsOk (State.wdgAccept s) s := by
  refine ⟨fun h => ?_, fun h => ?_, fun h => ?_, fun h => ?_, fun h => ?_⟩ <;>
    (simp [State.wdgAccept, h])
@[simp] theorem State.wdgSvc_tabs (s : State) (svc : Nat) : TabsOk (State.wdgSvc s svc) s := by
  refine ⟨fun h => ?_, fun h => ?_, fun h => ?_, fun h => ?_, fun h => ?_⟩ <;>
    (simp only [State.wdgSvc]; (repeat' split) <;> simp [h])
@[simp] theorem State.keyFails_tabs (s : State) : TabsOk (State.keyFails s) s := by
  refine ⟨fun h => ?_, fun h => ?_, fun h => ?_, fun h => ?_, fun h => ?_⟩ <;>
    (simp [State.keyFails, h])
@[simp] theorem State.wdgKey_tabs (s : State) (key : Nat) : TabsOk (State.wdgKey s key) s := by
  refine ⟨fun h => ?_, fun h => ?_, fun h => ?_, fun h => ?_, fun h => ?_⟩ <;>
    (simp only [State.wdgKey]; (repeat' split) <;> simp (maxDischargeDepth := 40) [h])
@[simp] theorem State.release_tabs (s : State) : ChansOk (State.release s) s ∧ SrcsEq (State.release s) s ∧ CntEq
    (State.release s) s := by
  refine ⟨?_, ?_, ?_⟩
  · intro h; simp [State.release, h]
  · simp [SrcsEq, State.release]
  · simp [CntEq, State.release]
@[simp] theorem State.clkLost_tabs (s : State) : TabsOk (State.clkLost s) s := by
  refine ⟨fun h => ?_, fun h => ?_, fun h => ?_, fun h => ?_, fun h => ?_⟩ <;>
    (simp [State.clkLost, h])
@[simp] theorem State.clkWindow_tabs (s : State) (count : Nat) (edgeOnEnd : Bool) : TabsOk (State.clkWindow s count
    edgeOnEnd) s := by
  refine ⟨fun h => ?_, fun h => ?_, fun h => ?_, fun h => ?_, fun h => ?_⟩ <;>
    (simp [State.clkWindow, h])
@[simp] theorem State.readLine_tabs (s : State) (f : LineFlaws) (a : Nat) : ChansEq (State.readLine s f a) s ∧ SrcsOk
    (State.readLine s f a) s ∧ CntOk (State.readLine s f a) s := by
  refine ⟨?_, ?_, ?_, ?_, ?_⟩
  · unfold State.readLine; split <;> simp [ChansEq]
  · intro h; unfold State.readLine; split <;> simp [h]
  · intro h; unfold State.readLine; split <;> simp [h]
  · intro h; unfold State.readLine; split <;> simp [h]
  · intro h; unfold State.readLine; split <;> simp [h]
@[simp] theorem State.readEarly_tabs (s : State) (f : LineFlaws) (a : Nat) : TabsEq (State.readEarly s f a) s := by
  simp [TabsEq, ChansEq, SrcsEq, CntEq, State.readEarly]
@[simp] theorem State.accRead_tabs (s : State) (f : LineFlaws) : ChansEq (State.accRead s f) s ∧ SrcsOk (State.accRead
    s f) s ∧ CntOk (State.accRead s f) s := by
  refine ⟨?_, ?_, ?_, ?_, ?_⟩
  · simp [ChansEq, State.accRead]
  · intro h; simp [State.accRead, h]
  · intro h; simp [State.accRead, h]
  · intro h; simp [State.accRead, h]
  · intro h; simp [State.accRead, h]
@[simp] theorem State.accBegin_tabs (s : State) (bs : List Byte) : TabsEq (State.accBegin s bs) s := by
  simp [TabsEq, ChansEq, SrcsEq, CntEq, State.accBegin]
@[simp] theorem State.accWrite_tabs (s : State) (full : Bool) (l : Level) (f : LineFlaws) : ChansEq (State.accWrite s
    full l f) s ∧ SrcsOk (State.accWrite s full l f) s ∧ CntOk (State.accWrite s full l f) s := by
  refine ⟨?_, ?_, ?_, ?_, ?_⟩
  · simp only [State.accWrite]; (repeat' split) <;> simp [ChansEq]
  · intro h; simp only [State.accWrite]; (repeat' split) <;> simp [h]
  · intro h; simp only [State.accWrite]; (repeat' split) <;> simp [h]
  · intro h; simp only [State.accWrite]; (repeat' split) <;> simp [h]
  · intro h; simp only [State.accWrite]; (repeat' split) <;> simp [h]
@[simp] theorem State.accCmd_tabs (s : State) (c : AccCmd) (l : Level) (f : LineFlaws) : TabsOk (State.accCmd s c l f)
    s := by
  refine ⟨fun h => ?_, fun h => ?_, fun h => ?_, fun h => ?_, fun h => ?_⟩ <;>
    (unfold State.accCmd; (repeat' split) <;> simp [h])
@[simp] theorem State.accHost_tabs (s : State) (c : AccCmd) (l : Level) (f : LineFlaws) : TabsOk (State.accHost s c l
    f) s := by
  refine ⟨fun h => ?_, fun h => ?_, fun h => ?_, fun h => ?_, fun h => ?_⟩ <;>
    (simp [State.accHost, h])
@[simp] theorem State.accDone_tabs (s : State) : TabsEq (State.accDone s) s := by
  unfold State.accDone; (repeat' split) <;> simp [TabsEq, ChansEq, SrcsEq, CntEq]
@[simp] theorem Cnt.restore_tabs (c : Cnt) (l : List Byte) : (NatsWf c.leaf → NatsWf (Cnt.restore c l).leaf) ∧ (NatsWf
    c.isl → NatsWf (Cnt.restore c l).isl) ∧ (NatsWf c.dev → NatsWf (Cnt.restore c l).dev) := by
  refine ⟨fun h => ?_, fun h => ?_, fun h => ?_⟩ <;>
    (simp +contextual [Cnt.restore, h])
@[simp] theorem Cnt.totals_tabs (c : Cnt) : (NatsWf c.leaf → NatsWf (Cnt.totals c).leaf) ∧ (NatsWf c.isl → NatsWf
    (Cnt.totals c).isl) ∧ (NatsWf c.dev → NatsWf (Cnt.totals c).dev) := by
  refine ⟨fun h => ?_, fun h => ?_, fun h => ?_⟩ <;>
    (simp +contextual [Cnt.totals, h])
@[simp] theorem State.applyRec_tabs (s : State) (l : List Byte) : ChansOk (State.applyRec s l) s ∧ SrcsEq
    (State.applyRec s l) s ∧ CntOk (State.applyRec s l) s := by
  refine ⟨?_, ?_, ?_, ?_, ?_⟩
  · intro h; unfold State.applyRec; split <;> simp [h]
  · unfold State.applyRec; split <;> simp [SrcsEq]
  · intro h; unfold State.applyRec; split <;> simp [h]
  · intro h; unfold State.applyRec; split <;> simp [h]
  · intro h; unfold State.applyRec; split <;> simp [h]
@[simp] theorem State.prevFault_tabs (s : State) (recs : List (List Byte)) : TabsEq (State.prevFault s recs) s := by
  have k (g : Flt) (h : g.srcs = s.flt.srcs) : TabsEq { s with flt := g } s := ⟨rfl, h, rfl, rfl, rfl⟩
  unfold State.prevFault
  split <;> exact k _ rfl
@[simp] theorem State.genesis_tabs (s : State) (code : Nat) : TabsEq (State.genesis s code) s := by
  simp [TabsEq, ChansEq, SrcsEq, CntEq, State.genesis]
@[simp] theorem State.replay_tabs (s : State) (f : LineFlaws) : ChansOk (State.replay s f) s ∧ SrcsEq (State.replay s
    f) s ∧ CntOk (State.replay s f) s := by
  refine ⟨?_, ?_, ?_, ?_, ?_⟩
  · intro h; unfold State.replay; dsimp only; (repeat' split) <;> simp +contextual (maxDischargeDepth := 40) [h]
  · unfold State.replay; dsimp only; (repeat' split) <;> simp [SrcsEq]
  · intro h; unfold State.replay; dsimp only; (repeat' split) <;> simp +contextual (maxDischargeDepth := 40) [h]
  · intro h; unfold State.replay; dsimp only; (repeat' split) <;> simp +contextual (maxDischargeDepth := 40) [h]
  · intro h; unfold State.replay; dsimp only; (repeat' split) <;> simp +contextual (maxDischargeDepth := 40) [h]
@[simp] theorem State.harvestBegin_tabs (s : State) : TabsEq (State.harvestBegin s) s := by
  simp [TabsEq, ChansEq, SrcsEq, CntEq, State.harvestBegin]
@[simp] theorem State.harvestAuto_tabs (s : State) (before : Nat) : TabsEq (State.harvestAuto s before) s := by
  simp [TabsEq, ChansEq, SrcsEq, CntEq, State.harvestAuto]
@[simp] theorem State.replayDone_tabs (s : State) (f : LineFlaws) : TabsOk (State.replayDone s f) s := by
  refine ⟨fun h => ?_, fun h => ?_, fun h => ?_, fun h => ?_, fun h => ?_⟩ <;>
    (simp (maxDischargeDepth := 40) [State.replayDone, h])
@[simp] theorem State.harvestEnds_tabs (s : State) (f : LineFlaws) : TabsOk (State.harvestEnds s f) s := by
  refine ⟨fun h => ?_, fun h => ?_, fun h => ?_, fun h => ?_, fun h => ?_⟩ <;>
    (unfold State.harvestEnds; dsimp only; (repeat' split) <;> simp +contextual (maxDischargeDepth := 40) [h])
@[simp] theorem State.harvestReq_tabs (s : State) (l : Level) : TabsEq (State.harvestReq s l) s := by
  simp [TabsEq, ChansEq, SrcsEq, CntEq, State.harvestReq]
@[simp] theorem State.commitMark_tabs (s : State) (l : List Byte) (t : Nat) : TabsOk (State.commitMark s l t) s := by
  refine ⟨fun h => ?_, fun h => ?_, fun h => ?_, fun h => ?_, fun h => ?_⟩ <;>
    (simp [State.commitMark, h])
@[simp] theorem State.captureMark_tabs (s : State) (l : List Byte) (t : Nat) : TabsEq (State.captureMark s l t) s :=
    by
  unfold State.captureMark; split <;> simp [TabsEq, ChansEq, SrcsEq, CntEq]
@[simp] theorem State.markRec_tabs (s : State) (l : List Byte) (t : Nat) : TabsOk (State.markRec s l t) s := by
  refine ⟨fun h => ?_, fun h => ?_, fun h => ?_, fun h => ?_, fun h => ?_⟩ <;>
    (unfold State.markRec; split <;> simp [h])
@[simp] theorem State.recAppend_tabs (s : State) : TabsOk (State.recAppend s) s := by
  refine ⟨fun h => ?_, fun h => ?_, fun h => ?_, fun h => ?_, fun h => ?_⟩ <;>
    (unfold State.recAppend; (repeat' split) <;> simp (maxDischargeDepth := 40) [h])
@[simp] theorem State.hourPasses_tabs (s : State) : ChansEq (State.hourPasses s) s ∧ SrcsOk (State.hourPasses s) s ∧
    CntOk (State.hourPasses s) s := by
  refine ⟨?_, ?_, ?_, ?_, ?_⟩
  · simp [ChansEq, State.hourPasses]
  · intro h; simp [State.hourPasses, h]
  · intro h; simp [State.hourPasses, h]
  · intro h; simp [State.hourPasses, h]
  · intro h; simp [State.hourPasses, h]
@[simp] theorem State.countPeriod_tabs (s : State) : ChansEq (State.countPeriod s) s ∧ SrcsOk (State.countPeriod s) s
    ∧ CntOk (State.countPeriod s) s := by
  refine ⟨?_, ?_, ?_, ?_, ?_⟩
  · unfold State.countPeriod; split <;> simp [ChansEq]
  · intro h; unfold State.countPeriod; split <;> simp [h]
  · intro h; unfold State.countPeriod; split <;> simp [h]
  · intro h; unfold State.countPeriod; split <;> simp [h]
  · intro h; unfold State.countPeriod; split <;> simp [h]
@[simp] theorem State.jrdLoad_tabs (s : State) (f : LineFlaws) : ChansEq (State.jrdLoad s f) s ∧
    SrcsOk (State.jrdLoad s f) s ∧ CntOk (State.jrdLoad s f) s := by
  have h (l : List (Nat × List Byte)) : ChansEq (l.foldl (fun s x => s.readLine f x.1) s) s ∧
      TabsOk (l.foldl (fun s x => s.readLine f x.1) s) s :=
    ⟨foldl_chans _ (fun t x => by simp) _ _, TabsOk.foldl _ (fun t x => by
      have k := t.readLine_tabs f x.1
      exact ⟨fun h => k.1 ▸ h, k.2⟩) _ _⟩
  have k (t : State) (e : Env) (h : ChansEq t s ∧ TabsOk t s) : ChansEq { t with env := e } s ∧ SrcsOk { t with env := e } s ∧
      CntOk { t with env := e } s := ⟨h.1, h.2.2⟩
  generalize hu : s.jrdLoad f = u
  unfold State.jrdLoad at hu
  extract_lets from_ l bad hit t at hu
  have ht : ChansEq t s ∧ TabsOk t s := h _
  clear_value t hit
  split at hu <;> exact hu ▸ k t _ ht
@[simp] theorem State.jrdSet_tabs (s : State) (seq : Nat) (f : LineFlaws) : ChansEq (State.jrdSet s seq f) s ∧ SrcsOk
    (State.jrdSet s seq f) s ∧ CntOk (State.jrdSet s seq f) s := by
  refine ⟨?_, ?_, ?_, ?_, ?_⟩
  · simp [ChansEq, State.jrdSet]
  · intro h; simp [State.jrdSet, h]
  · intro h; simp [State.jrdSet, h]
  · intro h; simp [State.jrdSet, h]
  · intro h; simp [State.jrdSet, h]
@[simp] theorem State.chunkEnd_tabs (s : State) (i : Nat) : TabsEq (State.chunkEnd s i) s := by
  simp [TabsEq, ChansEq, SrcsEq, CntEq, State.chunkEnd]
@[simp] theorem State.bbxTick_tabs (s : State) : TabsEq (State.bbxTick s) s := by
  simp [TabsEq, ChansEq, SrcsEq, CntEq, State.bbxTick]
@[simp] theorem State.bbxTrig_tabs (s : State) (l : Level) : TabsEq (State.bbxTrig s l) s := by
  simp [TabsEq, ChansEq, SrcsEq, CntEq, State.bbxTrig]
@[simp] theorem State.bbxRelease_tabs (s : State) (l : Level) : ChansEq (State.bbxRelease s l) s ∧ SrcsOk
    (State.bbxRelease s l) s ∧ CntOk (State.bbxRelease s l) s := by
  refine ⟨?_, ?_, ?_, ?_, ?_⟩
  · simp [ChansEq, State.bbxRelease]
  · intro h; simp [State.bbxRelease, h]
  · intro h; simp [State.bbxRelease, h]
  · intro h; simp [State.bbxRelease, h]
  · intro h; simp [State.bbxRelease, h]
@[simp] theorem State.captureWritten_tabs (s : State) : ChansEq (State.captureWritten s) s ∧ SrcsOk
    (State.captureWritten s) s ∧ CntOk (State.captureWritten s) s := by
  refine ⟨?_, ?_, ?_, ?_, ?_⟩
  · unfold State.captureWritten; split <;> simp [ChansEq]
  · intro h; unfold State.captureWritten; split <;> simp [h]
  · intro h; unfold State.captureWritten; split <;> simp [h]
  · intro h; unfold State.captureWritten; split <;> simp [h]
  · intro h; unfold State.captureWritten; split <;> simp [h]
@[simp] theorem State.unwrapStart_tabs (s : State) (l : List Nat) : TabsEq (State.unwrapStart s l) s := by
  simp [TabsEq, ChansEq, SrcsEq, CntEq, State.unwrapStart]
@[simp] theorem State.unwrapAll_tabs (s : State) : TabsEq (State.unwrapAll s) s := by
  simp [TabsEq, ChansEq, SrcsEq, CntEq, State.unwrapAll]
@[simp] theorem State.unwrapOne_tabs (f : LineFlaws) (s : State) (i : Nat) : ChansEq (State.unwrapOne f s i) s ∧
    SrcsOk (State.unwrapOne f s i) s ∧ CntOk (State.unwrapOne f s i) s := by
  refine ⟨?_, ?_, ?_, ?_, ?_⟩
  · simp only [State.unwrapOne]; (repeat' split) <;> simp [ChansEq]
  · intro h; simp only [State.unwrapOne]; (repeat' split) <;> simp [h]
  · intro h; simp only [State.unwrapOne]; (repeat' split) <;> simp [h]
  · intro h; simp only [State.unwrapOne]; (repeat' split) <;> simp [h]
  · intro h; simp only [State.unwrapOne]; (repeat' split) <;> simp [h]
@[simp] theorem State.unwrapEnds_tabs (s : State) (f : LineFlaws) : TabsOk (State.unwrapEnds s f) s := by
  refine ⟨fun h => ?_, fun h => ?_, fun h => ?_, fun h => ?_, fun h => ?_⟩ <;>
    (unfold State.unwrapEnds; dsimp only; (repeat' split) <;> simp +contextual (maxDischargeDepth := 40) [h])
@[simp] theorem State.dbgTo_tabs (s : State) (d : Dbg) : TabsOk (State.dbgTo s d) s := by
  refine ⟨fun h => ?_, fun h => ?_, fun h => ?_, fun h => ?_, fun h => ?_⟩ <;>
    (simp [State.dbgTo, h])
@[simp] theorem State.keyFlush_tabs (s : State) : TabsEq (State.keyFlush s) s := by
  unfold State.keyFlush; split <;> simp [TabsEq, ChansEq, SrcsEq, CntEq]
@[simp] theorem State.lcErase_tabs (s : State) (o : LcReq) : TabsEq (State.lcErase s o) s := by
  unfold State.lcErase; split <;> simp [TabsEq, ChansEq, SrcsEq, CntEq]
@[simp] theorem State.lcReq_tabs (s : State) (o : LcReq) (l : Level) (key win : Nat) (hwStart : Bool) : TabsOk
    (State.lcReq s o l key win hwStart) s := by
  refine ⟨fun h => ?_, fun h => ?_, fun h => ?_, fun h => ?_, fun h => ?_⟩ <;>
    (unfold State.lcReq; split <;> simp [h])
@[simp] theorem State.lcWrite_tabs (s : State) (o : LcReq) (key : BitVec 16) (win : Nat) (hwStart : Bool) : TabsOk
    (State.lcWrite s o key win hwStart) s := by
  refine ⟨fun h => ?_, fun h => ?_, fun h => ?_, fun h => ?_, fun h => ?_⟩ <;>
    (simp [State.lcWrite, h])
@[simp] theorem State.takeFuses_tabs (s : State) (f : Fuses) : TabsEq (State.takeFuses s f) s := by
  simp [TabsEq, ChansEq, SrcsEq, CntEq, State.takeFuses]
@[simp] theorem State.lcEnds_tabs (s : State) (ok : Bool) : TabsOk (State.lcEnds s ok) s := by
  refine ⟨fun h => ?_, fun h => ?_, fun h => ?_, fun h => ?_, fun h => ?_⟩ <;>
    (unfold State.lcEnds; split <;> simp [h])
@[simp] theorem State.keyRefuse_tabs (s : State) (c : Nat) : TabsEq (State.keyRefuse s c) s := by
  simp [TabsEq, ChansEq, SrcsEq, CntEq, State.keyRefuse]
@[simp] theorem State.keyStore_tabs (s : State) (key : List Byte) (a kind index : Nat) : TabsEq (State.keyStore s key
    a kind index) s := by
  simp [TabsEq, ChansEq, SrcsEq, CntEq, State.keyStore]
@[simp] theorem State.skeyInstall_tabs (s : State) (l : Level) (lev : Nat) : TabsEq (State.skeyInstall s l lev) s :=
    by
  unfold State.skeyInstall; (repeat' split) <;> simp [TabsEq, ChansEq, SrcsEq, CntEq]
@[simp] theorem State.pairInstall_tabs (s : State) (l : Level) : TabsEq (State.pairInstall s l) s := by
  unfold State.pairInstall; (repeat' split) <;> simp [TabsEq, ChansEq, SrcsEq, CntEq]
@[simp] theorem State.ckeyInstall_tabs (s : State) (l : Level) (i : Nat) : TabsEq (State.ckeyInstall s l i) s := by
  unfold State.ckeyInstall; (repeat' split) <;> simp [TabsEq, ChansEq, SrcsEq, CntEq]
@[simp] theorem State.ckeyErase_tabs (s : State) (l : Level) (i : Nat) : TabsOk (State.ckeyErase s l i) s := by
  refine ⟨fun h => ?_, fun h => ?_, fun h => ?_, fun h => ?_, fun h => ?_⟩ <;>
    (unfold State.ckeyErase; split <;> simp [h])
@[simp] theorem State.holdRestore_tabs (s : State) (l : Level) (i : Nat) : TabsOk (State.holdRestore s l i) s := by
  refine ⟨fun h => ?_, fun h => ?_, fun h => ?_, fun h => ?_, fun h => ?_⟩ <;>
    (unfold State.holdRestore; split <;> simp [h])
@[simp] theorem State.keyDone_tabs (s : State) : TabsEq (State.keyDone s) s := by
  unfold State.keyDone; split <;> simp [TabsEq, ChansEq, SrcsEq, CntEq]
@[simp] theorem State.tamper_tabs (s : State) (how : Nat) : TabsOk (State.tamper s how) s := by
  refine ⟨fun h => ?_, fun h => ?_, fun h => ?_, fun h => ?_, fun h => ?_⟩ <;>
    (simp [State.tamper, h])
@[simp] theorem State.gpioErr_tabs (s : State) (code p pin : Nat) : TabsEq (State.gpioErr s code p pin) s := by
  simp [TabsEq, ChansEq, SrcsEq, CntEq, State.gpioErr]
@[simp] theorem State.outBits_tabs (s : State) (p bits : Nat) (set : Bool) : TabsEq (State.outBits s p bits set) s :=
    by
  simp [TabsEq, ChansEq, SrcsEq, CntEq, State.outBits]
@[simp] theorem State.outReplay_tabs (s : State) : TabsEq (State.outReplay s) s := by
  simp [TabsEq, ChansEq, SrcsEq, CntEq, State.outReplay]
@[simp] theorem State.gpioDir_tabs (s : State) (p value : Nat) : TabsEq (State.gpioDir s p value) s := by
  simp [TabsEq, ChansEq, SrcsEq, CntEq, State.gpioDir]
@[simp] theorem State.pullPin_tabs (s : State) (p value i : Nat) : TabsEq (State.pullPin s p value i) s := by
  simp [TabsEq, ChansEq, SrcsEq, CntEq, State.pullPin]
@[simp] theorem State.gpioPull_tabs (s : State) (p value : Nat) : TabsEq (State.gpioPull s p value) s := by
  simp [TabsEq, ChansEq, SrcsEq, CntEq, State.gpioPull]
@[simp] theorem State.penBit_tabs (s : State) (value i : Nat) : TabsEq (State.penBit s value i) s := by
  simp [TabsEq, ChansEq, SrcsEq, CntEq, State.penBit]
@[simp] theorem State.gpioPen_tabs (s : State) (value : Nat) : TabsEq (State.gpioPen s value) s := by
  simp [TabsEq, ChansEq, SrcsEq, CntEq, State.gpioPen]
@[simp] theorem State.mirSel_tabs (s : State) (k : Nat) (value : Word) : TabsEq (State.mirSel s k value) s := by
  simp [TabsEq, ChansEq, SrcsEq, CntEq, State.mirSel]
@[simp] theorem State.lockFails_tabs (s : State) (p : Nat) : TabsEq (State.lockFails s p) s := by
  simp [TabsEq, ChansEq, SrcsEq, CntEq, State.lockFails]
@[simp] theorem State.lockTimeout_tabs (s : State) (p : Nat) : TabsEq (State.lockTimeout s p) s := by
  unfold State.lockTimeout; split <;> simp [TabsEq, ChansEq, SrcsEq, CntEq]
@[simp] theorem State.lockPast_tabs (s : State) (p : Nat) : TabsEq (State.lockPast s p) s := by
  unfold State.lockPast; split <;> simp [TabsEq, ChansEq, SrcsEq, CntEq]
@[simp] theorem State.gpioLock_tabs (s : State) (p key mask : Nat) : TabsEq (State.gpioLock s p key mask) s := by
  simp only [State.gpioLock]; (repeat' split) <;> simp [TabsEq, ChansEq, SrcsEq, CntEq]
@[simp] theorem State.pinEdge_tabs (s : State) (p pin : Nat) (level : Bool) : TabsEq (State.pinEdge s p pin level) s
    := by
  simp [TabsEq, ChansEq, SrcsEq, CntEq, State.pinEdge]
@[simp] theorem State.edgeSet_tabs (s : State) (e : Nat × Nat) : TabsEq (State.edgeSet s e) s := by
  simp [TabsEq, ChansEq, SrcsEq, CntEq, State.edgeSet]
@[simp] theorem State.lineTick_tabs (s : State) : TabsEq (State.lineTick s) s := by
  simp [TabsEq, ChansEq, SrcsEq, CntEq, State.lineTick]
@[simp] theorem State.wakePins_tabs (s : State) (levels : Nat) : TabsEq (State.wakePins s levels) s := by
  simp [TabsEq, ChansEq, SrcsEq, CntEq, State.wakePins]
@[simp] theorem State.pwrRefuse_tabs (s : State) (c : Nat) : TabsEq (State.pwrRefuse s c) s := by
  simp [TabsEq, ChansEq, SrcsEq, CntEq, State.pwrRefuse]
@[simp] theorem State.rungTo_tabs (s : State) (r : Rung) : TabsEq (State.rungTo s r) s := by
  simp [TabsEq, ChansEq, SrcsEq, CntEq, State.rungTo]
@[simp] theorem State.pwrReq_tabs (s : State) (r : Rung) (l : Level) : TabsOk (State.pwrReq s r l) s := by
  refine ⟨fun h => ?_, fun h => ?_, fun h => ?_, fun h => ?_, fun h => ?_⟩ <;>
    (unfold State.pwrReq; (repeat' split) <;> simp [h])
@[simp] theorem State.entryTick_tabs (s : State) : TabsOk (State.entryTick s) s := by
  refine ⟨fun h => ?_, fun h => ?_, fun h => ?_, fun h => ?_, fun h => ?_⟩ <;>
    (simp [State.entryTick, h])
@[simp] theorem State.entrySweep_tabs (s : State) : TabsEq (State.entrySweep s) s := by
  simp [TabsEq, ChansEq, SrcsEq, CntEq, State.entrySweep]
@[simp] theorem State.entryStop_tabs (s : State) : TabsEq (State.entryStop s) s := by
  unfold State.entryStop; split <;> simp [TabsEq, ChansEq, SrcsEq, CntEq]
@[simp] theorem State.wakeKept_tabs (s : State) : TabsEq (State.wakeKept s) s := by
  unfold State.wakeKept; split <;> simp [TabsEq, ChansEq, SrcsEq, CntEq]
@[simp] theorem State.winMid_tabs (s : State) : TabsEq (State.winMid s) s := by
  simp [TabsEq, ChansEq, SrcsEq, CntEq, State.winMid]
@[simp] theorem State.wakeTimer_tabs (s : State) : TabsEq (State.wakeTimer s) s := by
  simp [TabsEq, ChansEq, SrcsEq, CntEq, State.wakeTimer]
@[simp] theorem State.casRetrain_tabs (s : State) : TabsEq (State.casRetrain s) s := by
  simp [TabsEq, ChansEq, SrcsEq, CntEq, State.casRetrain]
@[simp] theorem State.exitDone_tabs (s : State) : TabsOk (State.exitDone s) s := by
  refine ⟨fun h => ?_, fun h => ?_, fun h => ?_, fun h => ?_, fun h => ?_⟩ <;>
    (simp only [State.exitDone]; (repeat' split) <;> simp (maxDischargeDepth := 40) [h])
@[simp] theorem State.overtemp_tabs (s : State) : TabsOk (State.overtemp s) s := by
  refine ⟨fun h => ?_, fun h => ?_, fun h => ?_, fun h => ?_, fun h => ?_⟩ <;>
    (simp [State.overtemp, h])

end Sys2Proof.Machine
end

