-- ==== Sys2Proof/Laws/TabsSystem.lean ====
section
/-! SUPPORT. What counters, reads, resets, image and load do to the tables (Tables.lean). -/

open Sys2Proof

namespace Sys2Proof.Machine

@[simp] theorem State.cntCapture_tabs (s : State) (src t : Nat) : TabsEq (State.cntCapture s src t) s := by
  simp [TabsEq, ChansEq, SrcsEq, CntEq, State.cntCapture]
@[simp] theorem Cnt.dropSnap_tabs (c : Cnt) (now : Nat) : (Cnt.dropSnap c now).leaf = c.leaf ∧ (Cnt.dropSnap c
    now).isl = c.isl ∧ (Cnt.dropSnap c now).dev = c.dev := by
  simp [Cnt.dropSnap]
@[simp] theorem State.cntSnapBy_tabs (s : State) (t : Nat) : TabsEq (State.cntSnapBy s t) s := by
  unfold State.cntSnapBy; split <;> simp [TabsEq, ChansEq, SrcsEq, CntEq]
@[simp] theorem State.cntSnapCapture_tabs (s : State) : TabsEq (State.cntSnapCapture s) s := by
  simp [TabsEq, ChansEq, SrcsEq, CntEq, State.cntSnapCapture]
@[simp] theorem State.cntDeliver_tabs (s : State) : TabsEq (State.cntDeliver s) s := by
  unfold State.cntDeliver; split <;> simp [TabsEq, ChansEq, SrcsEq, CntEq]
@[simp] theorem Cnt.freeze_tabs (c : Cnt) (on off : Bool) : (NatsWf c.leaf → NatsWf (Cnt.freeze c on off).leaf) ∧
    (NatsWf c.isl → NatsWf (Cnt.freeze c on off).isl) ∧ (NatsWf c.dev → NatsWf (Cnt.freeze c on off).dev) := by
  refine ⟨fun h => ?_, fun h => ?_, fun h => ?_⟩ <;>
    (unfold Cnt.freeze; (repeat' split) <;> first | exact h | skip)
  · exact Cnt.foldr_leaf _ _ _ h fun x c h => by simp [h]
  · exact Cnt.foldr_isl _ _ _ h fun x c h => by simp [h]
  · exact Cnt.foldr_dev _ _ _ h fun x c h => by simp [h]
@[simp] theorem State.cntCtrl_tabs (s : State) (w : Word) : ChansEq (State.cntCtrl s w) s ∧ SrcsEq (State.cntCtrl s w)
    s ∧ CntOk (State.cntCtrl s w) s := by
  refine ⟨?_, ?_, ?_, ?_, ?_⟩
  · simp [ChansEq, State.cntCtrl]
  · simp [SrcsEq, State.cntCtrl]
  · intro h; simp [State.cntCtrl, h]
  · intro h; simp [State.cntCtrl, h]
  · intro h; simp [State.cntCtrl, h]
@[simp] theorem State.leafLo_tabs (s : State) (w : Word) : TabsEq (State.leafLo s w) s := by
  simp [TabsEq, ChansEq, SrcsEq, CntEq, State.leafLo]
@[simp] theorem State.leafHi_tabs (s : State) (k : Nat) (w : Word) : ChansEq (State.leafHi s k w) s ∧ SrcsEq
    (State.leafHi s k w) s ∧ CntOk (State.leafHi s k w) s := by
  refine ⟨?_, ?_, ?_, ?_, ?_⟩
  · simp [ChansEq, State.leafHi]
  · simp [SrcsEq, State.leafHi]
  · intro h; simp [State.leafHi, h]
  · intro h; simp [State.leafHi, h]
  · intro h; simp [State.leafHi, h]
@[simp] theorem Cnt.spoil_tabs (c : Cnt) (x : CntSpot) : (NatsWf c.leaf → NatsWf (c.spoil x).leaf) ∧
    (NatsWf c.isl → NatsWf (c.spoil x).isl) ∧ (NatsWf c.dev → NatsWf (c.spoil x).dev) := by
  refine ⟨fun h => ?_, fun h => ?_, fun h => ?_⟩ <;> cases x <;> simp [Cnt.spoil, h]
@[simp] theorem State.spoil_tabs (s : State) (x : CntSpot) : ReadOk (State.spoil s x) s := by
  unfold State.spoil
  split
  · exact ReadOk.rfl' s
  · refine ⟨?_, fun h => ?_, fun h => ?_, fun h => ?_, fun h => ?_⟩
    · simp [ChansEq]
    all_goals simp [h]
@[simp] theorem State.cntScrub_tabs (s : State) (isl : Nat) (single double : List CntSpot) : TabsOk (State.cntScrub s
    isl single double) s := by
  refine ⟨fun h => ?_, fun h => ?_, fun h => ?_, fun h => ?_, fun h => ?_⟩ <;>
    (simp +contextual (maxDischargeDepth := 40) [State.cntScrub, h])
@[simp] theorem State.tpRoll_tabs (s : State) (p : Nat) : TabsEq (State.tpRoll s p) s := by
  simp [TabsEq, ChansEq, SrcsEq, CntEq, State.tpRoll]
@[simp] theorem State.viewAccept_tabs (s : State) (t : Nat) (cnt eqx : Bool) : TabsEq (State.viewAccept s t cnt eqx) s
    := by
  simp [TabsEq, ChansEq, SrcsEq, CntEq, State.viewAccept]
@[simp] theorem State.viewGo_tabs (s : State) (cnt mode : Bool) : TabsEq (State.viewGo s cnt mode) s := by
  unfold State.viewGo; split <;> simp [TabsEq, ChansEq, SrcsEq, CntEq]
@[simp] theorem State.viewReq_tabs (s : State) (cnt mode : Bool) : TabsEq (State.viewReq s cnt mode) s := by
  simp [TabsEq, ChansEq, SrcsEq, CntEq, State.viewReq]
@[simp] theorem State.viewTakeBy_tabs (s : State) (t : Nat) : TabsEq (State.viewTakeBy s t) s := by
  unfold State.viewTakeBy; split <;> simp [TabsEq, ChansEq, SrcsEq, CntEq]
@[simp] theorem State.viewTake_tabs (s : State) : TabsEq (State.viewTake s) s := by
  simp [TabsEq, ChansEq, SrcsEq, CntEq, State.viewTake]
@[simp] theorem State.recapture_tabs (s : State) : TabsEq (State.recapture s) s := by
  simp only [State.recapture]; (repeat' split) <;> simp [TabsEq, ChansEq, SrcsEq, CntEq]
@[simp] theorem State.drainJudge_tabs (s : State) : TabsOk (State.drainJudge s) s := by
  refine ⟨fun h => ?_, fun h => ?_, fun h => ?_, fun h => ?_, fun h => ?_⟩ <;>
    (simp [State.drainJudge, h])
@[simp] theorem State.rounds_tabs (fuel : Nat) (s : State) : TabsOk (State.rounds fuel s) s := by
  induction fuel generalizing s with
  | zero => exact TabsOk.rfl' s
  | succ n ih =>
    unfold State.rounds
    split
    · exact TabsOk.rfl' s
    · refine (ih _).trans' ?_
      refine ⟨fun h => ?_, fun h => ?_, fun h => ?_, fun h => ?_, fun h => ?_⟩ <;> simp [h]
@[simp] theorem State.judgeTick_tabs (s : State) : TabsOk (State.judgeTick s) s := by
  refine ⟨fun h => ?_, fun h => ?_, fun h => ?_, fun h => ?_, fun h => ?_⟩ <;>
    (simp (maxDischargeDepth := 40) [State.judgeTick, h])
@[simp] theorem State.viewEnd_tabs (s : State) : TabsEq (State.viewEnd s) s := by
  unfold State.viewEnd; split <;> simp [TabsEq, ChansEq, SrcsEq, CntEq]
@[simp] theorem State.raiseOrDefer_tabs (s : State) (i : Nat) : TabsOk (State.raiseOrDefer s i) s := by
  refine ⟨fun h => ?_, fun h => ?_, fun h => ?_, fun h => ?_, fun h => ?_⟩ <;>
    (simp [State.raiseOrDefer, h])
@[simp] theorem State.loseIsl_tabs (s : State) (i : Nat) : TabsOk (State.loseIsl s i) s := by
  refine ⟨fun h => ?_, fun h => ?_, fun h => ?_, fun h => ?_, fun h => ?_⟩ <;>
    (simp [State.loseIsl, h])
@[simp] theorem State.fullValue_tabs (s : State) (i : Nat) (slip : Int) : TabsOk (State.fullValue s i slip) s := by
  refine ⟨fun h => ?_, fun h => ?_, fun h => ?_, fun h => ?_, fun h => ?_⟩ <;>
    (simp [State.fullValue, h])
@[simp] theorem State.devReset_tabs (s : State) (cause : Nat) : TabsOk (State.devReset s cause) s :=
  ⟨fun h => ChansWf_tmap _ _ _ rfl h, fun _ => SrcsWf_nil, fun _ => NatsWf_nil, fun _ => NatsWf_nil, fun _ => NatsWf_nil⟩
@[simp] theorem State.powerOn_tabs (s : State) : TabsOk (State.powerOn s) s :=
  ⟨fun h => ChansWf_tmap _ _ _ rfl h, fun _ => SrcsWf_nil, fun _ => NatsWf_nil, fun _ => NatsWf_nil, fun _ => NatsWf_nil⟩
@[simp] theorem State.vauxFalls_tabs (s : State) : TabsOk (State.vauxFalls s) s := by
  refine ⟨fun h => ?_, fun h => ?_, fun h => ?_, fun h => ?_, fun h => ?_⟩ <;>
    (simp [State.vauxFalls, h])
@[simp] theorem State.orderly_tabs (s : State) (cause : Nat) : TabsOk (State.orderly s cause) s := by
  refine ⟨fun h => ?_, fun h => ?_, fun h => ?_, fun h => ?_, fun h => ?_⟩ <;>
    (simp (maxDischargeDepth := 40) [State.orderly, h])
@[simp] theorem State.resetActs_tabs (s : State) : TabsOk (State.resetActs s) s := by
  refine ⟨fun h => ?_, fun h => ?_, fun h => ?_, fun h => ?_, fun h => ?_⟩ <;>
    (unfold State.resetActs; split <;> simp [h])
@[simp] theorem State.softReq_tabs (s : State) (l : Level) (key : Nat) : TabsEq (State.softReq s l key) s := by
  simp [TabsEq, ChansEq, SrcsEq, CntEq, State.softReq]
@[simp] theorem State.softActs_tabs (s : State) (csRise : Bool) : TabsOk (State.softActs s csRise) s := by
  refine ⟨fun h => ?_, fun h => ?_, fun h => ?_, fun h => ?_, fun h => ?_⟩ <;>
    (unfold State.softActs; split <;> simp [h])
@[simp] theorem State.fuseRead_tabs (s : State) (badA badB : BitVec 8) (strap : Bool) : TabsEq (State.fuseRead s badA
    badB strap) s := by
  simp [TabsEq, ChansEq, SrcsEq, CntEq, State.fuseRead]
@[simp] theorem State.s2Ends_tabs (s : State) (vio33 : Bool) : TabsOk (State.s2Ends s vio33) s := by
  refine ⟨fun h => ?_, fun h => ?_, fun h => ?_, fun h => ?_, fun h => ?_⟩ <;>
    (simp only [State.s2Ends]; (repeat' split) <;> simp [h])
@[simp] theorem State.loadPinmap_tabs (s : State) (m : Img) (b : Nat) : ChansOk (State.loadPinmap s m b) s ∧ SrcsEq
    (State.loadPinmap s m b) s ∧ CntEq (State.loadPinmap s m b) s := by
  refine ⟨?_, ?_, ?_⟩
  · intro h; simp [State.loadPinmap, h]
  · simp [SrcsEq, State.loadPinmap]
  · simp [CntEq, State.loadPinmap]
@[simp] theorem State.loadRails_tabs (s : State) (m : Img) (b : Nat) : ChansOk (State.loadRails s m b) s ∧
    SrcsEq (State.loadRails s m b) s ∧ CntEq (State.loadRails s m b) s :=
  ⟨fun h => ChansWf_foldl _ _ _ h fun _ _ h => ChansWf_tmod _ _ _ _ rfl h, rfl, rfl, rfl, rfl⟩
@[simp] theorem State.loadGraph_tabs (s : State) (m : Img) (b : Nat) : ChansOk (State.loadGraph s m b) s ∧
    SrcsEq (State.loadGraph s m b) s ∧ CntEq (State.loadGraph s m b) s :=
  ⟨fun h => ChansWf_foldl _ _ _ h fun _ _ h => ChansWf_tmod _ _ _ _ rfl h, rfl, rfl, rfl, rfl⟩
@[simp] theorem State.loadThresh_tabs (s : State) (m : Img) (b : Nat) (put : Chan → Thr → Chan) :
    ChansOk (State.loadThresh s m b put) s ∧ SrcsEq (State.loadThresh s m b put) s ∧
      CntEq (State.loadThresh s m b put) s := by
  refine ⟨fun h => ?_, rfl, rfl, rfl, rfl⟩
  unfold State.loadThresh
  dsimp only
  apply ChansWf_tmod
  · rfl
  · refine ChansWf_foldl _ _ _ h fun t e h => ?_
    apply ChansWf_tmod
    · rfl
    · exact h
@[simp] theorem State.loadReact_tabs (s : State) (m : Img) (b : Nat) : TabsEq (State.loadReact s m b) s := by
  simp [TabsEq, ChansEq, SrcsEq, CntEq, State.loadReact]
@[simp] theorem State.loadWdg_tabs (s : State) (m : Img) (b : Nat) : TabsEq (State.loadWdg s m b) s := by
  simp [TabsEq, ChansEq, SrcsEq, CntEq, State.loadWdg]
@[simp] theorem State.loadLadder_tabs (s : State) (m : Img) (b : Nat) : TabsEq (State.loadLadder s m b) s := by
  simp [TabsEq, ChansEq, SrcsEq, CntEq, State.loadLadder]
@[simp] theorem State.loadCascade_tabs (s : State) (m : Img) (b : Nat) : TabsEq (State.loadCascade s m b) s := by
  simp [TabsEq, ChansEq, SrcsEq, CntEq, State.loadCascade]
@[simp] theorem State.loadCounters_tabs (s : State) (m : Img) (b : Nat) (was : List Nat) :
    ChansEq (State.loadCounters s m b was) s ∧ SrcsEq (State.loadCounters s m b was) s ∧
      CntOk (State.loadCounters s m b was) s :=
  ⟨rfl, rfl, fun h => NatsWf_foldl _ _ _ h fun _ _ h => NatsWf_tset _ _ _ h, id, id⟩
@[simp] theorem State.loadKeys_tabs (s : State) (m : Img) (b : Nat) : TabsEq (State.loadKeys s m b) s := by
  simp [TabsEq, ChansEq, SrcsEq, CntEq, State.loadKeys]
@[simp] theorem State.loadSec_tabs (m : Img) (was : List Nat) (put : Chan → Thr → Chan) (s : State) (x : Sec369) :
    ChansOk (State.loadSec m was put s x) s ∧ SrcsEq (State.loadSec m was put s x) s ∧ CntOk (State.loadSec m was put
    s x) s := by
  refine ⟨?_, ?_, ?_, ?_, ?_⟩
  · intro h; unfold State.loadSec; split <;> simp [h]
  · unfold State.loadSec; split <;> simp [SrcsEq]
  · intro h; unfold State.loadSec; split <;> simp [h]
  · intro h; unfold State.loadSec; split <;> simp [h]
  · intro h; unfold State.loadSec; split <;> simp [h]
@[simp] theorem State.loadSecs_tabs (s : State) (m : Img) (put : Chan → Thr → Chan) : ChansOk (State.loadSecs s m put)
    s ∧ SrcsEq (State.loadSecs s m put) s ∧ CntOk (State.loadSecs s m put) s := by
  refine ⟨?_, ?_, ?_, ?_, ?_⟩
  · intro h; simp +contextual [State.loadSecs, h]
  · simp [SrcsEq, State.loadSecs]
  · intro h; simp +contextual [State.loadSecs, h]
  · intro h; simp +contextual [State.loadSecs, h]
  · intro h; simp +contextual [State.loadSecs, h]
@[simp] theorem State.readImg_tabs (s : State) (f : LineFlaws) (early : Bool) (a : Nat) : ChansEq (State.readImg s f
    early a) s ∧ SrcsOk (State.readImg s f early a) s ∧ CntOk (State.readImg s f early a) s := by
  refine ⟨?_, ?_, ?_, ?_, ?_⟩
  · simp [ChansEq, State.readImg]
  · intro h; simp [State.readImg, h]
  · intro h; simp [State.readImg, h]
  · intro h; simp [State.readImg, h]
  · intro h; simp [State.readImg, h]
@[simp] theorem State.reject_tabs (s : State) (r : Rej) (early : Bool) : ChansEq (State.reject s r early) s ∧ SrcsOk
    (State.reject s r early) s ∧ CntOk (State.reject s r early) s := by
  refine ⟨?_, ?_, ?_, ?_, ?_⟩
  · simp [ChansEq, State.reject]
  · intro h; simp [State.reject, h]
  · intro h; simp [State.reject, h]
  · intro h; simp [State.reject, h]
  · intro h; simp [State.reject, h]
@[simp] theorem State.rejectSlot_tabs (s : State) (k : Nat) (r : Rej) (early : Bool) : ChansEq (State.rejectSlot s k r
    early) s ∧ SrcsOk (State.rejectSlot s k r early) s ∧ CntOk (State.rejectSlot s k r early) s := by
  refine ⟨?_, ?_, ?_, ?_, ?_⟩
  · simp [ChansEq, State.rejectSlot]
  · intro h; simp [State.rejectSlot, h]
  · intro h; simp [State.rejectSlot, h]
  · intro h; simp [State.rejectSlot, h]
  · intro h; simp [State.rejectSlot, h]
theorem State.tryHead_tabs (f : LineFlaws) (early : Bool) (a : State × List Nat) (k : Nat) :
    ReadOk (State.tryHead f early a k).1 a.1 := by
  unfold State.tryHead
  dsimp only
  split
  · exact ReadOk.trans' (State.rejectSlot_tabs _ _ _ _) (State.readImg_tabs _ _ _ _)
  · exact State.readImg_tabs _ _ _ _
@[simp] theorem State.trySlots_tabs (f : LineFlaws) (early : Bool) (l : List Nat) (s : State) :
    ReadOk (State.trySlots f early l s).1 s := by
  induction l generalizing s with
  | nil => exact ReadOk.rfl' s
  | cons k r ih =>
    have h (q : List Nat) : ReadOk (q.foldl (fun s a => s.readImg f early a) s) s :=
      foldl_of ReadOk ReadOk.rfl' ReadOk.trans' _ (fun t a => State.readImg_tabs t f early a) q s
    unfold State.trySlots
    dsimp only
    split
    · exact (ih _).trans' (ReadOk.trans' (State.rejectSlot_tabs _ _ _ _) (h _))
    · split <;> exact h _
@[simp] theorem State.chooseSlot_tabs (s : State) (f : LineFlaws) (early : Bool) (l : List Nat) :
    ReadOk (State.chooseSlot s f early l).1 s :=
  ReadOk.trans' (State.trySlots_tabs _ _ _ _)
    (foldl_fst _ ReadOk ReadOk.rfl' (fun _ _ _ => ReadOk.trans') (fun a k => State.tryHead_tabs f early a k) l (s, []))
@[simp] theorem State.describe_tabs (s : State) (m : Img) (k : Nat) : TabsEq (State.describe s m k) s := by
  simp [TabsEq, ChansEq, SrcsEq, CntEq, State.describe]
@[simp] theorem State.loadImg_tabs (s : State) (k : Nat) : ChansOk (State.loadImg s k) s ∧ SrcsEq (State.loadImg s k)
    s ∧ CntOk (State.loadImg s k) s := by
  refine ⟨?_, ?_, ?_, ?_, ?_⟩
  · intro h; simp [State.loadImg, h]
  · simp [SrcsEq, State.loadImg]
  · intro h; simp [State.loadImg, h]
  · intro h; simp [State.loadImg, h]
  · intro h; simp [State.loadImg, h]
@[simp] theorem State.recorders_tabs (s : State) : TabsEq (State.recorders s) s := by
  simp [TabsEq, ChansEq, SrcsEq, CntEq, State.recorders]
@[simp] theorem State.readPair_tabs (s : State) : TabsEq (State.readPair s) s := by
  unfold State.readPair; split <;> simp [TabsEq, ChansEq, SrcsEq, CntEq]
@[simp] theorem State.epochStart_tabs (s : State) : TabsEq (State.epochStart s) s := by
  simp [TabsEq, ChansEq, SrcsEq, CntEq, State.epochStart]
@[simp] theorem State.firstLoad_tabs (s : State) : TabsEq (State.firstLoad s) s := by
  simp [TabsEq, ChansEq, SrcsEq, CntEq, State.firstLoad]
@[simp] theorem State.pmbSetup_tabs (s : State) : TabsEq (State.pmbSetup s) s := by
  simp [TabsEq, ChansEq, SrcsEq, CntEq, State.pmbSetup]
@[simp] theorem State.casSubs_tabs (s : State) : TabsEq (State.casSubs s) s := by
  simp [TabsEq, ChansEq, SrcsEq, CntEq, State.casSubs]
@[simp] theorem State.casDrop_tabs (s : State) : TabsEq (State.casDrop s) s := by
  simp [TabsEq, ChansEq, SrcsEq, CntEq, State.casDrop]
@[simp] theorem State.orphaned_tabs (s : State) : TabsEq (State.orphaned s) s := by
  simp [TabsEq, ChansEq, SrcsEq, CntEq, State.orphaned]
@[simp] theorem State.parkPins_tabs (s old : State) (all : Bool) : TabsEq (State.parkPins s old all) s := by
  simp [TabsEq, ChansEq, SrcsEq, CntEq, State.parkPins]
@[simp] theorem State.configure_tabs (s old : State) (all : Bool) : TabsOk (State.configure s old all) s := by
  refine ⟨fun h => ?_, fun h => ?_, fun h => ?_, fun h => ?_, fun h => ?_⟩ <;>
    (simp +contextual (maxDischargeDepth := 40) [State.configure, h])
@[simp] theorem State.enterReady_tabs (s : State) : TabsOk (State.enterReady s) s := by
  refine ⟨fun h => ?_, fun h => ?_, fun h => ?_, fun h => ?_, fun h => ?_⟩ <;>
    (simp (maxDischargeDepth := 40) [State.enterReady, h])
@[simp] theorem State.enterRecovery_tabs (s : State) : TabsOk (State.enterRecovery s) s := by
  refine ⟨fun h => ?_, fun h => ?_, fun h => ?_, fun h => ?_, fun h => ?_⟩ <;>
    (simp [State.enterRecovery, h])
@[simp] theorem State.slotChoice_tabs (s : State) (f : LineFlaws) : TabsOk (State.slotChoice s f) s := by
  refine ⟨fun h => ?_, fun h => ?_, fun h => ?_, fun h => ?_, fun h => ?_⟩ <;>
    (simp only [State.slotChoice]; (repeat' split) <;> simp [h])
@[simp] theorem State.s5Ends_tabs (s : State) : TabsOk (State.s5Ends s) s := by
  refine ⟨fun h => ?_, fun h => ?_, fun h => ?_, fun h => ?_, fun h => ?_⟩ <;>
    (simp [State.s5Ends, h])
@[simp] theorem State.cfgRefuse_tabs (s : State) (c : Nat) : TabsEq (State.cfgRefuse s c) s := by
  simp [TabsEq, ChansEq, SrcsEq, CntEq, State.cfgRefuse]
@[simp] theorem State.loadReq_tabs (s : State) (l : Level) (force : Nat) (both : Bool) : TabsEq (State.loadReq s l
    force both) s := by
  unfold State.loadReq; split <;> simp [TabsEq, ChansEq, SrcsEq, CntEq]
@[simp] theorem State.loadPins_tabs (s : State) (k : Nat) : ChansOk (State.loadPins s k) s ∧ SrcsEq (State.loadPins s
    k) s ∧ CntEq (State.loadPins s k) s := by
  refine ⟨?_, ?_, ?_⟩
  · intro h; simp [State.loadPins, h]
  · simp [SrcsEq, State.loadPins]
  · simp [CntEq, State.loadPins]
@[simp] theorem State.reloadS5_tabs (s : State) (k : Nat) : TabsOk (State.reloadS5 s k) s := by
  refine ⟨fun h => ?_, fun h => ?_, fun h => ?_, fun h => ?_, fun h => ?_⟩ <;>
    (simp [State.reloadS5, h])
@[simp] theorem State.reloadOk_tabs (s : State) : TabsOk (State.reloadOk s) s := by
  refine ⟨fun h => ?_, fun h => ?_, fun h => ?_, fun h => ?_, fun h => ?_⟩ <;>
    (simp (maxDischargeDepth := 40) [State.reloadOk, h])
@[simp] theorem State.reloadFails_tabs (s : State) : TabsOk (State.reloadFails s) s := by
  refine ⟨fun h => ?_, fun h => ?_, fun h => ?_, fun h => ?_, fun h => ?_⟩ <;>
    (simp [State.reloadFails, h])
@[simp] theorem State.reloadReady_tabs (s : State) : TabsOk (State.reloadReady s) s := by
  refine ⟨fun h => ?_, fun h => ?_, fun h => ?_, fun h => ?_, fun h => ?_⟩ <;>
    (simp [State.reloadReady, h])
@[simp] theorem State.reloadEnds_tabs (s : State) (f : LineFlaws) : TabsOk (State.reloadEnds s f) s := by
  refine ⟨fun h => ?_, fun h => ?_, fun h => ?_, fun h => ?_, fun h => ?_⟩ <;>
    (simp only [State.reloadEnds]; (repeat' split) <;> simp [h])
@[simp] theorem State.applyReq_tabs (s : State) (l : Level) (both : Bool) : TabsEq (State.applyReq s l both) s := by
  unfold State.applyReq; split <;> simp [TabsEq, ChansEq, SrcsEq, CntEq]
@[simp] theorem State.rebaseMoved_tabs (s old : State) : ChansEq (State.rebaseMoved s old) s ∧ SrcsOk
    (State.rebaseMoved s old) s ∧ CntEq (State.rebaseMoved s old) s := by
  refine ⟨?_, ?_, ?_⟩
  · simp [ChansEq, State.rebaseMoved]
  · intro h; simp [State.rebaseMoved, h]
  · simp [CntEq, State.rebaseMoved]
@[simp] theorem State.rtTake_tabs (s : State) (m : Img) : TabsOk (State.rtTake s m) s := by
  refine ⟨fun h => ?_, fun h => ?_, fun h => ?_, fun h => ?_, fun h => ?_⟩ <;>
    (simp [State.rtTake, h])
@[simp] theorem State.rtTick_tabs (s : State) : TabsOk (State.rtTick s) s := by
  refine ⟨fun h => ?_, fun h => ?_, fun h => ?_, fun h => ?_, fun h => ?_⟩ <;>
    (unfold State.rtTick; dsimp only; (repeat' split) <;> simp +contextual (maxDischargeDepth := 40) [h])
@[simp] theorem State.campTick_tabs (s : State) : TabsEq (State.campTick s) s := by
  simp [TabsEq, ChansEq, SrcsEq, CntEq, State.campTick]
@[simp] theorem State.rtEnds_tabs (s : State) (f : LineFlaws) : TabsOk (State.rtEnds s f) s := by
  refine ⟨fun h => ?_, fun h => ?_, fun h => ?_, fun h => ?_, fun h => ?_⟩ <;>
    (unfold State.rtEnds; dsimp only; (repeat' split) <;> simp +contextual (maxDischargeDepth := 40) [h])
@[simp] theorem State.endWork_tabs (s : State) : TabsOk (State.endWork s) s := by
  refine ⟨fun h => ?_, fun h => ?_, fun h => ?_, fun h => ?_, fun h => ?_⟩ <;>
    (simp (maxDischargeDepth := 40) [State.endWork, h])
@[simp] theorem State.countTick_tabs (s : State) : TabsEq (State.countTick s) s := by
  simp [TabsEq, ChansEq, SrcsEq, CntEq, State.countTick]
@[simp] theorem State.endTick_tabs (s : State) : TabsOk (State.endTick s) s := by
  refine ⟨fun h => ?_, fun h => ?_, fun h => ?_, fun h => ?_, fun h => ?_⟩ <;>
    (simp [State.endTick, h])
@[simp] theorem idle_tabs (s : State) : TabsOk (idle s) s := by
  refine ⟨fun h => ?_, fun h => ?_, fun h => ?_, fun h => ?_, fun h => ?_⟩ <;>
    (simp [idle, h])

end Sys2Proof.Machine
end

