-- ==== Sys2Proof/Laws/TabsPorts.lean ====
section
/-! SUPPORT. What the cascade, registers, frames and debug do to the tables (Tables.lean). -/

open Sys2Proof

namespace Sys2Proof.Machine

@[simp] theorem State.shift_tabs (s : State) (e : Nat) : ChansOk (State.shift s e) s ∧ SrcsOk (State.shift s e) s ∧
    CntEq (State.shift s e) s := by
  refine ⟨?_, ?_, ?_⟩
  · intro h; simp [State.shift, h]
  · intro h; simp [State.shift, h]
  · simp [CntEq, State.shift]
@[simp] theorem State.modPortC_tabs (s : State) (p : Nat) (f : CasPort → CasPort) : TabsEq (State.modPortC s p f) s :=
    by
  simp [TabsEq, ChansEq, SrcsEq, CntEq, State.modPortC]
@[simp] theorem State.portDown_tabs (s : State) (p : Nat) : TabsOk (State.portDown s p) s := by
  refine ⟨fun h => ?_, fun h => ?_, fun h => ?_, fun h => ?_, fun h => ?_⟩ <;>
    (simp (maxDischargeDepth := 40) [State.portDown, h])
@[simp] theorem State.casAck_tabs (s : State) (p l : Nat) : TabsOk (State.casAck s p l) s := by
  refine ⟨fun h => ?_, fun h => ?_, fun h => ?_, fun h => ?_, fun h => ?_⟩ <;>
    (simp [State.casAck, h])
@[simp] theorem State.casNak_tabs (s : State) (p l : Nat) : TabsOk (State.casNak s p l) s := by
  refine ⟨fun h => ?_, fun h => ?_, fun h => ?_, fun h => ?_, fun h => ?_⟩ <;>
    (unfold State.casNak; (repeat' split) <;> simp [h])
@[simp] theorem State.frameBad_tabs (s : State) (p why l : Nat) : TabsOk (State.frameBad s p why l) s := by
  refine ⟨fun h => ?_, fun h => ?_, fun h => ?_, fun h => ?_, fun h => ?_⟩ <;>
    (simp [State.frameBad, h])
@[simp] theorem State.rxFrame_chans (s : State) (p l : Nat) (fr : CasFrame) (f : State → State) (h : ChansWf s.chans)
    (hf : ∀ t, ChansWf t.chans → ChansWf (f t).chans) : ChansWf (State.rxFrame s p l fr f).chans := by
  unfold State.rxFrame; split
  · exact h
  · exact hf _ (by simp [h])
@[simp] theorem State.rxFrame_srcs (s : State) (p l : Nat) (fr : CasFrame) (f : State → State) (h : SrcsWf s.flt.srcs)
    (hf : ∀ t, SrcsWf t.flt.srcs → SrcsWf (f t).flt.srcs) : SrcsWf (State.rxFrame s p l fr f).flt.srcs := by
  unfold State.rxFrame; split
  · exact h
  · exact hf _ (by simp [h])
@[simp] theorem State.rxFrame_leaf (s : State) (p l : Nat) (fr : CasFrame) (f : State → State) (h : NatsWf s.cnt.leaf)
    (hf : ∀ t, NatsWf t.cnt.leaf → NatsWf (f t).cnt.leaf) : NatsWf (State.rxFrame s p l fr f).cnt.leaf := by
  unfold State.rxFrame; split
  · exact h
  · exact hf _ (by simp [h])
@[simp] theorem State.rxFrame_isl (s : State) (p l : Nat) (fr : CasFrame) (f : State → State) (h : NatsWf s.cnt.isl)
    (hf : ∀ t, NatsWf t.cnt.isl → NatsWf (f t).cnt.isl) : NatsWf (State.rxFrame s p l fr f).cnt.isl := by
  unfold State.rxFrame; split
  · exact h
  · exact hf _ (by simp [h])
@[simp] theorem State.rxFrame_dev (s : State) (p l : Nat) (fr : CasFrame) (f : State → State) (h : NatsWf s.cnt.dev)
    (hf : ∀ t, NatsWf t.cnt.dev → NatsWf (f t).cnt.dev) : NatsWf (State.rxFrame s p l fr f).cnt.dev := by
  unfold State.rxFrame; split
  · exact h
  · exact hf _ (by simp [h])
@[simp] theorem State.rxFrame_chansEq (s : State) (p l : Nat) (fr : CasFrame) (f : State → State) (hf : ∀ t, (f
    t).chans = t.chans) : (State.rxFrame s p l fr f).chans = s.chans := by
  unfold State.rxFrame; split
  · rfl
  · exact (hf _).trans (by simp)
@[simp] theorem State.rxFrame_srcsEq (s : State) (p l : Nat) (fr : CasFrame) (f : State → State) (hf : ∀ t, (f
    t).flt.srcs = t.flt.srcs) : (State.rxFrame s p l fr f).flt.srcs = s.flt.srcs := by
  unfold State.rxFrame; split
  · rfl
  · exact (hf _).trans (by simp)
@[simp] theorem State.rxFrame_leafEq (s : State) (p l : Nat) (fr : CasFrame) (f : State → State) (hf : ∀ t, (f
    t).cnt.leaf = t.cnt.leaf) : (State.rxFrame s p l fr f).cnt.leaf = s.cnt.leaf := by
  unfold State.rxFrame; split
  · rfl
  · exact (hf _).trans (by simp)
@[simp] theorem State.rxFrame_islEq (s : State) (p l : Nat) (fr : CasFrame) (f : State → State) (hf : ∀ t, (f
    t).cnt.isl = t.cnt.isl) : (State.rxFrame s p l fr f).cnt.isl = s.cnt.isl := by
  unfold State.rxFrame; split
  · rfl
  · exact (hf _).trans (by simp)
@[simp] theorem State.rxFrame_devEq (s : State) (p l : Nat) (fr : CasFrame) (f : State → State) (hf : ∀ t, (f
    t).cnt.dev = t.cnt.dev) : (State.rxFrame s p l fr f).cnt.dev = s.cnt.dev := by
  unfold State.rxFrame; split
  · rfl
  · exact (hf _).trans (by simp)
@[simp] theorem State.acts_chans (s : State) (act : State → State) (h : ChansWf s.chans) (hf : ∀ t, ChansWf t.chans →
    ChansWf (act t).chans) : ChansWf (State.acts s act).chans := by
  unfold State.acts; split
  · exact hf _ h
  · exact h
@[simp] theorem State.acts_srcs (s : State) (act : State → State) (h : SrcsWf s.flt.srcs) (hf : ∀ t, SrcsWf t.flt.srcs
    → SrcsWf (act t).flt.srcs) : SrcsWf (State.acts s act).flt.srcs := by
  unfold State.acts; split
  · exact hf _ h
  · exact h
@[simp] theorem State.acts_leaf (s : State) (act : State → State) (h : NatsWf s.cnt.leaf) (hf : ∀ t, NatsWf t.cnt.leaf
    → NatsWf (act t).cnt.leaf) : NatsWf (State.acts s act).cnt.leaf := by
  unfold State.acts; split
  · exact hf _ h
  · exact h
@[simp] theorem State.acts_isl (s : State) (act : State → State) (h : NatsWf s.cnt.isl) (hf : ∀ t, NatsWf t.cnt.isl →
    NatsWf (act t).cnt.isl) : NatsWf (State.acts s act).cnt.isl := by
  unfold State.acts; split
  · exact hf _ h
  · exact h
@[simp] theorem State.acts_dev (s : State) (act : State → State) (h : NatsWf s.cnt.dev) (hf : ∀ t, NatsWf t.cnt.dev →
    NatsWf (act t).cnt.dev) : NatsWf (State.acts s act).cnt.dev := by
  unfold State.acts; split
  · exact hf _ h
  · exact h
@[simp] theorem State.acts_chansEq (s : State) (act : State → State) (hf : ∀ t, (act t).chans = t.chans) : (State.acts
    s act).chans = s.chans := by
  unfold State.acts; split
  · exact hf _
  · rfl
@[simp] theorem State.acts_srcsEq (s : State) (act : State → State) (hf : ∀ t, (act t).flt.srcs = t.flt.srcs) :
    (State.acts s act).flt.srcs = s.flt.srcs := by
  unfold State.acts; split
  · exact hf _
  · rfl
@[simp] theorem State.acts_leafEq (s : State) (act : State → State) (hf : ∀ t, (act t).cnt.leaf = t.cnt.leaf) :
    (State.acts s act).cnt.leaf = s.cnt.leaf := by
  unfold State.acts; split
  · exact hf _
  · rfl
@[simp] theorem State.acts_islEq (s : State) (act : State → State) (hf : ∀ t, (act t).cnt.isl = t.cnt.isl) :
    (State.acts s act).cnt.isl = s.cnt.isl := by
  unfold State.acts; split
  · exact hf _
  · rfl
@[simp] theorem State.acts_devEq (s : State) (act : State → State) (hf : ∀ t, (act t).cnt.dev = t.cnt.dev) :
    (State.acts s act).cnt.dev = s.cnt.dev := by
  unfold State.acts; split
  · exact hf _
  · rfl
@[simp] theorem State.settleIf_tabs (s : State) : TabsOk (State.settleIf s) s := by
  refine ⟨fun h => ?_, fun h => ?_, fun h => ?_, fun h => ?_, fun h => ?_⟩ <;>
    (simp [State.settleIf, h])
@[simp] theorem State.enumNext_tabs (s : State) : TabsEq (State.enumNext s) s := by
  unfold State.enumNext; split <;> simp [TabsEq, ChansEq, SrcsEq, CntEq]
@[simp] theorem State.portRises_tabs (s : State) (p : Nat) : TabsOk (State.portRises s p) s := by
  refine ⟨fun h => ?_, fun h => ?_, fun h => ?_, fun h => ?_, fun h => ?_⟩ <;>
    (simp [State.portRises, h])
@[simp] theorem State.casEnumed_tabs (s : State) (path depth addr delay : Nat) : TabsEq (State.casEnumed s path depth
    addr delay) s := by
  simp [TabsEq, ChansEq, SrcsEq, CntEq, State.casEnumed]
@[simp] theorem State.subsTo_tabs (s : State) (a : Nat) : TabsEq (State.subsTo s a) s := by
  simp [TabsEq, ChansEq, SrcsEq, CntEq, State.subsTo]
@[simp] theorem State.hearJoin_tabs (s : State) (a : Nat) : TabsEq (State.hearJoin s a) s := by
  simp [TabsEq, ChansEq, SrcsEq, CntEq, State.hearJoin]
@[simp] theorem State.leaderHello_tabs (s : State) (addr variant time delay path depth phase ports : Nat) (refused :
    Bool) : TabsOk (State.leaderHello s addr variant time delay path depth phase ports refused) s := by
  refine ⟨fun h => ?_, fun h => ?_, fun h => ?_, fun h => ?_, fun h => ?_⟩ <;>
    (simp [State.leaderHello, h])
@[simp] theorem State.timeSend_tabs (s : State) : TabsEq (State.timeSend s) s := by
  simp [TabsEq, ChansEq, SrcsEq, CntEq, State.timeSend]
@[simp] theorem State.timeGone_tabs (s : State) : TabsOk (State.timeGone s) s := by
  refine ⟨fun h => ?_, fun h => ?_, fun h => ?_, fun h => ?_, fun h => ?_⟩ <;>
    (simp [State.timeGone, h])
@[simp] theorem State.timeTaken_tabs (s : State) (v at_ : Nat) : TabsOk (State.timeTaken s v at_) s := by
  refine ⟨fun h => ?_, fun h => ?_, fun h => ?_, fun h => ?_, fun h => ?_⟩ <;>
    (simp (maxDischargeDepth := 40) [State.timeTaken, h])
@[simp] theorem State.railTaken_tabs (s : State) (org rail code : Nat) : TabsOk (State.railTaken s org rail code) s :=
    by
  refine ⟨fun h => ?_, fun h => ?_, fun h => ?_, fun h => ?_, fun h => ?_⟩ <;>
    (simp (maxDischargeDepth := 40) [State.railTaken, h])
@[simp] theorem State.toward_chans (s : State) (p dst org : Nat) (f : CasFrame) (act : State → State) (h : ChansWf
    s.chans) (hf : ∀ t, ChansWf t.chans → ChansWf (act t).chans) : ChansWf (State.toward s p dst org f act).chans :=
    by
  unfold State.toward; split
  · exact State.acts_chans _ _ h hf
  · split
    · exact h
    · simp [h]
@[simp] theorem State.toward_srcs (s : State) (p dst org : Nat) (f : CasFrame) (act : State → State) (h : SrcsWf
    s.flt.srcs) (hf : ∀ t, SrcsWf t.flt.srcs → SrcsWf (act t).flt.srcs) : SrcsWf (State.toward s p dst org f
    act).flt.srcs := by
  unfold State.toward; split
  · exact State.acts_srcs _ _ h hf
  · split
    · exact h
    · simp [h]
@[simp] theorem State.toward_leaf (s : State) (p dst org : Nat) (f : CasFrame) (act : State → State) (h : NatsWf
    s.cnt.leaf) (hf : ∀ t, NatsWf t.cnt.leaf → NatsWf (act t).cnt.leaf) : NatsWf (State.toward s p dst org f
    act).cnt.leaf := by
  unfold State.toward; split
  · exact State.acts_leaf _ _ h hf
  · split
    · exact h
    · simp [h]
@[simp] theorem State.toward_isl (s : State) (p dst org : Nat) (f : CasFrame) (act : State → State) (h : NatsWf
    s.cnt.isl) (hf : ∀ t, NatsWf t.cnt.isl → NatsWf (act t).cnt.isl) : NatsWf (State.toward s p dst org f act).cnt.isl
    := by
  unfold State.toward; split
  · exact State.acts_isl _ _ h hf
  · split
    · exact h
    · simp [h]
@[simp] theorem State.toward_dev (s : State) (p dst org : Nat) (f : CasFrame) (act : State → State) (h : NatsWf
    s.cnt.dev) (hf : ∀ t, NatsWf t.cnt.dev → NatsWf (act t).cnt.dev) : NatsWf (State.toward s p dst org f act).cnt.dev
    := by
  unfold State.toward; split
  · exact State.acts_dev _ _ h hf
  · split
    · exact h
    · simp [h]
@[simp] theorem State.toward_chansEq (s : State) (p dst org : Nat) (f : CasFrame) (act : State → State) (hf : ∀ t,
    (act t).chans = t.chans) : (State.toward s p dst org f act).chans = s.chans := by
  unfold State.toward; split
  · exact State.acts_chansEq _ _ hf
  · split
    · rfl
    · simp
@[simp] theorem State.toward_srcsEq (s : State) (p dst org : Nat) (f : CasFrame) (act : State → State) (hf : ∀ t, (act
    t).flt.srcs = t.flt.srcs) : (State.toward s p dst org f act).flt.srcs = s.flt.srcs := by
  unfold State.toward; split
  · exact State.acts_srcsEq _ _ hf
  · split
    · rfl
    · simp
@[simp] theorem State.toward_leafEq (s : State) (p dst org : Nat) (f : CasFrame) (act : State → State) (hf : ∀ t, (act
    t).cnt.leaf = t.cnt.leaf) : (State.toward s p dst org f act).cnt.leaf = s.cnt.leaf := by
  unfold State.toward; split
  · exact State.acts_leafEq _ _ hf
  · split
    · rfl
    · simp
@[simp] theorem State.toward_islEq (s : State) (p dst org : Nat) (f : CasFrame) (act : State → State) (hf : ∀ t, (act
    t).cnt.isl = t.cnt.isl) : (State.toward s p dst org f act).cnt.isl = s.cnt.isl := by
  unfold State.toward; split
  · exact State.acts_islEq _ _ hf
  · split
    · rfl
    · simp
@[simp] theorem State.toward_devEq (s : State) (p dst org : Nat) (f : CasFrame) (act : State → State) (hf : ∀ t, (act
    t).cnt.dev = t.cnt.dev) : (State.toward s p dst org f act).cnt.dev = s.cnt.dev := by
  unfold State.toward; split
  · exact State.acts_devEq _ _ hf
  · split
    · rfl
    · simp
@[simp] theorem State.subTaken_tabs (s : State) (org rail : Nat) (on : Bool) : TabsEq (State.subTaken s org rail on) s
    := by
  unfold State.subTaken; (repeat' split) <;> simp [TabsEq, ChansEq, SrcsEq, CntEq]
@[simp] theorem State.lostTaken_tabs (s : State) (p : Nat) (l : List Nat) : TabsEq (State.lostTaken s p l) s := by
  simp [TabsEq, ChansEq, SrcsEq, CntEq, State.lostTaken]
@[simp] theorem State.orphanRow_tabs (s : State) : TabsOk (State.orphanRow s) s := by
  refine ⟨fun h => ?_, fun h => ?_, fun h => ?_, fun h => ?_, fun h => ?_⟩ <;>
    (simp [State.orphanRow, h])
@[simp] theorem State.domTaken_tabs (s : State) (on : Bool) (phase act : Nat) : TabsEq (State.domTaken s on phase act)
    s := by
  simp [TabsEq, ChansEq, SrcsEq, CntEq, State.domTaken]
@[simp] theorem State.domTimeout_tabs (s : State) : TabsEq (State.domTimeout s) s := by
  unfold State.domTimeout; split <;> simp [TabsEq, ChansEq, SrcsEq, CntEq]
@[simp] theorem State.stateTaken_tabs (s : State) (org seq : Nat) : TabsEq (State.stateTaken s org seq) s := by
  simp [TabsEq, ChansEq, SrcsEq, CntEq, State.stateTaken]
@[simp] theorem State.domCtl_tabs (s : State) (l : Level) (on off : Bool) : TabsEq (State.domCtl s l on off) s := by
  simp [TabsEq, ChansEq, SrcsEq, CntEq, State.domCtl]
@[simp] theorem State.faultTaken_tabs (s : State) (org src level : Nat) (safe : Bool) (stamp : Nat) : TabsOk
    (State.faultTaken s org src level safe stamp) s := by
  refine ⟨fun h => ?_, fun h => ?_, fun h => ?_, fun h => ?_, fun h => ?_⟩ <;>
    (simp +contextual [State.faultTaken, h])
@[simp] theorem State.eqxView_tabs (s : State) (t : Nat) (cnt : Bool) : TabsEq (State.eqxView s t cnt) s := by
  simp [TabsEq, ChansEq, SrcsEq, CntEq, State.eqxView]
@[simp] theorem State.eqxTaken_tabs (s : State) (t : Nat) (cnt : Bool) : TabsEq (State.eqxTaken s t cnt) s := by
  simp [TabsEq, ChansEq, SrcsEq, CntEq, State.eqxTaken]
@[simp] theorem State.eqxGo_tabs (s : State) (l : Level) (cnt : Bool) : TabsEq (State.eqxGo s l cnt) s := by
  simp [TabsEq, ChansEq, SrcsEq, CntEq, State.eqxGo]
@[simp] theorem State.resetTaken_tabs (s : State) (dst : Nat) : TabsOk (State.resetTaken s dst) s := by
  refine ⟨fun h => ?_, fun h => ?_, fun h => ?_, fun h => ?_, fun h => ?_⟩ <;>
    (simp [State.resetTaken, h])
@[simp] theorem State.casCtl_tabs (s : State) (l : Level) (t : Nat) : TabsEq (State.casCtl s l t) s := by
  simp [TabsEq, ChansEq, SrcsEq, CntEq, State.casCtl]
@[simp] theorem State.laneTest_tabs (s : State) (lane : Nat) : TabsOk (State.laneTest s lane) s := by
  refine ⟨fun h => ?_, fun h => ?_, fun h => ?_, fun h => ?_, fun h => ?_⟩ <;>
    (simp [State.laneTest, h])
@[simp] theorem State.ltMove_tabs (s : State) (t : Nat) (off : Bool) : TabsOk (State.ltMove s t off) s := by
  refine ⟨fun h => ?_, fun h => ?_, fun h => ?_, fun h => ?_, fun h => ?_⟩ <;>
    (simp [State.ltMove, h])
@[simp] theorem State.modLt_tabs (s : State) (t : Nat) (f : Lt → Lt) : TabsEq (State.modLt s t f) s := by
  simp [TabsEq, ChansEq, SrcsEq, CntEq, State.modLt]
@[simp] theorem State.ltMode_tabs (s : State) (t mode poly : Nat) : TabsOk (State.ltMode s t mode poly) s := by
  refine ⟨fun h => ?_, fun h => ?_, fun h => ?_, fun h => ?_, fun h => ?_⟩ <;>
    (simp [State.ltMode, h])
@[simp] theorem State.ltWrite_tabs (s : State) (l : Level) (t mode poly : Nat) (inj clr : Bool) : TabsOk
    (State.ltWrite s l t mode poly inj clr) s := by
  refine ⟨fun h => ?_, fun h => ?_, fun h => ?_, fun h => ?_, fun h => ?_⟩ <;>
    (simp [State.ltWrite, h])
@[simp] theorem State.ltCheck_tabs (s : State) (t good errors window : Nat) : TabsEq (State.ltCheck s t good errors
    window) s := by
  simp [TabsEq, ChansEq, SrcsEq, CntEq, State.ltCheck]
@[simp] theorem State.putSys_tabs (s : State) (l : Level) (o : Nat) (w : Word) : TabsEq (State.putSys s l o w) s := by
  unfold State.putSys; split <;> simp [TabsEq, ChansEq, SrcsEq, CntEq]
@[simp] theorem State.putPwr_tabs (s : State) (l : Level) (o : Nat) (w : Word) : TabsOk (State.putPwr s l o w) s := by
  refine ⟨fun h => ?_, fun h => ?_, fun h => ?_, fun h => ?_, fun h => ?_⟩ <;>
    (unfold State.putPwr; split <;> simp [h])
@[simp] theorem State.putSeq_tabs (s : State) (l : Level) (o : Nat) (w : Word) : TabsOk (State.putSeq s l o w) s := by
  refine ⟨fun h => ?_, fun h => ?_, fun h => ?_, fun h => ?_, fun h => ?_⟩ <;>
    (unfold State.putSeq; split <;> simp [h])
@[simp] theorem State.putMgn_tabs (s : State) (n : Nat) (l : Level) (w : Word) : ChansOk (State.putMgn s n l w) s ∧
    SrcsEq (State.putMgn s n l w) s ∧ CntOk (State.putMgn s n l w) s := by
  refine ⟨?_, ?_, ?_, ?_, ?_⟩
  · intro h; unfold State.putMgn; split <;> simp [h]
  · unfold State.putMgn; split <;> simp [SrcsEq]
  · intro h; unfold State.putMgn; split <;> simp [h]
  · intro h; unfold State.putMgn; split <;> simp [h]
  · intro h; unfold State.putMgn; split <;> simp [h]
@[simp] theorem State.putChan_tabs (s : State) (n : Nat) (l : Level) (o : Nat) (w : Word) : TabsOk (State.putChan s n
    l o w) s := by
  refine ⟨fun h => ?_, fun h => ?_, fun h => ?_, fun h => ?_, fun h => ?_⟩ <;>
    (unfold State.putChan; split <;> simp [h])
@[simp] theorem State.putCh_tabs (s : State) (l : Level) (o : Nat) (w : Word) : TabsOk (State.putCh s l o w) s := by
  refine ⟨fun h => ?_, fun h => ?_, fun h => ?_, fun h => ?_, fun h => ?_⟩ <;>
    (unfold State.putCh; (repeat' split) <;> simp [h])
@[simp] theorem State.putFlt_tabs (s : State) (l : Level) (o : Nat) (w : Word) : TabsOk (State.putFlt s l o w) s := by
  refine ⟨fun h => ?_, fun h => ?_, fun h => ?_, fun h => ?_, fun h => ?_⟩ <;>
    (unfold State.putFlt; split <;> simp [h])
@[simp] theorem State.putWdg_tabs (s : State) (l : Level) (o : Nat) (w : Word) : TabsOk (State.putWdg s l o w) s := by
  refine ⟨fun h => ?_, fun h => ?_, fun h => ?_, fun h => ?_, fun h => ?_⟩ <;>
    (unfold State.putWdg; split <;> simp [h])
@[simp] theorem State.putPort_tabs (s : State) (p o : Nat) (w : Word) : TabsEq (State.putPort s p o w) s := by
  unfold State.putPort; split <;> simp [TabsEq, ChansEq, SrcsEq, CntEq]
@[simp] theorem State.putSel_tabs (s : State) (k : Nat) (w : Word) : TabsEq (State.putSel s k w) s := by
  simp [TabsEq, ChansEq, SrcsEq, CntEq, State.putSel]
@[simp] theorem State.putGpio_tabs (s : State) (o : Nat) (w : Word) : TabsEq (State.putGpio s o w) s := by
  unfold State.putGpio; (repeat' split) <;> simp [TabsEq, ChansEq, SrcsEq, CntEq]
@[simp] theorem State.putLeafEv_tabs (s : State) (k : Nat) (w : Word) : TabsEq (State.putLeafEv s k w) s := by
  simp [TabsEq, ChansEq, SrcsEq, CntEq, State.putLeafEv]
@[simp] theorem State.putCnt_tabs (s : State) (o : Nat) (w : Word) : ChansEq (State.putCnt s o w) s ∧
    SrcsEq (State.putCnt s o w) s ∧ CntOk (State.putCnt s o w) s := by
  have k (c : Cnt) (hl : c.leaf = s.cnt.leaf) (hi : c.isl = s.cnt.isl) (hd : c.dev = s.cnt.dev) :
      ChansEq { s with cnt := c } s ∧ SrcsEq { s with cnt := c } s ∧ CntOk { s with cnt := c } s :=
    ⟨rfl, rfl, fun h => hl ▸ h, fun h => hi ▸ h, fun h => hd ▸ h⟩
  have same (t : State) (h : TabsEq t s) : ChansEq t s ∧ SrcsEq t s ∧ CntOk t s := ⟨h.1, h.2.1, h.ok.2.2⟩
  unfold State.putCnt
  dsimp only
  split
  · split
    · exact same s ⟨rfl, rfl, rfl, rfl, rfl⟩
    · split
      · exact same _ (s.leafLo_tabs w)
      · exact s.leafHi_tabs _ w
  · split
    · exact same _ (s.putLeafEv_tabs _ w)
    · split
      · exact k _ rfl rfl rfl
      · split
        · exact s.cntCtrl_tabs w
        all_goals exact k _ rfl rfl rfl
@[simp] theorem State.putHld_tabs (s : State) (l : Level) (o : Nat) (w : Word) : TabsOk (State.putHld s l o w) s := by
  refine ⟨fun h => ?_, fun h => ?_, fun h => ?_, fun h => ?_, fun h => ?_⟩ <;>
    (unfold State.putHld; split <;> simp [h])
@[simp] theorem State.putLc_tabs (s : State) (l : Level) (w : Word) : TabsOk (State.putLc s l w) s := by
  refine ⟨fun h => ?_, fun h => ?_, fun h => ?_, fun h => ?_, fun h => ?_⟩ <;>
    (unfold State.putLc; split <;> simp [h])
@[simp] theorem State.putKey_tabs (s : State) (l : Level) (w : Word) : TabsOk (State.putKey s l w) s := by
  refine ⟨fun h => ?_, fun h => ?_, fun h => ?_, fun h => ?_, fun h => ?_⟩ <;>
    (unfold State.putKey; split <;> simp [h])
@[simp] theorem State.putSec_tabs (s : State) (l : Level) (o : Nat) (w : Word) : TabsOk (State.putSec s l o w) s := by
  refine ⟨fun h => ?_, fun h => ?_, fun h => ?_, fun h => ?_, fun h => ?_⟩ <;>
    (unfold State.putSec; (repeat' split) <;> simp [h])
@[simp] theorem State.putAcc_tabs (s : State) (l : Level) (w : Word) (f : LineFlaws) : TabsOk (State.putAcc s l w f) s
    := by
  refine ⟨fun h => ?_, fun h => ?_, fun h => ?_, fun h => ?_, fun h => ?_⟩ <;>
    (unfold State.putAcc; split <;> simp [h])
@[simp] theorem State.putEnv_tabs (s : State) (l : Level) (o : Nat) (w : Word) (f : LineFlaws) : TabsOk (State.putEnv
    s l o w f) s := by
  refine ⟨fun h => ?_, fun h => ?_, fun h => ?_, fun h => ?_, fun h => ?_⟩ <;>
    (unfold State.putEnv; (repeat' split) <;> simp [h])
@[simp] theorem State.putBbx_tabs (s : State) (l : Level) (o : Nat) (w : Word) : ChansEq (State.putBbx s l o w) s ∧
    SrcsOk (State.putBbx s l o w) s ∧ CntOk (State.putBbx s l o w) s := by
  refine ⟨?_, ?_, ?_, ?_, ?_⟩
  · unfold State.putBbx; split <;> simp [ChansEq]
  · intro h; unfold State.putBbx; split <;> simp [h]
  · intro h; unfold State.putBbx; split <;> simp [h]
  · intro h; unfold State.putBbx; split <;> simp [h]
  · intro h; unfold State.putBbx; split <;> simp [h]
@[simp] theorem State.putCfg_tabs (s : State) (l : Level) (o : Nat) (w : Word) : TabsEq (State.putCfg s l o w) s := by
  unfold State.putCfg; split <;> simp [TabsEq, ChansEq, SrcsEq, CntEq]
@[simp] theorem State.putCas_tabs (s : State) (l : Level) (o : Nat) (w : Word) : TabsEq (State.putCas s l o w) s := by
  unfold State.putCas; split <;> simp [TabsEq, ChansEq, SrcsEq, CntEq]
@[simp] theorem State.putLnk_tabs (s : State) (l : Level) (o : Nat) (w : Word) : TabsOk (State.putLnk s l o w) s := by
  refine ⟨fun h => ?_, fun h => ?_, fun h => ?_, fun h => ?_, fun h => ?_⟩ <;>
    (unfold State.putLnk; (repeat' split) <;> simp [h])
@[simp] theorem State.putReg_tabs (s : State) (l : Level) (a : Nat) (w : Word) (f : LineFlaws) : TabsOk (State.putReg
    s l a w f) s := by
  refine ⟨fun h => ?_, fun h => ?_, fun h => ?_, fun h => ?_, fun h => ?_⟩ <;>
    (simp only [State.putReg]; (repeat' split) <;> simp [h])
@[simp] theorem State.setOutcome_tabs (s : State) (a v : Nat) : ChansOk (State.setOutcome s a v) s ∧ SrcsEq
    (State.setOutcome s a v) s ∧ CntEq (State.setOutcome s a v) s := by
  refine ⟨?_, ?_, ?_⟩
  · intro h; unfold State.setOutcome; (repeat' split) <;> simp [h]
  · unfold State.setOutcome; (repeat' split) <;> simp [SrcsEq]
  · unfold State.setOutcome; (repeat' split) <;> simp [CntEq]
@[simp] theorem State.putTraced_tabs (s : State) (l : Level) (a : Nat) (w : Word) (f : LineFlaws) : TabsOk
    (State.putTraced s l a w f).1 s := by
  refine ⟨fun h => ?_, fun h => ?_, fun h => ?_, fun h => ?_, fun h => ?_⟩ <;>
    (simp only [State.putTraced]; (repeat' split) <;> simp (maxDischargeDepth := 40) [h])
@[simp] theorem State.readEffect_tabs (s : State) (a : Nat) : TabsEq (State.readEffect s a) s := by
  simp [TabsEq, ChansEq, SrcsEq, CntEq, State.readEffect]
@[simp] theorem State.idleEnds_tabs (s : State) : TabsEq (State.idleEnds s) s := by
  simp [TabsEq, ChansEq, SrcsEq, CntEq, State.idleEnds]
@[simp] theorem State.nonceEnds_tabs (s : State) : TabsEq (State.nonceEnds s) s := by
  simp [TabsEq, ChansEq, SrcsEq, CntEq, State.nonceEnds]
@[simp] theorem State.lockoutEnds_tabs (s : State) : TabsEq (State.lockoutEnds s) s := by
  unfold State.lockoutEnds; split <;> simp [TabsEq, ChansEq, SrcsEq, CntEq]
@[simp] theorem State.hmpDue_tabs (s : State) : TabsEq (State.hmpDue s) s := by
  simp [TabsEq, ChansEq, SrcsEq, CntEq, State.hmpDue]
@[simp] theorem State.badFrame_tabs (s : State) (status bytes : Nat) : TabsEq (State.badFrame s status bytes) s := by
  simp [TabsEq, ChansEq, SrcsEq, CntEq, State.badFrame]
@[simp] theorem State.request_chans (s : State) (r : Req) (early : Nat) (late : State → Nat) (act : State → State) (h
    : ChansWf s.chans) (hf : ∀ t, ChansWf t.chans → ChansWf (act t).chans) : ChansWf (State.request s r early late
    act).chans := by
  unfold State.request; dsimp only
  (repeat' split) <;> simp [h, hf]
@[simp] theorem State.request_srcs (s : State) (r : Req) (early : Nat) (late : State → Nat) (act : State → State) (h :
    SrcsWf s.flt.srcs) (hf : ∀ t, SrcsWf t.flt.srcs → SrcsWf (act t).flt.srcs) : SrcsWf (State.request s r early late
    act).flt.srcs := by
  unfold State.request; dsimp only
  (repeat' split) <;> simp [h, hf]
@[simp] theorem State.request_leaf (s : State) (r : Req) (early : Nat) (late : State → Nat) (act : State → State) (h :
    NatsWf s.cnt.leaf) (hf : ∀ t, NatsWf t.cnt.leaf → NatsWf (act t).cnt.leaf) : NatsWf (State.request s r early late
    act).cnt.leaf := by
  unfold State.request; dsimp only
  (repeat' split) <;> simp [h, hf]
@[simp] theorem State.request_isl (s : State) (r : Req) (early : Nat) (late : State → Nat) (act : State → State) (h :
    NatsWf s.cnt.isl) (hf : ∀ t, NatsWf t.cnt.isl → NatsWf (act t).cnt.isl) : NatsWf (State.request s r early late
    act).cnt.isl := by
  unfold State.request; dsimp only
  (repeat' split) <;> simp [h, hf]
@[simp] theorem State.request_dev (s : State) (r : Req) (early : Nat) (late : State → Nat) (act : State → State) (h :
    NatsWf s.cnt.dev) (hf : ∀ t, NatsWf t.cnt.dev → NatsWf (act t).cnt.dev) : NatsWf (State.request s r early late
    act).cnt.dev := by
  unfold State.request; dsimp only
  (repeat' split) <;> simp [h, hf]
@[simp] theorem State.request_chansEq (s : State) (r : Req) (early : Nat) (late : State → Nat) (act : State → State)
    (hf : ∀ t, (act t).chans = t.chans) : (State.request s r early late act).chans = s.chans := by
  unfold State.request; dsimp only
  (repeat' split) <;> simp [hf]
@[simp] theorem State.request_srcsEq (s : State) (r : Req) (early : Nat) (late : State → Nat) (act : State → State)
    (hf : ∀ t, (act t).flt.srcs = t.flt.srcs) : (State.request s r early late act).flt.srcs = s.flt.srcs := by
  unfold State.request; dsimp only
  (repeat' split) <;> simp [hf]
@[simp] theorem State.request_leafEq (s : State) (r : Req) (early : Nat) (late : State → Nat) (act : State → State)
    (hf : ∀ t, (act t).cnt.leaf = t.cnt.leaf) : (State.request s r early late act).cnt.leaf = s.cnt.leaf := by
  unfold State.request; dsimp only
  (repeat' split) <;> simp [hf]
@[simp] theorem State.request_islEq (s : State) (r : Req) (early : Nat) (late : State → Nat) (act : State → State) (hf
    : ∀ t, (act t).cnt.isl = t.cnt.isl) : (State.request s r early late act).cnt.isl = s.cnt.isl := by
  unfold State.request; dsimp only
  (repeat' split) <;> simp [hf]
@[simp] theorem State.request_devEq (s : State) (r : Req) (early : Nat) (late : State → Nat) (act : State → State) (hf
    : ∀ t, (act t).cnt.dev = t.cnt.dev) : (State.request s r early late act).cnt.dev = s.cnt.dev := by
  unfold State.request; dsimp only
  (repeat' split) <;> simp [hf]
theorem State.readRegs_tabs (as : List Nat) (s : State) (first : Bool) (acc : List Word) :
    TabsOk (State.readRegs s as first acc).1 s := by
  induction as generalizing s first acc with
  | nil => exact TabsOk.rfl' s
  | cons a r ih =>
    have k (t : State) (q : List Instr) (h : TabsOk t { s with pending := [] }) : TabsOk { t with pending := q } s := h
    have h : TabsOk (if first then s else { idle { s with pending := [] } with pending := s.pending }) s := by
      cases first
      · exact k _ _ (idle_tabs _)
      · exact TabsOk.rfl' s
    unfold State.readRegs
    revert h
    generalize (if first then s else { idle { s with pending := [] } with pending := s.pending }) = u
    intro h
    exact (ih _ _ _).trans' (TabsOk.trans' (TabsEq.ok (State.readEffect_tabs u a)) h)
@[simp] theorem State.readAct_tabs (as : List Nat) (s : State) : TabsOk (State.readAct as s) s := by
  have h := State.readRegs_tabs as s true []
  exact TabsOk.trans' (TabsEq.ok (State.answerOk_tabs _ _ _ _ _)) h
theorem State.writeRegs_tabs (l : Level) (f : LineFlaws) (regs : List (Nat × Word)) (s : State) (d : Nat) :
    TabsOk (State.writeRegs l f s regs d).1 s := by
  induction regs generalizing s d with
  | nil => exact TabsOk.rfl' s
  | cons x r ih =>
    refine TabsOk.trans' (ih _ _) ?_
    refine ⟨fun h => ?_, fun h => ?_, fun h => ?_, fun h => ?_, fun h => ?_⟩ <;> simp [h]
@[simp] theorem State.writeAct_tabs (regs : List (Nat × Word)) (f : LineFlaws) (s : State) :
    TabsOk (State.writeAct regs f s) s := by
  unfold State.writeAct
  split
  · exact TabsOk.rfl' s
  · next l _ =>
    have h := State.writeRegs_tabs l f regs s 0
    refine TabsOk.trans' ?_ h
    refine ⟨fun h => ?_, fun h => ?_, fun h => ?_, fun h => ?_, fun h => ?_⟩ <;> simp [h]
@[simp] theorem State.resendAct_tabs (s : State) : TabsEq (State.resendAct s) s := by
  simp [TabsEq, ChansEq, SrcsEq, CntEq, State.resendAct]
@[simp] theorem State.chalAct_tabs (l : Level) (s : State) : TabsEq (State.chalAct l s) s := by
  simp [TabsEq, ChansEq, SrcsEq, CntEq, State.chalAct]
@[simp] theorem State.openFails_tabs (s : State) : TabsOk (State.openFails s) s := by
  refine ⟨fun h => ?_, fun h => ?_, fun h => ?_, fun h => ?_, fun h => ?_⟩ <;>
    (simp [State.openFails, h])
@[simp] theorem State.openAct_tabs (l : Level) (mac : List Byte) (s : State) : TabsOk (State.openAct l mac s) s := by
  refine ⟨fun h => ?_, fun h => ?_, fun h => ?_, fun h => ?_, fun h => ?_⟩ <;>
    (simp only [State.openAct]; (repeat' split) <;> simp [h])
@[simp] theorem State.closeAct_tabs (s : State) : TabsEq (State.closeAct s) s := by
  simp [TabsEq, ChansEq, SrcsEq, CntEq, State.closeAct]
@[simp] theorem State.ecmd_tabs (s : State) (cmd : Nat) : TabsEq (State.ecmd s cmd) s := by
  simp [TabsEq, ChansEq, SrcsEq, CntEq, State.ecmd]
@[simp] theorem State.csRise_tabs (s : State) : TabsOk (State.csRise s) s := by
  refine ⟨fun h => ?_, fun h => ?_, fun h => ?_, fun h => ?_, fun h => ?_⟩ <;>
    (simp [State.csRise, h])
@[simp] theorem State.byteTimeout_tabs (s : State) : TabsEq (State.byteTimeout s) s := by
  simp [TabsEq, ChansEq, SrcsEq, CntEq, State.byteTimeout]
@[simp] theorem State.takeIr_tabs (s : State) (i : JtagIr) : TabsEq (State.takeIr s i) s := by
  simp [TabsEq, ChansEq, SrcsEq, CntEq, State.takeIr]
@[simp] theorem State.shiftOut_tabs (s : State) (d : Nat) : TabsEq (State.shiftOut s d) s := by
  simp [TabsEq, ChansEq, SrcsEq, CntEq, State.shiftOut]
@[simp] theorem State.padSeen_tabs (s : State) (pads : List (BitVec 16)) (p : Nat) : TabsEq (State.padSeen s pads p) s
    := by
  simp [TabsEq, ChansEq, SrcsEq, CntEq, State.padSeen]
@[simp] theorem State.sample_tabs (s : State) (pads : List (BitVec 16)) : TabsEq (State.sample s pads) s := by
  simp [TabsEq, ChansEq, SrcsEq, CntEq, State.sample]
@[simp] theorem State.scan_tabs (s : State) (i : JtagIr) : TabsEq (State.scan s i) s := by
  simp [TabsEq, ChansEq, SrcsEq, CntEq, State.scan]
@[simp] theorem State.dbgToOff_tabs (s : State) : TabsOk (State.dbgToOff s) s := by
  refine ⟨fun h => ?_, fun h => ?_, fun h => ?_, fun h => ?_, fun h => ?_⟩ <;>
    (simp [State.dbgToOff, h])
@[simp] theorem State.dbgNonceEnds_tabs (s : State) : TabsEq (State.dbgNonceEnds s) s := by
  simp [TabsEq, ChansEq, SrcsEq, CntEq, State.dbgNonceEnds]
@[simp] theorem State.dbgLockEnds_tabs (s : State) : TabsEq (State.dbgLockEnds s) s := by
  unfold State.dbgLockEnds; split <;> simp [TabsEq, ChansEq, SrcsEq, CntEq]
@[simp] theorem State.dbgLockPast_tabs (s : State) : TabsEq (State.dbgLockPast s) s := by
  simp [TabsEq, ChansEq, SrcsEq, CntEq, State.dbgLockPast]
@[simp] theorem State.dbgNonce_tabs (s : State) : TabsEq (State.dbgNonce s) s := by
  simp [TabsEq, ChansEq, SrcsEq, CntEq, State.dbgNonce]
@[simp] theorem State.dbgFails_tabs (s : State) : TabsEq (State.dbgFails s) s := by
  simp [TabsEq, ChansEq, SrcsEq, CntEq, State.dbgFails]
@[simp] theorem State.dbgLogin_tabs (s : State) (l : Nat) (mac : List Byte) : TabsOk (State.dbgLogin s l mac) s := by
  refine ⟨fun h => ?_, fun h => ?_, fun h => ?_, fun h => ?_, fun h => ?_⟩ <;>
    (simp [State.dbgLogin, h])
@[simp] theorem State.outNote_tabs (s : State) (a : Nat) (d : Word) : TabsEq (State.outNote s a d) s := by
  simp [TabsEq, ChansEq, SrcsEq, CntEq, State.outNote]
@[simp] theorem State.dbgAccess_tabs (s : State) (a : Nat) (write : Bool) (d : Word) (f : LineFlaws) : TabsOk
    (State.dbgAccess s a write d f) s := by
  refine ⟨fun h => ?_, fun h => ?_, fun h => ?_, fun h => ?_, fun h => ?_⟩ <;>
    (simp only [State.dbgAccess]; (repeat' split) <;> simp [h])

end Sys2Proof.Machine
end

