-- ==== Sys2Proof/WellFormed.lean ====
section
/-! DEFINITION. Which commands are well formed: the numbers of channels, rails, ports, islands and so on lie within what the
larger variant has, and byte strings have the length their frame gives them. A command that names a resource the DZ-32 does
not have (R3) is well formed and has no effect there. -/

namespace Sys2Proof

/-- The operands of a command lie within their ranges. -/
def Instr.wf (i : Instr) : Bool :=
  match i with
  | .islandLost isl => decide (isl < 20)
  | .timebaseFullValue isl _ => decide (isl < 20)
  | .comparatorTrip ch _ _ _ => decide (ch < 128)
  | .comparatorRelease ch _ _ => decide (ch < 128)
  | .channelSample ch v i => decide (ch < 128) && decide (v < 4096) && decide (i < 4096)
  | .pgPinChange ch _ => decide (ch < 128)
  | .hvsSample k code => decide (k < 4) && decide (code < 4096)
  | .hsSenseSample code => decide (code < 4096)
  | .thresholdStageWrite ch reg _ => decide (ch < 128) && decide (reg < 6)
  | .chApply ch => decide (ch < 128)
  | .chDiscard ch => decide (ch < 128)
  | .thresholdHoldEnd ch => decide (ch < 128)
  | .chLockKey ch _ => decide (ch < 128)
  | .chLockPairTimeout ch => decide (ch < 128)
  | .pmbusPoll ch => decide (ch < 128)
  | .railEnable r => decide (r ≤ 128)
  | .qualificationExpiry r => decide (r ≤ 128)
  | .startTimeoutExpiry r => decide (r ≤ 128)
  | .deglitchExpiry ch => decide (ch < 128)
  | .dischargeTimeoutExpiry ch => decide (ch < 128)
  | .retryWaitExpiry ch => decide (ch < 128)
  | .springLimitExpiry ch => decide (ch < 128)
  | .mgnNominal ch => decide (ch < 128)
  | .mgnHigh ch => decide (ch < 128)
  | .mgnLow ch => decide (ch < 128)
  | .mgnTarget ch _ => decide (ch < 128)
  | .mgnOlcode ch _ => decide (ch < 128)
  | .marginServoUpdate ch => decide (ch < 128)
  | .marginWalkStep ch => decide (ch < 128)
  | .prbGo ch => decide (ch < 128)
  | .prbBaseReset ch => decide (ch < 128)
  | .probeDue ch => decide (ch < 128)
  | .wireFault src => decide (src < 1280)
  | .sourceLevelDecay src => decide (src < 1280)
  | .bbxChunkEnd isl => decide (isl < 16)
  | .casPortUp p => decide (p < 5)
  | .casAckTimeout p => decide (p < 5)
  | .casLockLoss p => decide (p < 5)
  | .casLinkAck p _ => decide (p < 5)
  | .casLinkNak p _ => decide (p < 5)
  | .casInterbyteTimeout p => decide (p < 5)
  | .casFrameInvalid p _ _ => decide (p < 5)
  | .casEnum p _ _ _ _ _ => decide (p < 5)
  | .casHello p _ _ _ _ _ _ _ _ _ _ => decide (p < 5)
  | .casRail p _ _ _ _ => decide (p < 5)
  | .casSub p _ _ _ _ => decide (p < 5)
  | .casFault p _ _ _ _ _ _ => decide (p < 5)
  | .casState p _ _ _ => decide (p < 5)
  | .casEqxRep p _ _ _ _ => decide (p < 5)
  | .casMgnRep p _ _ _ _ _ _ _ => decide (p < 5)
  | .casLost p _ _ => decide (p < 5)
  | .mcpLaneInService lane => decide (lane < 2)
  | .mcpLaneLoss lane _ => decide (lane < 2)
  | .macVerifyPass _ undef => decide (undef ≤ 8)
  | .ltModeOff t => decide (t < 7)
  | .ltModePrbs t _ => decide (t < 7)
  | .ltModeNear t => decide (t < 7)
  | .ltModeFar t => decide (t < 7)
  | .ltInj t => decide (t < 7)
  | .ltClr t => decide (t < 7)
  | .ltCheckerLock t _ _ _ => decide (t < 7)
  | .gpioOutSet p _ => decide (p < 3)
  | .gpioOutClr p _ => decide (p < 3)
  | .gpioDirWrite p _ => decide (p < 3)
  | .gpioPullWrite p _ => decide (p < 3)
  | .gpioMirSelWrite k _ => decide (k < 8)
  | .gpioLock p _ _ => decide (p < 3)
  | .gpioLockPairTimeout p => decide (p < 3)
  | .pinLineEdge p pin _ => decide (p < 3) && decide (pin < 16)
  | .cntLeafLoWrite ch j _ => decide (ch < 128) && decide (j < 8)
  | .cntLeafHiWrite ch j _ => decide (ch < 128) && decide (j < 8)
  | .cntScrub isl _ _ => decide (isl < 16)
  | .tpWindowEnd port => decide (port < 8)
  | .ocBlankEnd ch => decide (ch < 128)
  | .hmpOpen _ _ hmac _ => decide (hmac.length = 32)
  | .mcpKx _ nonce => decide (nonce.length = 32)
  | .dbgAuth _ hmac => decide (hmac.length = 32)
  | .powerOnResetRelease | .fuseReadDone .. | .bootS2Done .. | .journalReplayDone .. | .slotChoiceDone ..
  | .configLoadDone | .vauxCollapse | .vauxRecover | .resetNFilterExpiry | .orderlyResetComplete
  | .sysRstCtrlSoft .. | .softResetTakeEffect .. | .mainClockRestart | .viewReqNow .. | .viewReqAt .. | .viewCapture
  | .viewDone | .hsBreakerTrip .. | .hsGoodLossTimeout | .pmbusTransactionDone .. | .pmbusRetry
  | .pmbusStretchTimeout | .seqOnRequest | .seqOffRequest | .latchedOnAct | .seqTlogRead | .seqTlogClr
  | .seqSpringCtlWrite .. | .mgnCampGo .. | .campaignCorner | .campaignReport | .probeStart | .probeBaselineEnd
  | .probeStepEnd | .probeFitDone .. | .ledgerOpen .. | .ledgerDone .. | .ledgerSeal .. | .ledgerPad ..
  | .macVerifyFail .. | .inputLoss | .rideThroughGateOn | .hldHold | .hldRelease | .hldDrain
  | .epochRecordPeriod | .firstFaultLatch | .graceExpiry | .safeStateAdvance | .fltAck .. | .fltClr .. | .fltSafeClr
  | .fltFfRearm | .fltPrivClear .. | .collectorSelfFault .. | .fltInjGo .. | .fltLogRead | .fltLogClr | .wdgStart
  | .wdgWindowOpen | .wdgExpiry | .wdgPeriodWrite .. | .wdgAns .. | .wdgSvc .. | .wdgKey .. | .wdgKeyPairTimeout
  | .wdoPulseEnd | .clkmonWindowEnd .. | .envRead .. | .envWriteFull .. | .envWritePart .. | .envLineWriteDone
  | .journalRecordAppend | .hoursIncrement | .countRecordPeriod | .envHarvest | .harvestDone .. | .jrdFrom ..
  | .jrdNext | .bbxTrig | .bbxRelease | .bbxCaptureCommit | .cfgLoad .. | .reloadDone .. | .cfgApply
  | .rtApplyVerified .. | .casTimeSend | .casTime .. | .casTimeAbsence | .casDom .. | .domAct | .domPhaseTimeout
  | .casEqx .. | .casMgn .. | .casReset .. | .casJoin .. | .orphanDelayExpiry | .casDomOn | .casDomOff
  | .casEqxGo .. | .casCtrlReset .. | .hmpRead .. | .hmpWrite .. | .hmpResend .. | .hmpChal .. | .hmpClose ..
  | .hmpCsRise | .hmpInterbyteTimeout | .hmpSessionIdleExpiry | .hmpNonceExpiry | .hmpLockoutEnd | .mcpKeyTimeout
  | .mcpAlarm .. | .mcpDrainAck .. | .mcpFill .. | .mcpLctlAck .. | .mcpLctlNak .. | .mcpBlockTimeout ..
  | .mcpAckTimeout | .mcpSilence | .lnkPmbGo .. | .jtagBypass | .jtagIdcode | .jtagSamplePreload .. | .jtagExtest
  | .jtagClamp | .jtagHighz | .trstNFall | .dbgChal | .dbgStat | .dbgReg .. | .dbgReset | .dbgOff | .dbgNonceExpiry
  | .dbgLockoutEnd | .toProvisioned .. | .toDeployed .. | .toReturned .. | .toRetired .. | .root .. | .arb ..
  | .wdgFuse .. | .lcOperationDone .. | .installSkey .. | .installPair | .installCkey .. | .eraseCkey ..
  | .restore .. | .keyCmdDone | .unwrapDone .. | .tamperPin | .tamperGlitch | .pwrToSummer | .pwrToAutumn
  | .pwrToWinter | .pwrToMidwinter | .rungEntryStop | .winMidExpiry | .wakeTExpiry | .wake .. | .rungExitDone
  | .overtemp | .gpioPenWrite .. | .wakePinActive .. | .cntFreeze | .cntThaw | .cntSnap | .cntSnapCapture
  | .cntSnapDone | .inputLossComparatorRelease | .hsGateOn | .hmpEcmd .. | .ledgerKindReject .. => true

end Sys2Proof
end

