-- ==== Sys2Proof/Tests/Slice0.lean ====
section
/-! SUPPORT. Tests: ill-formed commands are refused by the check, small steps with results taken from the manual, and for every
statement with hypotheses a state and operands that meet all of them together. -/

namespace Sys2Proof.Tests

open Sys2Proof.Machine

theorem test_reset_memory_wf : Safety.Memory.wf State.reset = true := by decide

/-! ## Ill-formed commands -/

theorem test_illformed_islandLost : Instr.wf (.islandLost 20) = false := by decide
theorem test_illformed_timebaseFullValue : Instr.wf (.timebaseFullValue 20 0) = false := by decide
theorem test_illformed_comparatorTrip : Instr.wf (.comparatorTrip 128 .ov 0 0) = false := by decide
theorem test_illformed_comparatorRelease : Instr.wf (.comparatorRelease 128 .ov 0) = false := by decide
theorem test_illformed_channelSample_ch : Instr.wf (.channelSample 128 0 0) = false := by decide
theorem test_illformed_channelSample_v : Instr.wf (.channelSample 0 4096 0) = false := by decide
theorem test_illformed_channelSample_i : Instr.wf (.channelSample 0 0 4096) = false := by decide
theorem test_illformed_pgPinChange : Instr.wf (.pgPinChange 128 false) = false := by decide
theorem test_illformed_hvsSample_k : Instr.wf (.hvsSample 4 0) = false := by decide
theorem test_illformed_hvsSample_code : Instr.wf (.hvsSample 0 4096) = false := by decide
theorem test_illformed_hsSenseSample : Instr.wf (.hsSenseSample 4096) = false := by decide
theorem test_illformed_thresholdStageWrite_ch : Instr.wf (.thresholdStageWrite 128 0 0) = false := by decide
theorem test_illformed_thresholdStageWrite_reg : Instr.wf (.thresholdStageWrite 0 6 0) = false := by decide
theorem test_illformed_chApply : Instr.wf (.chApply 128) = false := by decide
theorem test_illformed_chDiscard : Instr.wf (.chDiscard 128) = false := by decide
theorem test_illformed_thresholdHoldEnd : Instr.wf (.thresholdHoldEnd 128) = false := by decide
theorem test_illformed_chLockKey : Instr.wf (.chLockKey 128 0) = false := by decide
theorem test_illformed_chLockPairTimeout : Instr.wf (.chLockPairTimeout 128) = false := by decide
theorem test_illformed_pmbusPoll : Instr.wf (.pmbusPoll 128) = false := by decide
theorem test_illformed_railEnable : Instr.wf (.railEnable 129) = false := by decide
theorem test_illformed_qualificationExpiry : Instr.wf (.qualificationExpiry 129) = false := by decide
theorem test_illformed_startTimeoutExpiry : Instr.wf (.startTimeoutExpiry 129) = false := by decide
theorem test_illformed_deglitchExpiry : Instr.wf (.deglitchExpiry 128) = false := by decide
theorem test_illformed_dischargeTimeoutExpiry : Instr.wf (.dischargeTimeoutExpiry 128) = false := by decide
theorem test_illformed_retryWaitExpiry : Instr.wf (.retryWaitExpiry 128) = false := by decide
theorem test_illformed_springLimitExpiry : Instr.wf (.springLimitExpiry 128) = false := by decide
theorem test_illformed_mgnNominal : Instr.wf (.mgnNominal 128) = false := by decide
theorem test_illformed_mgnHigh : Instr.wf (.mgnHigh 128) = false := by decide
theorem test_illformed_mgnLow : Instr.wf (.mgnLow 128) = false := by decide
theorem test_illformed_mgnTarget : Instr.wf (.mgnTarget 128 0) = false := by decide
theorem test_illformed_mgnOlcode : Instr.wf (.mgnOlcode 128 0) = false := by decide
theorem test_illformed_marginServoUpdate : Instr.wf (.marginServoUpdate 128) = false := by decide
theorem test_illformed_marginWalkStep : Instr.wf (.marginWalkStep 128) = false := by decide
theorem test_illformed_prbGo : Instr.wf (.prbGo 128) = false := by decide
theorem test_illformed_prbBaseReset : Instr.wf (.prbBaseReset 128) = false := by decide
theorem test_illformed_probeDue : Instr.wf (.probeDue 128) = false := by decide
theorem test_illformed_wireFault : Instr.wf (.wireFault 1280) = false := by decide
theorem test_illformed_sourceLevelDecay : Instr.wf (.sourceLevelDecay 1280) = false := by decide
theorem test_illformed_bbxChunkEnd : Instr.wf (.bbxChunkEnd 16) = false := by decide
theorem test_illformed_casPortUp : Instr.wf (.casPortUp 5) = false := by decide
theorem test_illformed_casAckTimeout : Instr.wf (.casAckTimeout 5) = false := by decide
theorem test_illformed_casLockLoss : Instr.wf (.casLockLoss 5) = false := by decide
theorem test_illformed_casLinkAck : Instr.wf (.casLinkAck 5 0) = false := by decide
theorem test_illformed_casLinkNak : Instr.wf (.casLinkNak 5 0) = false := by decide
theorem test_illformed_casInterbyteTimeout : Instr.wf (.casInterbyteTimeout 5) = false := by decide
theorem test_illformed_casFrameInvalid : Instr.wf (.casFrameInvalid 5 0 0) = false := by decide
theorem test_illformed_casEnum : Instr.wf (.casEnum 5 0 0 0 0 0) = false := by decide
theorem test_illformed_casHello : Instr.wf (.casHello 5 0 0 0 0 0 0 0 0 { phase := 0, ports := 0 } false) = false := by decide
theorem test_illformed_casRail : Instr.wf (.casRail 5 0 { dst := 0, org := 0 } 0 0) = false := by decide
theorem test_illformed_casSub : Instr.wf (.casSub 5 0 { dst := 0, org := 0 } 0 false) = false := by decide
theorem test_illformed_casFault : Instr.wf (.casFault 5 0 0 0 0 false 0) = false := by decide
theorem test_illformed_casState : Instr.wf (.casState 5 0 0 0) = false := by decide
theorem test_illformed_casEqxRep : Instr.wf (.casEqxRep 5 0 0 false 0) = false := by decide
theorem test_illformed_casMgnRep : Instr.wf (.casMgnRep 5 0 0 0 0 0 0 0) = false := by decide
theorem test_illformed_casLost : Instr.wf (.casLost 5 0 []) = false := by decide
theorem test_illformed_mcpLaneInService : Instr.wf (.mcpLaneInService 2) = false := by decide
theorem test_illformed_mcpLaneLoss : Instr.wf (.mcpLaneLoss 2 0) = false := by decide
theorem test_illformed_macVerifyPass : Instr.wf (.macVerifyPass 0 9) = false := by decide
theorem test_illformed_ltModeOff : Instr.wf (.ltModeOff 7) = false := by decide
theorem test_illformed_ltModePrbs : Instr.wf (.ltModePrbs 7 0) = false := by decide
theorem test_illformed_ltModeNear : Instr.wf (.ltModeNear 7) = false := by decide
theorem test_illformed_ltModeFar : Instr.wf (.ltModeFar 7) = false := by decide
theorem test_illformed_ltInj : Instr.wf (.ltInj 7) = false := by decide
theorem test_illformed_ltClr : Instr.wf (.ltClr 7) = false := by decide
theorem test_illformed_ltCheckerLock : Instr.wf (.ltCheckerLock 7 0 0 0) = false := by decide
theorem test_illformed_gpioOutSet : Instr.wf (.gpioOutSet 3 0) = false := by decide
theorem test_illformed_gpioOutClr : Instr.wf (.gpioOutClr 3 0) = false := by decide
theorem test_illformed_gpioDirWrite : Instr.wf (.gpioDirWrite 3 0) = false := by decide
theorem test_illformed_gpioPullWrite : Instr.wf (.gpioPullWrite 3 0) = false := by decide
theorem test_illformed_gpioMirSelWrite : Instr.wf (.gpioMirSelWrite 8 0) = false := by decide
theorem test_illformed_gpioLock : Instr.wf (.gpioLock 3 0 0) = false := by decide
theorem test_illformed_gpioLockPairTimeout : Instr.wf (.gpioLockPairTimeout 3) = false := by decide
theorem test_illformed_pinLineEdge_p : Instr.wf (.pinLineEdge 3 0 false) = false := by decide
theorem test_illformed_pinLineEdge_pin : Instr.wf (.pinLineEdge 0 16 false) = false := by decide
theorem test_illformed_cntLeafLoWrite_ch : Instr.wf (.cntLeafLoWrite 128 0 0) = false := by decide
theorem test_illformed_cntLeafLoWrite_j : Instr.wf (.cntLeafLoWrite 0 8 0) = false := by decide
theorem test_illformed_cntLeafHiWrite_ch : Instr.wf (.cntLeafHiWrite 128 0 0) = false := by decide
theorem test_illformed_cntLeafHiWrite_j : Instr.wf (.cntLeafHiWrite 0 8 0) = false := by decide
theorem test_illformed_cntScrub : Instr.wf (.cntScrub 16 [] []) = false := by decide
theorem test_illformed_tpWindowEnd : Instr.wf (.tpWindowEnd 8) = false := by decide
theorem test_illformed_ocBlankEnd : Instr.wf (.ocBlankEnd 128) = false := by decide
theorem test_illformed_hmpOpen : Instr.wf (.hmpOpen 0 0 (List.replicate 31 0) 0) = false := by decide
theorem test_illformed_mcpKx : Instr.wf (.mcpKx 0 (List.replicate 31 0)) = false := by decide
theorem test_illformed_dbgAuth : Instr.wf (.dbgAuth 0 (List.replicate 31 0)) = false := by decide

/-! ## Small states -/

/-- READY at tick 1,000,000 with the main clock running. -/
def sysR : Sys := { phase := .ready, mainClock := true, tb := 1000000, settled := 1000000 }

/-- READY with an open session. -/
def rdy (l : Level) : State := { State.reset with sys := sysR, hmp := { session := some l } }

/-- READY at another tick. -/
def later (t : Nat) : State := { rdy .user with sys := { sysR with tb := t, settled := t } }

/-- READY with channel 0. -/
def chS (l : Level) (c : Chan) : State := { rdy l with chans := [(0, c)] }

/-- A channel in use. -/
def ch1 : Chan := { ch := { cfg := 1 } }

/-- A GOOD channel with a margin mode and a wide clamp band. -/
def mgnCh (mode : Nat) (st : MgnState) : Chan :=
  { ch := { cfg := 1, mgnCfg := w32 mode }, sense := { act := { ov := 800, uv := 100 } }, rail := { state := .good },
    mgn := { st := st } }

/-- READY with channel HS in a state. -/
def hsIn (x : RailState) : State := { rdy .user with chans := [(HS, { rail := { state := x } })] }

/-- A phase of start-up at tick 0. -/
def boot (p : Phase) : State := { State.reset with sys := { phase := p, mainClock := true } }

/-- S5 with channel 7 in use, not yet sampled. -/
def s5Ch : State := { boot .s5 with chans := [(7, ch1)] }

/-- READY with channel 7, whose next sample is its first. -/
def slotCh : State := { rdy .user with chans := [(7, ch1)] }

/-- A channel whose fit ends a qualified probe with four baselines held. -/
def fitPass : Chan :=
  { ch := { cfg := 1 }
    sense := { act := { nom := w32 1000 } }
    prb := { phase := .fit, deltaV := 10, base := List.replicate 4 (1000, 1000, 60) } }

/-- VAUX has collapsed. -/
def collapsed : State := { State.reset with sys := { phase := .s1, vauxDown := true } }

/-- The main clock has stopped after S2. -/
def stopped : State := { State.reset with sys := { phase := .ready }, wdg := { q := 1 } }

/-- An orderly reset of RESET_N in progress. -/
def orderly : State := { rdy .user with sys := { sysR with pend := some { cause := 8, since := 0 } } }

/-- A soft reset waits for its tick, the present one. -/
def softWaits : State := { rdy .user with sys := { sysR with softAt := some 1000000 } }

/-- Rail island 2 is lost. -/
def lostTwo : State := { rdy .user with sys := { sysR with lost := 4 } }

/-- Winter, entered at tick 0, now at tick 100,000,000. -/
def winter (policy wakes : Nat) : State :=
  { later 100000000 with pwr := { rung := .winter, policy := w32 policy, wakeWinter := w32 wakes } }

/-- 64 bytes. -/
def ones : List Byte := List.replicate 64 1

/-- A host line write in progress. -/
def hostLine : State := { rdy .user with env := { acc := some { line := 64, bytes := ones, granted := some 0 } } }

/-- A key command's line write in progress. -/
def keyLine : State := { rdy .user with sec := { keyBusy := some (64, ones) } }

/-- The first line of the user area. -/
def userBase : Nat := regionBase .dz128 .user

/-- The host line address at a written line of the user area. -/
def userLine (l : Level) : State := { rdy l with env := { accAddr := userBase, marked := [(userBase, true)] } }

/-- One record line in the journal. -/
def oneRecord : State := { rdy .operator with env := ({} : Env).putLine (logAddr .dz128 0) ones }

/-- A transition log entry. -/
def tEntry : TEntry := { rail := 0, old := .off, new := .waiting, cause := 0, stamp := 5 }

/-- A fault log entry. -/
def fEntry : FEntry := { src := 3, kind := 0, level := 1, origin := 0, inj := false, stamp := 5 }

/-- A step of the safe state. -/
def safeAt (k : Nat) : Safe := { step := k, stamp := 0, origin := 0 }

/-- A passthrough read on the PMBus. -/
def pmbCur : State := { rdy .user with pmb := { cur := some { dev := 31, cmd := 0x79, data := none, use := .pass, page := 0 } } }

/-- The MCP in service with bytes of block 0 arrived. -/
def mcpBlk (bytes : Nat) : Mcp := { link := .up, rxBytes := [(0, bytes)], blkAt := 999901 }

/-- A follower whose up port is up. -/
def fol (st : CasSt) : State := { rdy .user with cas := { st := st, ports := [(0, { link := .up })] } }

/-- A joined follower whose down port 1 is up. -/
def folDown : State := { rdy .user with cas := { st := .joined, ports := [(1, { link := .up })] } }

/-- A leader. -/
def leadS (l : Level) : State := { rdy l with sys := { sysR with strap := true } }

/-- A leader whose down port 4 is up. -/
def lead : State := { leadS .user with cas := { st := .leader, addr := 0, ports := [(4, { link := .up })] } }

/-! ## Witnesses: each shows a state and operands that meet all hypotheses of each clause of the statement of its name -/

theorem wit_StepRunsFrontCommand :
    ∃ (s : State) (c : Instr) (rest : List Instr), s.pending = c :: rest :=
  ⟨{ rdy .user with pending := [.cntFreeze] }, .cntFreeze, [], rfl⟩

theorem wit_IdleStepPassesOneTick :
    ∃ s : State, s.pending = [] :=
  ⟨(rdy .user), rfl⟩

theorem wit_StoreFormKept :
    ∃ s t : State, Safety.Memory.wf s = true ∧ step s = .next t :=
  ⟨(rdy .user), _, rfl, rfl⟩

theorem wit_TimebaseNeverBack :
    ∃ s t : State, s.pending.head? ≠ some .powerOnResetRelease ∧ step s = .next t :=
  ⟨{ rdy .user with pending := [.cntFreeze] }, _, by decide, rfl⟩

theorem wit_LostIslandsStayLost :
    (∃ (c : Instr) (s t : State) (i : Nat), Safety.resets c = false ∧ exec c s = .next t ∧ s.islLost i = true) ∧
    (∃ (s t : State) (i : Nat), step s = .next t ∧ s.islLost i = true) ∧
    (∃ s t : State, s.pending = [] ∧ step s = .next t) :=
  ⟨⟨(.islandLost 3), lostTwo, _, 2, rfl, rfl, rfl⟩,
    ⟨{ lostTwo with pending := [.islandLost 3] }, _, 2, rfl, rfl⟩,
    ⟨(rdy .user), _, rfl, rfl⟩⟩

theorem wit_QueueFrame :
    (∃ (c : Instr) (s t : State), exec c s = .next t) ∧
    (∃ s t : State, step s = .next t) :=
  ⟨⟨.hldHold, (rdy .operator), _, rfl⟩,
    ⟨{ rdy .operator with pending := [.hldHold, .hldRelease] }, _, rfl⟩⟩

theorem wit_FusesFrame :
    (∃ (c : Instr) (s t : State), exec c s = .next t ∧ (∀ b : Bool, c ≠ .lcOperationDone b)) ∧
    (∃ s : State, s.sec.lcOp = none) ∧
    (∃ (c : Instr) (s t : State), exec c s = .next t) ∧
    (∃ s t : State, step s = .next t) :=
  ⟨⟨(.toRetired 0x1C5A), (rdy .owner), _, rfl, fun _ h => Instr.noConfusion h⟩,
    ⟨(rdy .owner), rfl⟩,
    ⟨(.toRetired 0x1C5A), (rdy .owner), _, rfl⟩,
    ⟨(rdy .owner), _, rfl⟩⟩

theorem wit_StoreFrame :
    ∃ (c : Instr) (s t : State), Safety.writesStore c = false ∧ Safety.resets c = false ∧ Safety.anyRegister c = false ∧ exec
    c s = .next t :=
  ⟨.hldHold, (rdy .operator), _, rfl, rfl, rfl, rfl⟩

theorem wit_PinsAndJtagFrame :
    (∃ (c : Instr) (s t : State), Safety.writesPins c = false ∧ Safety.loads c = false ∧ Safety.resets c = false ∧
    Safety.anyRegister c = false ∧ exec c s = .next t) ∧
    (∃ (c : Instr) (s t : State), Safety.writesJtag c = false ∧ Safety.resets c = false ∧ Safety.anyRegister c = false ∧ exec
    c s = .next t) :=
  ⟨⟨.hldHold, (rdy .operator), _, rfl, rfl, rfl, rfl, rfl⟩,
    ⟨(.gpioOutSet 2 1), (rdy .operator), _, rfl, rfl, rfl, rfl⟩⟩

theorem wit_ConfigBusCampaignFrame :
    (∃ (c : Instr) (s t : State), Safety.writesConfig c = false ∧ Safety.loads c = false ∧ Safety.resets c = false ∧
    Safety.anyRegister c = false ∧ exec c s = .next t) ∧
    (∃ (c : Instr) (s t : State), Safety.writesPmbus c = false ∧ Safety.loads c = false ∧ Safety.resets c = false ∧
    Safety.anyRegister c = false ∧ exec c s = .next t) ∧
    (∃ (c : Instr) (s t : State), Safety.writesCampaign c = false ∧ Safety.resets c = false ∧ Safety.anyRegister c = false ∧
    exec c s = .next t) ∧
    (∃ (c : Instr) (s t : State), Safety.writesLinkTests c = false ∧ Safety.resets c = false ∧ Safety.anyRegister c = false ∧
    exec c s = .next t) :=
  ⟨⟨.hldHold, (rdy .operator), _, rfl, rfl, rfl, rfl, rfl⟩,
    ⟨.hldHold, (rdy .operator), _, rfl, rfl, rfl, rfl, rfl⟩,
    ⟨.hldHold, (rdy .operator), _, rfl, rfl, rfl, rfl⟩,
    ⟨.hldHold, (rdy .operator), _, rfl, rfl, rfl, rfl⟩⟩

theorem wit_TimebaseOverResets :
    (∃ s : State, (s.sys.phase = .por ∨ s.sys.vauxDown = true)) ∧
    (∃ (c : Instr) (s t : State), Safety.resets c = true ∧ c ≠ .powerOnResetRelease ∧ exec c s = .next t) :=
  ⟨⟨State.reset, by decide⟩,
    ⟨.vauxRecover, collapsed, _, rfl, by decide, rfl⟩⟩

theorem wit_ResetCauseBits :
    (∃ s : State, (s.sys.phase = .por ∨ s.sys.vauxDown = true)) ∧
    (∃ s : State, s.sys.vauxDown = true) ∧
    (∃ s : State, s.sys.mainClock = false ∧ s.rungOk = true ∧ s.s2Done = true ∧ s.sys.vauxDown = false) ∧
    (∃ (s : State) (p : ResetPend), s.sys.pend = some p ∧ s.resetWaits = false) ∧
    (∃ (s : State) (csRise : Bool) (t : Nat), s.sys.softAt = some t ∧ (csRise = true ∨ t ≤ s.now) ∧ s.resetWaits = false) ∧
    (∃ (s : State) (_cause k : Nat), s.sys.rstCause.testBit k = true) :=
  ⟨⟨State.reset, by decide⟩,
    ⟨collapsed, rfl⟩,
    ⟨stopped, rfl, rfl, rfl, rfl⟩,
    ⟨orderly, { cause := 8, since := 0 }, rfl, rfl⟩,
    ⟨softWaits, false, 1000000, rfl, by decide, rfl⟩,
    ⟨State.reset, 5, 0, rfl⟩⟩

theorem wit_ViewRequestCodes :
    (∃ (s : State) (l : Level) (_cnt : Bool), s.writer 0x20 .operator = some l ∧ s.viewBusy = false ∧ s.rungOk = true) ∧
    (∃ (s : State) (l : Level) (_cnt : Bool), s.writer 0x20 .operator = some l ∧ s.viewBusy = true ∧ s.rungOk = true) ∧
    (∃ (s : State) (_cnt : Bool), s.viewBusy = false ∧ s.rungOk = false ∧ (s.configured = true ∨ s.sys.phase = .recovery) ∧
    s.sys.vauxDown = false) :=
  ⟨⟨(rdy .operator), .operator, true, rfl, rfl, rfl⟩,
    ⟨{ rdy .operator with sys := { sysR with viewReq := some {} } }, .operator, true, rfl, rfl, rfl⟩,
    ⟨(winter 0 0), true, rfl, rfl, by decide, rfl⟩⟩

theorem wit_TransitionLogAccess :
    (∃ (s : State) (e : TEntry) (r : List TEntry), s.hmp.session.isSome = true ∧ s.hmpUp = true ∧ s.notReady 0x2060 false =
    false ∧ s.rungOk = true ∧ s.islLost (islServing 0x2060) = false ∧ s.seq.tlog = e :: r) ∧
    (∃ s : State, s.seq.tlog = []) ∧
    (∃ (s : State) (l : Level), s.writer 0x2068 .operator = some l) :=
  ⟨⟨{ rdy .user with seq := { tlog := [tEntry] } }, tEntry, [], rfl, rfl, rfl, rfl, rfl, rfl⟩,
    ⟨(rdy .user), rfl⟩,
    ⟨(rdy .operator), .operator, rfl⟩⟩

theorem wit_WatchdogModeRefusals :
    (∃ (s : State) (l : Level) (_i : BitVec 3) (_a _v _k : BitVec 16), s.writer 0x30014 .user = some l ∧ s.writer 0x30018
    .user = some l ∧ s.writer 0x3001C .user = some l ∧ s.wdg.run = false) ∧
    (∃ (s : State) (l : Level) (_i : BitVec 3) (_a : BitVec 16), s.writer 0x30014 .user = some l ∧ s.wdgCatch = s ∧
    s.wdg.expAt ≠ some s.now ∧ s.wdg.run = true ∧ s.wdg.qa = false) ∧
    (∃ (s : State) (l : Level) (_v : BitVec 16), s.writer 0x30018 .user = some l ∧ s.wdgCatch = s ∧ s.wdg.expAt ≠ some s.now
    ∧ s.wdg.run = true ∧ s.wdg.qa = false) ∧
    (∃ (s : State) (l : Level) (_k : BitVec 16), s.writer 0x3001C .user = some l ∧ s.wdgCatch = s ∧ s.keyEnds = s ∧
    s.wdg.expAt ≠ some s.now ∧ s.wdg.run = true ∧ s.wdg.qa = true) :=
  ⟨⟨(rdy .user), .user, 7, 0, 0, 0, rfl, rfl, rfl, rfl⟩,
    ⟨{ rdy .user with wdg := { run := true, qa := false } }, .user, 7, 0, rfl, rfl, by decide, rfl, rfl⟩,
    ⟨{ rdy .user with wdg := { run := true, qa := false } }, .user, 0, rfl, rfl, by decide, rfl, rfl⟩,
    ⟨{ rdy .user with wdg := { run := true, qa := true } }, .user, 0xA5C3, rfl, rfl, rfl, by decide, rfl, rfl⟩⟩

theorem wit_PowerRequestChecks :
    ∃ (s : State) (l : Level) (r : Rung) (c : Instr), ((r = .summer ∧ c = .pwrToSummer) ∨ (r = .autumn ∧ c = .pwrToAutumn) ∨
    (r = .winter ∧ c = .pwrToWinter) ∨ (r = .midwinter ∧ c = .pwrToMidwinter)) ∧ s.writer 0x1004 .user = some l :=
  ⟨(rdy .user), .user, .midwinter, .pwrToMidwinter, by decide, rfl⟩

theorem wit_LifecycleFromFuses :
    ∃ s : State, s.sys.taken.lcs < 65536 :=
  ⟨{ rdy .user with sys := { sysR with taken := { lcs := 0xFFFF } } }, by decide⟩

theorem wit_LineWriteFrame :
    (∃ (s t : State) (o : AccOp) (b : Nat), s.env.acc = some o ∧ exec .envLineWriteDone s = .next t ∧ (b < o.line ∨ o.line +
    64 ≤ b)) ∧
    (∃ (s : State) (o : AccOp) (g : Nat), s.env.acc = some o ∧ o.granted = some g ∧ g + lineTime ≤ s.now ∧ s.ctrlUp = true ∧
    o.line % 64 = 0 ∧ o.bytes.length = 64) ∧
    (∃ (s t : State) (a b : Nat) (l : List (BitVec 8)), s.sec.keyBusy = some (a, l) ∧ exec .keyCmdDone s = .next t ∧ (b < a ∨
    a + 64 ≤ b)) ∧
    (∃ (s : State) (a : Nat) (l : List (BitVec 8)), s.sec.keyBusy = some (a, l) ∧ s.ctrlUp = true ∧ s.rungOk = true ∧ a % 64
    = 0 ∧ l.length = 64) :=
  ⟨⟨hostLine, _, { line := 64, bytes := ones, granted := some 0 }, 128, rfl, rfl, by decide⟩,
    ⟨hostLine, { line := 64, bytes := ones, granted := some 0 }, 0, rfl, rfl, by decide, rfl, rfl, rfl⟩,
    ⟨keyLine, _, 64, 128, ones, rfl, rfl, by decide⟩,
    ⟨keyLine, 64, ones, rfl, rfl, rfl, rfl, rfl⟩⟩

theorem wit_OneGroupCommandsFrame :
    (∃ (c : Instr) (s t : State), exec c s = .next t ∧ ((∃ p b, c = .gpioOutSet p b) ∨ (∃ p b, c = .gpioOutClr p b) ∨ (∃ p v,
    c = .gpioDirWrite p v) ∨ (∃ k v, c = .gpioMirSelWrite k v) ∨ (∃ p k m, c = .gpioLock p k m) ∨ (∃ p, c =
    .gpioLockPairTimeout p) ∨ (∃ p n l, c = .pinLineEdge p n l))) ∧
    (∃ (c : Instr) (s t : State), exec c s = .next t ∧ (c = .cntSnapCapture ∨ c = .cntSnapDone ∨ (∃ n j v, c =
    .cntLeafLoWrite n j v) ∨ (∃ p, c = .tpWindowEnd p))) ∧
    (∃ (c : Instr) (s t : State), exec c s = .next t ∧ (c = .cntFreeze ∨ c = .cntThaw ∨ c = .cntSnap)) ∧
    (∃ (c : Instr) (s t : State), exec c s = .next t ∧ (c = .seqTlogRead ∨ c = .seqTlogClr ∨ (∃ d, c = .seqSpringCtlWrite
    d))) ∧
    (∃ (c : Instr) (s t : State), exec c s = .next t ∧ (c = .fltLogRead ∨ c = .fltLogClr ∨ (∃ i, c = .sourceLevelDecay i))) ∧
    (∃ (c : Instr) (s t : State), exec c s = .next t ∧ ((∃ l, c = .installSkey l) ∨ (∃ i, c = .installCkey i))) ∧
    (∃ (c : Instr) (s t : State), exec c s = .next t ∧ (c = .wdgWindowOpen ∨ c = .wdgStart ∨ c = .wdoPulseEnd)) ∧
    (∃ (c : Instr) (s t : State), exec c s = .next t ∧ (c = .hmpNonceExpiry ∨ c = .hmpLockoutEnd)) ∧
    (∃ (c : Instr) (s t : State), exec c s = .next t ∧ (c = .dbgNonceExpiry ∨ c = .dbgLockoutEnd)) ∧
    (∃ (c : Instr) (s t : State), exec c s = .next t ∧ c = .envLineWriteDone) :=
  ⟨⟨(.gpioOutSet 2 1), (rdy .operator), _, rfl, .inl ⟨_, _, rfl⟩⟩,
    ⟨.cntSnapCapture, { rdy .operator with cnt := { req := some 1000000 } }, _, rfl, .inl rfl⟩,
    ⟨.cntFreeze, (rdy .operator), _, rfl, .inl rfl⟩,
    ⟨.seqTlogClr, (rdy .operator), _, rfl, .inr (.inl rfl)⟩,
    ⟨.fltLogClr, (rdy .operator), _, rfl, .inr (.inl rfl)⟩,
    ⟨(.installSkey 1), (rdy .owner), _, rfl, .inl ⟨_, rfl⟩⟩,
    ⟨.wdgStart, (rdy .operator), _, rfl, .inr (.inl rfl)⟩,
    ⟨.hmpLockoutEnd, { rdy .user with hmp := { lockEnd := some 0 } }, _, rfl, .inr rfl⟩,
    ⟨.dbgLockoutEnd, { rdy .user with jtag := { lockEnd := some 0 } }, _, rfl, .inr rfl⟩,
    ⟨.envLineWriteDone, hostLine, _, rfl, rfl⟩⟩

theorem wit_ChannelCommandsFrame :
    ∃ (c : Instr) (n : Nat) (s t : State), exec c s = .next t ∧ ((∃ r v, c = .thresholdStageWrite n r v) ∨ c = .chDiscard n ∨
    (∃ k, c = .chLockKey n k) ∨ c = .chLockPairTimeout n ∨ (∃ k v, c = .comparatorRelease n k v)) :=
  ⟨(.chDiscard 0), 0, (chS .operator ch1), _, rfl, .inr (.inl rfl)⟩

theorem wit_StartUpStagesComplete :
    (∃ s : State, (s.sys.phase = .por ∨ s.sys.vauxDown = true)) ∧
    (∃ (s : State) (_badA _badB : BitVec 8) (_strap : Bool), s.sys.phase = .s1 ∧ s.sys.vauxDown = false) ∧
    (∃ (s : State) (_vio33 : Bool), (s.sys.phase = .s2 ∨ s.sys.phase = .halt) ∧ s.s2Done = false ∧ s.sys.vauxDown = false) ∧
    (∃ (s : State) (_f : LineFlaws), s.sys.phase = .s3 ∧ s.sys.mainClock = true ∧ s.sys.vauxDown = false) ∧
    (∃ (s : State) (_f : LineFlaws), s.sys.phase = .s4 ∧ s.reloading = false ∧ s.ctrlUp = true) ∧
    (∃ s : State, s.sys.phase = .s5 ∧ s.reloading = false ∧ s.ctrlUp = true ∧ s.sampled = true) :=
  ⟨⟨State.reset, by decide⟩,
    ⟨(boot .s1), 0, 0, true, rfl, rfl⟩,
    ⟨(boot .s2), true, by decide, rfl, rfl⟩,
    ⟨(boot .s3), [], rfl, rfl, rfl⟩,
    ⟨(boot .s4), [], rfl, rfl, rfl⟩,
    ⟨(boot .s5), rfl, rfl, rfl, rfl⟩⟩

theorem wit_DeviceResetsComplete :
    (∃ s : State, s.sys.phase ≠ .por ∧ s.sys.vauxDown = false) ∧
    (∃ s : State, s.sys.vauxDown = true) ∧
    (∃ s : State, s.sys.mainClock = false ∧ s.rungOk = true ∧ s.s2Done = true ∧ s.sys.vauxDown = false) ∧
    (∃ (s u : State), s.sys.phase ≠ .por ∧ s.sys.vauxDown = false ∧ s.sys.pend = none ∧ u =
    { s with sys := { s.sys with pend := some { cause := 8, since := s.now } } }) ∧
    (∃ (s : State) (p : ResetPend), s.sys.phase ≠ .por ∧ s.sys.vauxDown = false ∧ s.sys.pend = some p) ∧
    (∃ (s : State) (p : ResetPend), s.sys.pend = some p ∧ s.resetWaits = false) ∧
    (∃ (s : State) (l : Level), s.writer 0x64 .user = some l ∧ l.ge .owner = true ∧ s.railsOff = true) ∧
    (∃ (s : State) (csRise : Bool) (t : Nat), s.sys.softAt = some t ∧ (csRise = true ∨ t ≤ s.now) ∧ s.resetWaits = false) :=
  ⟨⟨(rdy .user), by decide, rfl⟩,
    ⟨collapsed, rfl⟩,
    ⟨stopped, rfl, rfl, rfl, rfl⟩,
    ⟨(rdy .user), _, by decide, rfl, rfl, rfl⟩,
    ⟨orderly, _, by decide, rfl, rfl⟩,
    ⟨orderly, _, rfl, rfl⟩,
    ⟨(rdy .owner), .owner, rfl, rfl, rfl⟩,
    ⟨softWaits, false, 1000000, rfl, by decide, rfl⟩⟩

theorem wit_ViewAndIslandsComplete :
    (∃ (s : State) (l : Level) (_cnt : Bool), s.writer 0x20 .operator = some l ∧ s.viewRefusal false = 0) ∧
    (∃ (s : State) (l : Level) (_cnt : Bool), s.writer 0x20 .operator = some l ∧ s.viewRefusal true = 0) ∧
    (∃ (s u : State) (r : ViewReq), s.sys.viewReq = some r ∧ r.at_ ≤ s.now ∧ s.ctrlUp = true ∧ s.rungOk = true ∧ (r.eqx =
    false ∨ s.sys.strap = true ∨ s.lockedNow = true) ∧ u =
    { s with sys := { s.sys with viewReq := none, shadow := some (r, s.viewWords) } }) ∧
    (∃ (s u : State) (r : ViewReq), s.sys.viewReq = some r ∧ r.at_ ≤ s.now ∧ s.ctrlUp = true ∧ s.rungOk = true ∧ r.eqx = true
    ∧ s.sys.strap = false ∧ s.lockedNow = false ∧ u =
    { s with sys := { s.sys with viewReq := none, viewCode := 5, irq := Irq.set s.sys.irq 1 } }) ∧
    (∃ (s : State) (r : ViewReq) (ws : Tab Word), s.sys.shadow = some (r, ws) ∧ s.settledBy r.at_ = true) ∧
    (∃ (s : State) (i : Nat), s.hasIsl i = true ∧ s.islLost i = false ∧ s.ctrlUp = true ∧ s.rungOk = true) ∧
    (∃ (s : State) (i : Nat) (_slip : Int), s.sys.strobe % 256 = 0 ∧ s.hasIsl i = true ∧ s.islLost i = false ∧ s.ctrlUp =
    true ∧ s.rungOk = true) :=
  ⟨⟨(rdy .operator), .operator, true, rfl, by decide⟩,
    ⟨{ rdy .operator with sys := { sysR with viewAt := 1000016 } }, .operator, false, rfl, by decide⟩,
    ⟨{ rdy .user with sys := { sysR with viewReq := some { at_ := 1000000 } } }, _, _, rfl, by decide, rfl, rfl, by decide,
    rfl⟩,
    ⟨{ rdy .user with sys := { sysR with viewReq := some { at_ := 1000000, eqx := true } } }, _, _, rfl, by decide, rfl, rfl,
    rfl, rfl, rfl, rfl⟩,
    ⟨{ rdy .user with sys := { sysR with settled := 999999, shadow := some ({ at_ := 999999 }, []) } }, _, _, rfl, rfl⟩,
    ⟨(rdy .user), 19, rfl, rfl, rfl, rfl⟩,
    ⟨(rdy .user), 15, (-1), rfl, rfl, rfl, rfl, rfl⟩⟩

theorem wit_ChannelSensingCompletes :
    (∃ (s p u : State) (n level held : Nat) (k : Cmp), s.chanRuns n = true ∧ p = s.prior.armDue n ∧ p.chanRuns n = true ∧
    ((p.chan n).sense.cmp k).live = false ∧ ((p.chan n).sense.thrOn p.now).beyond k level = true ∧ fld (((p.chan
    n).sense.thrOn p.now).cmp k) 16 4 + 1 ≤ held ∧ ((p.chan n).sense.cmp k).holdEnd = none ∧ u = p.modChan n (fun c =>
    { c with sense := c.sense.setCmp k { (p.chan n).sense.cmp k with live := true, out := true } })) ∧
    (∃ (s p : State) (n level held e : Nat) (k : Cmp), s.chanRuns n = true ∧ p = s.prior.armDue n ∧ p.chanRuns n = true ∧
    ((p.chan n).sense.cmp k).live = false ∧ ((p.chan n).sense.thrOn p.now).beyond k level = true ∧ fld (((p.chan
    n).sense.thrOn p.now).cmp k) 16 4 + 1 ≤ held ∧ ((p.chan n).sense.cmp k).holdEnd = some e ∧ (p.chan n).sense.was = none) ∧
    (∃ (s : State) (n level : Nat) (k : Cmp), s.chanRuns n = true ∧ ((s.chan n).sense.cmp k).live = true ∧ (s.chan
    n).sense.act.back k level = true) ∧
    (∃ (s : State) (n _v _i : Nat), s.slotDue n = true ∧ ((s.sys.phase = .s5 ∨ s.reloading = true)) ∧ s.running = false ∧
    s.ctrlUp = true ∧ s.inUse n = true ∧ s.islLost (islOf n) = false) ∧
    (∃ (s p : State) (n v i : Nat), s.slotDue n = true ∧ s.chanRuns n = true ∧ p = ((s.prior.takeSample n v i).goodUpd n
    s.now).bandCheck n (min 4095 v) s.now) ∧
    (∃ (s : State) (n _v _i : Nat), s.slotDue n = false) ∧
    (∃ (s u : State) (n : Nat) (level : Bool), n < nCh s.hw.variant ∧ u = s.modChan n (fun c =>
    { c with sense := { c.sense with pgPin := level } })) ∧
    (∃ (s u : State) (n e : Nat), s.itemAt .hold n = some e ∧ s.lastOf e = true ∧ u = s.upTo e SeqItem.hold.rank ∧ u.itemAt
    .hold n = some e) ∧
    (∃ (s : State) (n e : Nat) (k : Cmp), ((s.chan n).sense.cmp k).holdEnd = some e ∧ e ≤ s.now ∧ ((s.chan n).sense.cmp
    k).live = false) ∧
    (∃ (s p : State) (n e : Nat), s.itemAt .blank n = some e ∧ s.lastOf e = true ∧ p = s.upTo e SeqItem.blank.rank ∧ p.itemAt
    .blank n = some e) :=
  ⟨⟨(chS .user { ch1 with sense := { en := true, act := { ov := 1022 } } }), _, _, 0, 4089, 1, .ov, rfl, rfl, rfl, rfl, rfl,
    by decide, rfl, rfl⟩,
    ⟨(chS .user { ch1 with sense := { en := true, act := { ov := 1022 }, ov := { holdEnd := some 1000001 } } }), _, 0, 4089,
    1, _, .ov, rfl, rfl, rfl, rfl, rfl, by decide, rfl, rfl⟩,
    ⟨(chS .user { ch1 with sense := { act := { uv := 512 }, uv := { live := true } } }), 0, 2049, .uv, rfl, rfl, rfl⟩,
    ⟨s5Ch, 7, 4095, 0, rfl, by decide, rfl, rfl, rfl, rfl⟩,
    ⟨slotCh, _, 7, 4095, 4095, rfl, rfl, rfl⟩,
    ⟨{ rdy .user with chans := [(7, { ch1 with sense := { vt := [0] } })] }, 7, 4095, 0, rfl⟩,
    ⟨(rdy .user), _, 127, true, by decide, rfl⟩,
    ⟨(chS .user { ch1 with sense := { uv := { holdEnd := some 999999 } } }), _, 0, 999999, rfl, rfl, rfl, rfl⟩,
    ⟨(chS .user { ch1 with sense := { uv := { holdEnd := some 1000000 } } }), 0, _, .uv, rfl, by decide, rfl⟩,
    ⟨(chS .user { ch1 with sense := { ocBlankEnd := some 999999 } }), _, 0, 999999, rfl, rfl, rfl, rfl⟩⟩

theorem wit_ThresholdCommandsComplete :
    (∃ (s : State) (l : Level) (n reg : Nat) (_w : BitVec 32), reg < 6 ∧ s.writer (chReg n (4 + 4 * reg)) .operator = some l
    ∧ s.inUse n = true ∧ (s.chan n).sense.locked = false) ∧
    (∃ (s : State) (l : Level) (n : Nat), s.writer (chReg n 0x20) .operator = some l ∧ s.inUse n = true) ∧
    (∃ (s : State) (n : Nat), (s.chan n).sense.stg ≠ (s.chan n).sense.act ∧ (s.chan n).applyCheck = 0) ∧
    (∃ (s : State) (n : Nat), (s.chan n).sense.stg ≠ (s.chan n).sense.act ∧ (s.chan n).applyCheck ≠ 0) ∧
    (∃ (s : State) (l : Level) (n : Nat), s.writer (chReg n 0x20) .operator = some l ∧ s.inUse n = true) ∧
    (∃ (s : State) (l : Level) (n : Nat), s.writer (chReg n 0x24) .operator = some l ∧ s.inUse n = true ∧ (s.chan
    n).sense.lockAt = none) ∧
    (∃ (s : State) (l : Level) (n a : Nat), s.writer (chReg n 0x24) .operator = some l ∧ s.inUse n = true ∧ (s.chan
    n).sense.lockAt = some a) ∧
    (∃ (s : State) (n a : Nat), (s.chan n).sense.lockAt = some a ∧ a + 1000 ≤ s.now) :=
  ⟨⟨(chS .operator ch1), .operator, 0, 5, 0, by decide, rfl, rfl, rfl⟩,
    ⟨(chS .operator ch1), .operator, 0, rfl, rfl⟩,
    ⟨(chS .operator
    { ch1 with sense := { stg := { ov := 1023, uv := 1, good := 0x0FFB0005, nom := 5, vdis := 0x03E80004 } } }), 0, by
    decide, by decide⟩,
    ⟨(chS .operator { ch1 with sense := { stg := { ov := 1 } } }), 0, by decide, by decide⟩,
    ⟨(chS .operator ch1), .operator, 0, rfl, rfl⟩,
    ⟨(chS .operator ch1), .operator, 0, rfl, rfl, rfl⟩,
    ⟨(chS .operator { ch1 with sense := { lockAt := some 999999 } }), .operator, 0, 999999, rfl, rfl, rfl⟩,
    ⟨(chS .user { ch1 with sense := { lockAt := some 999000 } }), 0, 999000, rfl, by decide⟩⟩

theorem wit_HotSwapCompletes :
    (∃ (s p u r w : State) (k code : Nat), s.samples = true ∧ s.running = true ∧ k < nHvs s.hw.variant ∧ p = s.prior ∧ (u =
    { p with hs := p.hs.hvsTake k (min 4095 code), hld := if k = 0 then { p.hld with vinOk := if fld p.hld.volt 16 12 ≤ min 4095 code then incTo 100 p.hld.vinOk else 0 } else p.hld })
    ∧ r = u.reports (p.hs.hvsEvents u.hs k) u.now ∧ (w = (if k = r.holdupIdx then
    ((({ r with hs := { r.hs with holdOk := decide (fld r.hs.goodThr 0 12 ≤ min 4095 code) } }).capSample (min 4095 code)
    r.now).energy (min 4095 code)).floorCheck (min 4095 code) else r))) ∧
    (∃ (_h : Hs) (k _code : Nat), k ≤ 3) ∧
    (∃ (s : State) (k _code : Nat), s.samples = true ∧ s.running = false ∧ k < nHvs s.hw.variant) ∧
    (∃ (s : State) (_code : Nat), s.samples = true) ∧
    (∃ (s u : State) (held : Nat), s.running = true ∧ s.hs.brkOut = false ∧ fld s.hs.brk 16 4 + 1 ≤ held ∧ u =
    { s.prior with hs := { s.prior.hs with brkOut := true } }) ∧
    (∃ (s u : State) (t : Nat), s.itemAt .hsLoss HS = some t ∧ s.lastOf t = true ∧ u = s.upTo t SeqItem.hsLoss.rank ∧
    u.itemAt .hsLoss HS = some t) ∧
    (∃ s u : State, s.running = true ∧ s.hsGate = true ∧ (u =
    { s.prior with hs := { s.prior.hs with gateOn := true }, hld := if s.prior.hld.rideWait then { s.prior.hld with rideWait := false, isolated := false, cause := { s.prior.hld.cause with loss := false } } else s.prior.hld })) ∧
    (∃ s p u w : State, s.configured = true ∧ s.pwr.vinLoss = false ∧ s.vinThr ≠ 0 ∧ p = s.prior ∧ u =
    { p with pwr := { p.pwr with vinLoss := true, lossAt := p.now, lossEnd := 0 }, bbx := p.bbx.lossCut p.hw.variant p.now }
    ∧ w =
    (({ u with hld := { u.hld with cause := { u.hld.cause with loss := true }, isolated := true, rideWait := false }, hs := { u.hs with gateOn := false } }).bbxTrigger
    5 0xFFFF u.now).admission u.now []) ∧
    (∃ s u : State, s.pwr.vinLoss = true ∧ u = { s with pwr := { s.pwr with vinLoss := false, lossEnd := s.now } }) ∧
    (∃ s : State, s.pwr.vinLoss = false) :=
  ⟨⟨(rdy .user), _, _, _, _, 3, 4095, rfl, rfl, by decide, rfl, rfl, rfl, rfl⟩,
    ⟨{}, 3, 4095, by decide⟩,
    ⟨{ rdy .user with sys := { sysR with phase := .recovery } }, 0, 4095, rfl, rfl, by decide⟩,
    ⟨(rdy .user), 4095, rfl⟩,
    ⟨(rdy .user), _, 1, rfl, rfl, by decide, rfl⟩,
    ⟨{ hsIn .good with hs := { goodLossAt := some 999999 } }, _, 999999, rfl, rfl, rfl, rfl⟩,
    ⟨{ hsIn .good with hld := { isolated := true, rideWait := true } }, _, rfl, rfl, rfl⟩,
    ⟨{ rdy .user with hs := { hvs := [(0, { thr := 1 })] } }, _, _, _, rfl, rfl, by decide, rfl, rfl, rfl⟩,
    ⟨{ rdy .user with pwr := { vinLoss := true } }, _, rfl, rfl⟩,
    ⟨(rdy .user), rfl⟩⟩

theorem wit_SequencerRequestsComplete :
    (∃ (s : State) (l : Level), s.writer 0x2000 .user = some l ∧ l.ge .operator = true) ∧
    (∃ (s : State) (l : Level), s.writer 0x2000 .user = some l ∧ l.ge .operator = true) ∧
    (∃ (s : State) (l : Level), s.writer 0x2000 .user = some l ∧ l.ge .operator = false) ∧
    (∃ (s : State) (src _stamp : Nat) (_latched : Bool), s.onHeld src = true) ∧
    (∃ (s : State) (src stamp : Nat), s.onHeld src = false ∧ s.offDue stamp = false ∧ s.falling = true) ∧
    (∃ (s : State) (src stamp : Nat), s.onHeld src = false ∧ s.offDue stamp = true) ∧
    (∃ (s p u : State) (t src : Nat), s.itemAt .latch HS = some t ∧ s.lastOf t = true ∧ p = s.upTo t SeqItem.latch.rank ∧
    p.itemAt .latch HS = some t ∧ u = p.settleTo t ∧ u.seq.onLatch = some src) ∧
    (∃ (s : State) (l : Level) (e : TEntry) (r : List TEntry), s.hmp.session = some l ∧ s.hmpUp = true ∧ s.notReady 0x2060
    false = false ∧ s.rungOk = true ∧ s.islLost 16 = false ∧ s.seq.tlog = e :: r) ∧
    (∃ (s : State) (l : Level), s.writer 0x2068 .operator = some l) ∧
    (∃ (s : State) (l : Level) (_dis : Bool), s.writer 0x20B0 .user = some l) :=
  ⟨⟨(rdy .operator), .operator, rfl, rfl⟩,
    ⟨(rdy .operator), .operator, rfl, rfl⟩,
    ⟨(rdy .user), .user, rfl, rfl⟩,
    ⟨{ hsIn .good with sys := { sysR with phase := .recovery } }, 0, 1000000, false, rfl⟩,
    ⟨(chS .user { ch1 with rail := { state := .stopping } }), 0, 1000000, rfl, rfl, rfl⟩,
    ⟨(chS .user { ch1 with rail := { state := .good, dglEnd := some 999999 } }), 0, 1000000, rfl, rfl⟩,
    ⟨{ rdy .user with seq := { onLatch := some 2 } }, _, _, 0, 2, rfl, rfl, rfl, rfl, rfl, rfl⟩,
    ⟨{ rdy .user with seq := { tlog := [tEntry] } }, .user, tEntry, [], rfl, rfl, rfl, rfl, rfl, rfl⟩,
    ⟨(rdy .operator), .operator, rfl⟩,
    ⟨(rdy .operator), .operator, true, rfl⟩⟩

theorem wit_SequencerTimersComplete :
    (∃ (s p u : State) (r t : Nat), s.itemAt .delay r = some t ∧ s.lastOf t = true ∧ p = s.upTo t SeqItem.delay.rank ∧
    p.itemAt .delay r = some t ∧ u = p.settleTo t) ∧
    (∃ (s p u : State) (r t : Nat), s.itemAt .qual r = some t ∧ s.lastOf t = true ∧ p = s.upTo t SeqItem.qual.rank ∧ p.itemAt
    .qual r = some t ∧ u = p.settleTo t) ∧
    (∃ (s u v : State) (r t : Nat), s.itemAt .start r = some t ∧ s.lastOf t = true ∧ u = s.upTo t SeqItem.start.rank ∧
    u.itemAt .start r = some t ∧ v = (((u.modRail r fun x => { x with failWhy := 1 }).moveRail r .failed 7 t).spreadFrom r
    t)) ∧
    (∃ (s u : State) (n t : Nat), s.itemAt .dgl n = some t ∧ s.lastOf t = true ∧ u = s.upTo t SeqItem.dgl.rank ∧ u.itemAt
    .dgl n = some t) ∧
    (∃ (s u v : State) (n t : Nat), s.itemAt .dis n = some t ∧ s.lastOf t = true ∧ u = s.upTo t SeqItem.dis.rank ∧ u.itemAt
    .dis n = some t ∧ v = (u.moveRail n .dischargeTimeout 7 t).chanEvent (8 * n + 5) t) ∧
    (∃ (s p u v : State) (n t : Nat), s.itemAt .retry n = some t ∧ s.lastOf t = true ∧ p = s.upTo t SeqItem.retry.rank ∧
    p.itemAt .retry n = some t ∧ u = p.settleTo t ∧ v = (u.modRail n fun x => { x with retried := false }).moveRail n
    .waiting 7 t) ∧
    (∃ (s p u : State) (n t : Nat), s.itemAt .spec n = some t ∧ s.lastOf t = true ∧ p = s.upTo t SeqItem.spec.rank ∧ p.itemAt
    .spec n = some t ∧ u = p.settleTo t) :=
  ⟨⟨{ rdy .user with chans := [(HS, { rail := { state := .waiting, due := some 999999 } })] }, _, _, HS, 999999, rfl, rfl,
    rfl, rfl, rfl⟩,
    ⟨{ rdy .user with chans := [(HS, { rail := { state := .qualifying, qualEnd := some 999999, startEnd := some 1000001 } })] },
    _, _, HS, 999999, rfl, rfl, rfl, rfl, rfl⟩,
    ⟨{ rdy .user with chans := [(HS, { rail := { state := .ramping, startEnd := some 999999 } })] }, _, _, HS, 999999, rfl,
    rfl, rfl, rfl, rfl⟩,
    ⟨(chS .user { ch1 with rail := { state := .good, dglEnd := some 999999 } }), _, 0, 999999, rfl, rfl, rfl, rfl⟩,
    ⟨(chS .user { ch1 with rail := { state := .discharging, disEnd := some 999999 } }), _, _, 0, 999999, rfl, rfl, rfl, rfl,
    rfl⟩,
    ⟨(chS .user { ch1 with rail := { state := .retryWait, retryEnd := some 999999 } }), _, _, _, 0, 999999, rfl, rfl, rfl,
    rfl, rfl, rfl⟩,
    ⟨(chS .user { ch1 with rail := { state := .spring, specEnd := some 999999 } }), _, _, 0, 999999, rfl, rfl, rfl, rfl, rfl⟩⟩

theorem wit_PmbusCompletes :
    (∃ (s : State) (n t : Nat), s.running = true ∧ s.sys.phase = .ready ∧ s.inUse n = true ∧ (s.chan n).sense.pollNext = some
    t ∧ t ≤ s.now ∧ wbit (s.chan n).ch.cfg 11 = true ∧ fld (s.chan n).ch.pmb 16 8 ≠ 0 ∧ (s.chan n).sense.polling = false) ∧
    (∃ (s : State) (n : Nat), (fld (s.chan n).ch.pmb 16 8 = 0 ∨ wbit (s.chan n).ch.cfg 11 = false)) ∧
    (∃ (s : State) (n t : Nat), s.running = true ∧ s.sys.phase = .ready ∧ s.inUse n = true ∧ (s.chan n).sense.pollNext = some
    t ∧ t ≤ s.now ∧ wbit (s.chan n).ch.cfg 11 = true ∧ fld (s.chan n).ch.pmb 16 8 ≠ 0 ∧ (s.chan n).sense.polling = true) ∧
    (∃ (s u : State) (x : PmbTxn) (data : BitVec 16), s.running = true ∧ s.pmb.cur = some x ∧ s.pmb.retryAt = none ∧ u =
    s.pmbOk x data.toNat) ∧
    (∃ (s : State) (x : PmbTxn) (e : PmbEnd) (_data : BitVec 16), e ≠ .ok ∧ s.running = true ∧ s.pmb.cur = some x ∧
    s.pmb.retryAt = none ∧ s.pmb.retried = false) ∧
    (∃ (s u : State) (x : PmbTxn) (e : PmbEnd) (_data : BitVec 16), e ≠ .ok ∧ s.running = true ∧ s.pmb.cur = some x ∧
    s.pmb.retryAt = none ∧ s.pmb.retried = true ∧ u =
    ({ s.tpAdd 2 0 0 1 with pmb := { s.pmb with nFail := incTo 0xFFFF s.pmb.nFail } }).pmbGiveUp x (pmbWhy e)) ∧
    (∃ (s : State) (t : Nat), s.running = true ∧ s.pmb.retryAt = some t ∧ t ≤ s.now) ∧
    (∃ s : State, s.running = true ∧ s.pmb.retryAt = none ∧ s.pmb.cur.isSome = true ∧ s.pmb.startedAt + 2500000 ≤ s.now) ∧
    (∃ (s : State) (l : Level) (dev : BitVec 5) (cmd : BitVec 8), s.writer 0xA0064 .user = some l ∧ l.ge .owner = true ∧
    s.pmb.busy = false ∧ dev.toNat < s.pmb.nDev ∧ (pmbPassReads.contains cmd.toNat || cmd.toNat == pmbClear || (cmd.toNat ==
    pmbVout && s.pmbQuiet dev.toNat)) = true) ∧
    (∃ (s : State) (l : Level) (dev : BitVec 5) (cmd : BitVec 8) (c : Nat), s.writer 0xA0064 .user = some l ∧ (c = (if !l.ge
    .owner then 1 else if s.pmb.busy then 2 else if s.pmb.nDev ≤ dev.toNat then 4 else if !(pmbPassReads.contains cmd.toNat
    || cmd.toNat == pmbClear || cmd.toNat == pmbVout) then 3 else if cmd.toNat = pmbVout ∧ !s.pmbQuiet dev.toNat then 5 else
    0)) ∧ c ≠ 0) :=
  ⟨⟨(chS .user { ch1 with ch := { cfg := 0x801, pmb := 0x10000 }, sense := { pollNext := some 1000000 } }), 0, 1000000, rfl,
    rfl, rfl, rfl, by decide, rfl, by decide, rfl⟩,
    ⟨(rdy .user), 0, by decide⟩,
    ⟨(chS .user { ch1 with ch := { cfg := 0x801, pmb := 0x10000 }, sense := { pollNext := some 1000000, polling := true } }),
    0, 1000000, rfl, rfl, rfl, rfl, by decide, rfl, by decide, rfl⟩,
    ⟨pmbCur, _, { dev := 31, cmd := 0x79, data := none, use := .pass, page := 0 }, 0xFFFF, rfl, rfl, rfl, rfl⟩,
    ⟨pmbCur, { dev := 31, cmd := 0x79, data := none, use := .pass, page := 0 }, .badPec, 0, by decide, rfl, rfl, rfl, rfl⟩,
    ⟨{ pmbCur with pmb := { pmbCur.pmb with retried := true } }, _,
    { dev := 31, cmd := 0x79, data := none, use := .pass, page := 0 }, .badPec, 0, by decide, rfl, rfl, rfl, rfl, rfl⟩,
    ⟨{ pmbCur with pmb := { pmbCur.pmb with retryAt := some 1000000 } }, 1000000, rfl, rfl, by decide⟩,
    ⟨{ pmbCur with sys := { sysR with tb := 2500000 } }, rfl, rfl, rfl, by decide⟩,
    ⟨{ rdy .owner with pmb := { nDev := 32 } }, .owner, 31, 0x79, rfl, rfl, rfl, by decide, rfl⟩,
    ⟨(rdy .owner), .owner, 31, 0x79, _, rfl, rfl, by decide⟩⟩

theorem wit_MarginRequestsComplete :
    (∃ (s : State) (l : Level) (n : Nat), s.writer (chReg n 0x88) .user = some l ∧ s.inUse n = true ∧ (s.chTouch
    n).mgnRefusal n 0 l false = 0) ∧
    (∃ (s : State) (l : Level) (n : Nat), s.writer (chReg n 0x88) .user = some l ∧ s.inUse n = true ∧ (s.chTouch
    n).mgnRefusal n 1 l false = 0) ∧
    (∃ (s : State) (l : Level) (n : Nat), s.writer (chReg n 0x88) .user = some l ∧ s.inUse n = true ∧ (s.chTouch
    n).mgnRefusal n 2 l false = 0) ∧
    (∃ (s : State) (l : Level) (n : Nat) (_pct : BitVec 8), s.writer (chReg n 0x88) .user = some l ∧ s.inUse n = true ∧
    (s.chTouch n).mgnRefusal n 3 l false = 0) ∧
    (∃ (s : State) (l : Level) (n : Nat) (_code : BitVec 10), s.writer (chReg n 0x88) .user = some l ∧ s.inUse n = true ∧
    (s.chTouch n).mgnRefusal n 4 l false = 0) ∧
    (∃ (s t : State) (l : Level) (n cmd r : Nat) (pct : BitVec 8) (code : BitVec 10), s.writer (chReg n 0x88) .user = some l
    ∧ s.inUse n = true ∧ cmd ≤ 4 ∧ (s.chTouch n).mgnRefusal n cmd l false = r ∧ r ≠ 0 ∧ (exec
    (match cmd with | 0 => .mgnNominal n | 1 => .mgnHigh n | 2 => .mgnLow n | 3 => .mgnTarget n pct | _ => .mgnOlcode n code)
    s = .next t)) :=
  ⟨⟨(chS .operator (mgnCh 2 .nominal)), .operator, 0, rfl, rfl, rfl⟩,
    ⟨(chS .operator (mgnCh 2 .held)), .operator, 0, rfl, rfl, rfl⟩,
    ⟨(chS .operator (mgnCh 2 .nominal)), .operator, 0, rfl, rfl, rfl⟩,
    ⟨(chS .operator (mgnCh 2 .nominal)), .operator, 0, 0x80, rfl, rfl, rfl⟩,
    ⟨(chS .operator (mgnCh 1 .nominal)), .operator, 0, 1023, rfl, rfl, rfl⟩,
    ⟨(chS .user (mgnCh 2 .nominal)), _, .user, 0, 4, _, 0, 0, rfl, rfl, by decide, rfl, by decide, rfl⟩⟩

theorem wit_MarginEnginesComplete :
    (∃ (s : State) (n : Nat), s.chanRuns n = true ∧ (s.chan n).mode = 2 ∧ ((s.chan n).mgn.st = .moving ∨ (s.chan n).mgn.st =
    .held) ∧ (s.chan n).mgn.nextAt ≤ s.now) ∧
    (∃ (s : State) (n : Nat) (x : Int), s.chanRuns n = true ∧ (s.chan n).mgn.nextAt ≤ s.now ∧ (((s.chan n).mgn.st =
    .returning ∧ (s.chan n).mode ≠ 3) ∨ (s.chan n).prb.phase = .ret) ∧ x = stepTo (s.chan n).sense.trim 0) ∧
    (∃ (s : State) (n : Nat) (x : Int), s.chanRuns n = true ∧ (s.chan n).mgn.nextAt ≤ s.now ∧ (s.chan n).mgn.st = .moving ∧
    (s.chan n).mode = 1 ∧ (s.chan n).prb.phase ≠ .ret ∧ x = stepTo (s.chan n).sense.trim (s.chan n).mgn.goal) ∧
    (∃ (s : State) (l : Level) (corner : BitVec 2) (_abort : Bool), s.writer 0x18200 .operator = some l ∧ corner ≠ 3 ∧
    s.sys.strap = true ∧ s.camp.isBusy = false ∧ s.now + 500 ≤ s.camp.at_ ∧ s.camp.at_ ≤ s.now + 0x1000000) ∧
    (∃ (s : State) (l : Level) (_corner : BitVec 2) (_abort : Bool) (c : Nat), s.writer 0x18200 .operator = some l ∧ (c = (if
    s.sys.strap = false then 4 else if s.camp.isBusy then 1 else if s.camp.at_ < s.now + 500 then 2 else if s.now + 0x1000000
    < s.camp.at_ then 3 else 0)) ∧ c ≠ 0) ∧
    (∃ (s u : State) (t corner : Nat), s.camp.cornerDue s.now = some (t, corner) ∧ s.running = true ∧ u =
    { s with camp := { s.camp with pendAt := s.camp.pendAt.erase (t, corner), reportAt := s.camp.reportAt ++ [t + 200000] } }) ∧
    (∃ (s w : State) (t : Nat) (bad : List Nat), s.tickDone = true ∧ (s.camp.reportAt.find? fun t => decide (t ≤ s.now)) =
    some t ∧ s.running = true ∧ bad = s.members.filter (fun n => decide ((s.chan n).mgn.why ≠ 0)) ∧ w =
    { s with camp := { s.camp with reportAt := s.camp.reportAt.erase t, nMember := s.members.length, nmPass := s.members.length - bad.length, nmFail := bad.length } }) ∧
    (∃ s : State, s.tickDone = false) :=
  ⟨⟨(chS .user (mgnCh 2 .held)), 0, rfl, rfl, by decide, by decide⟩,
    ⟨(chS .user (mgnCh 2 .returning)), 0, _, rfl, by decide, by decide, rfl⟩,
    ⟨(chS .user (mgnCh 1 .moving)), 0, _, rfl, by decide, rfl, rfl, by decide, rfl⟩,
    ⟨{ rdy .operator with sys := { sysR with strap := true }, camp := { at_ := 1000500 } }, .operator, 2, true, rfl, by
    decide, rfl, rfl, by decide, by decide⟩,
    ⟨(rdy .operator), .operator, 3, true, _, rfl, rfl, by decide⟩,
    ⟨{ rdy .user with camp := { pendAt := [(1000000, 2)] } }, _, 1000000, 2, rfl, rfl, rfl⟩,
    ⟨{ rdy .user with sys := { sysR with strap := true }, camp := { reportAt := [1000000] } }, _, 1000000, _, rfl, by decide,
    rfl, rfl, rfl⟩,
    ⟨{ rdy .user with chans := [(HS, { rail := { state := .waiting, due := some 999999 } })] }, rfl⟩⟩

theorem wit_ProbeCompletes :
    (∃ (s : State) (l : Level) (n : Nat), s.writer (chReg n 0x98) .user = some l ∧ l.ge .operator = true ∧ s.inUse n = true ∧
    (s.chan n).prb.phase = .idle) ∧
    (∃ (s : State) (l : Level) (n : Nat), s.writer (chReg n 0x98) .user = some l ∧ l.ge .operator = false ∧ s.inUse n = true) ∧
    (∃ (s u : State) (n : Nat), s.writer (chReg n 0x98) .user = some .owner ∧ s.inUse n = true ∧ u = (s.chTouch n).modPrb n
    (fun p => { p with base := [] })) ∧
    (∃ (s : State) (l : Level) (n : Nat), s.writer (chReg n 0x98) .user = some l ∧ l ≠ .owner ∧ s.inUse n = true) ∧
    (∃ (s : State) (n : Nat), s.running = true ∧ s.inUse n = true ∧ fld (s.chan n).ch.prbCfg 16 16 ≠ 0 ∧ (s.chan
    n).prb.lastHours + fld (s.chan n).ch.prbCfg 16 16 ≤ s.env.hours ∧ (s.chan n).prb.phase = .idle ∧ s.prbRefusal n = 0) ∧
    (∃ (s : State) (n : Nat), s.running = true ∧ s.prbBusy = false ∧ (s.rails.find? fun m => s.inUse m && (s.chan
    m).prb.phase == .queued) = some n) ∧
    (∃ (s : State) (n : Nat), s.prbIn .baseline = some n ∧ (s.chan n).prb.phaseEnd ≤ s.now ∧ s.running = true) ∧
    (∃ (s : State) (n : Nat), s.prbIn .step = some n ∧ (s.chan n).prb.phaseEnd ≤ s.now ∧ s.running = true) ∧
    (∃ (s p : State) (n wn zeta _qeff fitQ fc fq : Nat), s.running = true ∧ p = s.prior ∧ p.prbIn .fit = some n ∧ (fc = (if
    loopCross wn zeta < 100 then 100 else if 10000 < loopCross wn zeta then 10000 else loopCross wn zeta)) ∧ (fq = (if fc =
    loopCross wn zeta then min 255 fitQ else min 63 fitQ)) ∧ ((p.chan n).prb.base.length ≠ 4 ∨ (p.chan n).prbOutcome fq ≠ 1)) ∧
    (∃ (s p : State) (n wn zeta _qeff fitQ fc fq : Nat), s.running = true ∧ p = s.prior ∧ p.prbIn .fit = some n ∧ (fc = (if
    loopCross wn zeta < 100 then 100 else if 10000 < loopCross wn zeta then 10000 else loopCross wn zeta)) ∧ (fq = (if fc =
    loopCross wn zeta then min 255 fitQ else min 63 fitQ)) ∧ (p.chan n).prb.base.length = 4 ∧ (p.chan n).prbOutcome fq = 1) :=
  ⟨⟨(chS .operator { mgnCh 2 .nominal with prb := { phase := .idle } }), .operator, 0, rfl, rfl, rfl, rfl⟩,
    ⟨(chS .user { mgnCh 2 .nominal with prb := { phase := .idle } }), .user, 0, rfl, rfl, rfl⟩,
    ⟨(chS .owner { mgnCh 2 .nominal with prb := { phase := .idle } }), _, 0, rfl, rfl, rfl⟩,
    ⟨(chS .operator { mgnCh 2 .nominal with prb := { phase := .idle } }), .operator, 0, rfl, by decide, rfl⟩,
    ⟨{ chS .user { mgnCh 2 .nominal with ch := { cfg := 1, prbCfg := 0x10000 } } with env := { hours := 1 } }, 0, rfl, rfl,
    by decide, by decide, rfl, rfl⟩,
    ⟨(chS .user { mgnCh 2 .nominal with prb := { phase := .queued } }), 0, rfl, rfl, rfl⟩,
    ⟨(chS .user { mgnCh 2 .nominal with prb := { phase := .baseline, phaseEnd := 1000000 } }), 0, rfl, by decide, rfl⟩,
    ⟨(chS .user { mgnCh 2 .nominal with prb := { phase := .step, phaseEnd := 1000000 } }), 0, rfl, by decide, rfl⟩,
    ⟨(chS .user { ch1 with ch := { cfg := 1, prbLim := 0xFF000000 }, prb := { phase := .fit } }), _, 0, 0, 0, 0, 254, 100,
    63, rfl, rfl, rfl, by decide +kernel, by decide +kernel, by decide +kernel⟩,
    ⟨(chS .user fitPass), _, 0, 0, 0, 0, 10, 100, 10, rfl, rfl, rfl, by decide +kernel, by decide +kernel, by decide +kernel,
    by decide +kernel⟩⟩

theorem wit_LedgerEventsComplete :
    (∃ (s p q : State) (blk n : Nat) (_bytes : BitVec 16) (_kind : BitVec 8) (_group _epoch : BitVec 32), p = (s.blockTimeout
    s.mcp.rxCur).blockOver blk ∧ p.mcp.up = true ∧ p.mcp.resumes blk p.now = false ∧ blk = p.mcp.rxCur ∧ n = tget 0
    p.mcp.rxBytes blk ∧ n + 32 ≤ 512 ∧ q =
    { p with mcp := { p.mcp with rxBytes := tset 0 p.mcp.rxBytes blk (n + 32), rxSkip := false, rxCut := none, blkAt := p.now, heard := p.now } }.tpAdd
    1 (((n + 32) / 64 - n / 64) * 64) 0 0) ∧
    (∃ (s p : State) (blk : Nat) (_bytes : BitVec 16) (_kind : BitVec 8) (_group _epoch : BitVec 32) (w : Nat → State), p =
    (s.blockTimeout s.mcp.rxCur).blockOver blk ∧ p.mcp.up = true ∧ (blk ≠ p.mcp.rxCur ∨ p.mcp.resumes blk p.now = true) ∧ ((∀
    len : Nat, w len = (if p.mcp.resumes blk p.now || p.mcp.rxSkip then p.stray len else
    (({ p with mcp := p.mcp.nak p.mcp.rxCur }.stray len).tpAdd 1 0 0 1).nakCheck p.now)))) ∧
    (∃ (s p u : State) (blk bytes group epoch : Nat), (p = (if s.hld.openCheck (nLedger s.hw.variant) bytes group epoch = 6
    then s.verdictsFirst blk else s)) ∧ u =
    { p with hld := { p.hld with entries := p.hld.entries ++ [{ group := group, epoch := epoch, bytes := bytes, openBlk := some blk }] } }) ∧
    (∃ (s u : State) (code group : Nat) (_named : Bool), u =
    { s with hld := { s.hld with errCode := code, errCount := incTo 0xFFFF s.hld.errCount, errGrp := group, irq := Irq.set s.hld.irq 6 } }) ∧
    (∃ (s : State) (blk _undef : Nat), s.mcp.due blk s.now = true) ∧
    (∃ (h : Hld) (blk now : Nat) (e : LEntry), e ∈ (h.confirm blk now).entries) ∧
    (∃ (s : State) (blk : Nat), s.mcp.due blk s.now = true) ∧
    (∃ (s : State) (blk _undef : Nat), s.mcp.due blk s.now = false) :=
  ⟨⟨{ rdy .user with mcp := mcpBlk 480 }, _, _, 0, 480, 4096, 0, 7, 0, rfl, rfl, rfl, rfl, rfl, by decide, rfl⟩,
    ⟨{ rdy .user with mcp := mcpBlk 480 }, _, 1, 4096, 0, 7, 0, _, rfl, rfl, by decide, fun _ => rfl⟩,
    ⟨(rdy .user), _, _, 0, 4096, 7, 0, rfl, rfl⟩,
    ⟨(rdy .user), _, 4, 7, true, rfl⟩,
    ⟨{ rdy .user with mcp := { link := .up, rxOld := [0] } }, 0, 0, rfl⟩,
    ⟨{ entries := [{ group := 7, epoch := 0, bytes := 1 }] }, 0, 5, { group := 7, epoch := 0, bytes := 1 }, by decide⟩,
    ⟨{ rdy .user with mcp := { link := .up, rxOld := [0] } }, 0, rfl⟩,
    ⟨{ rdy .user with mcp := { link := .up, rxOld := [1] } }, 0, 0, rfl⟩⟩

theorem wit_McpLinkCompletes :
    (∃ (s : State) (lane : Nat), s.running = true ∧ s.pwr.prepared = false ∧ lane < nLane s.hw.variant ∧ (tget {} s.lt
    lane).mode = 0 ∧ s.mcp.lanes.testBit lane = false ∧ s.islLost 17 = false ∧ s.mcp.link = .down ∧ s.noKeyPath = false) ∧
    (∃ (s u : State) (lane : Nat), s.running = true ∧ s.pwr.prepared = false ∧ lane < nLane s.hw.variant ∧ (tget {} s.lt
    lane).mode = 0 ∧ s.mcp.lanes.testBit lane = false ∧ s.islLost 17 = false ∧ u =
    { s with mcp := { s.mcp with lanes := Nat.lor s.mcp.lanes (2 ^ lane), heard := s.now, irq := Irq.set s.mcp.irq 2 } }) ∧
    (∃ (s p u : State) (lane hdr : Nat), s.mcp.lanes.testBit lane = true ∧ p = s.lanesFirst lane ∧ u =
    { p with mcp := { p.mcp with hdrErr := tset 0 p.mcp.hdrErr lane (min 0xFFFF (tget 0 p.mcp.hdrErr lane + hdr)) } }) ∧
    (∃ (s : State) (_nonce : List (BitVec 8)), s.mcp.link = .training ∧ runsPast s.mcp.keyEnd s.now = true) ∧
    (∃ (s : State) (t : Nat), s.mcp.keyEnd = some t ∧ t ≤ s.now) ∧
    (∃ (s u : State) (blk : Nat) (i : BitVec 8), s.mcp.verified blk s.now = true ∧ (u =
    { s with sec := { s.sec with keyCode := if s.sec.restored = some (s.now, i.toNat) then 2 else s.sec.keyCode, held := s.sec.held ||| BitVec.ofNat 256 (2 ^ i.toNat), alarmTs := tset 0 s.sec.alarmTs i.toNat (s.now + 1), irq := Irq.set s.sec.irq 6 } })) ∧
    (∃ (s : State) (blk : Nat), s.mcp.verified blk s.now = true) ∧
    (∃ (s : State) (blk : Nat) (_i : BitVec 8), s.mcp.verified blk s.now = false) ∧
    (∃ (s p : State) (blk n : Nat), p = (s.blockTimeout s.mcp.rxCur).blockOver blk ∧ p.mcp.up = true ∧ p.mcp.resumes blk
    p.now = false ∧ blk = p.mcp.rxCur ∧ n = tget 0 p.mcp.rxBytes blk ∧ n + 64 ≤ 512) ∧
    (∃ (s : State) (_n : Nat), s.mcp.link ≠ .down ∧ (s.mcp.unacked.any fun b => decide (b.sentAt + 2000 ≤ s.now)) = false) ∧
    (∃ (s : State) (_n : Nat), s.mcp.link ≠ .down ∧ (s.mcp.unacked.any fun b => decide (b.sentAt + 2000 ≤ s.now)) = true) ∧
    (∃ (s u : State) (n : Nat), s.mcp.link ≠ .down ∧ (s.mcp.unacked.map (·.n)).contains n = true ∧ (u = (if 4 ≤ (s.mcp.naked
    n s.now).txNakRow then s.failsFirst else s))) ∧
    (∃ (s u : State) (blk : Nat), s.mcp.up = true ∧ s.mcp.openBlk blk = true ∧ s.mcp.blkAt + 100 ≤ s.now ∧ u =
    { s with hld := s.hld.revert (fun b => b == blk), mcp := { s.mcp with rxBytes := tset 0 s.mcp.rxBytes blk 0, eTout := incTo 0xFF s.mcp.eTout, rxCut := some (s.now, 512 - tget 0 s.mcp.rxBytes blk, false) }.nak blk }) ∧
    (∃ s : State, s.mcp.link ≠ .down ∧ s.mcp.heard + 1000 ≤ s.now) :=
  ⟨⟨(rdy .user), 1, rfl, rfl, by decide, rfl, rfl, rfl, rfl, rfl⟩,
    ⟨(rdy .user), _, 1, rfl, rfl, by decide, rfl, rfl, rfl, rfl⟩,
    ⟨{ rdy .user with mcp := { link := .up, lanes := 2 } }, _, _, 1, 3, rfl, rfl, rfl⟩,
    ⟨{ rdy .user with mcp := { link := .training, keyEnd := some 1000001 } }, [], rfl, rfl⟩,
    ⟨{ rdy .user with mcp := { keyEnd := some 1000000 } }, 1000000, rfl, by decide⟩,
    ⟨{ rdy .user with mcp := { okAt := some (0, 1000000) } }, _, 0, 255, rfl, rfl⟩,
    ⟨{ rdy .user with mcp := { okAt := some (0, 1000000) } }, 0, rfl⟩,
    ⟨(rdy .user), 0, 255, rfl⟩,
    ⟨{ rdy .user with mcp := mcpBlk 448 }, _, 0, 448, rfl, rfl, rfl, rfl, rfl, by decide⟩,
    ⟨{ rdy .user with mcp := { link := .up, unacked := [{ n := 5, frames := [], sentAt := 998001 }] } }, 5, by decide, by
    decide⟩,
    ⟨{ rdy .user with mcp := { link := .up, unacked := [{ n := 5, frames := [], sentAt := 998000 }] } }, 5, by decide, by
    decide⟩,
    ⟨{ rdy .user with mcp := { link := .up, unacked := [{ n := 5, frames := [], sentAt := 998001 }] } }, _, 5, by decide,
    rfl, rfl⟩,
    ⟨{ rdy .user with mcp := { link := .up, rxBytes := [(0, 511)], blkAt := 999900 } }, _, 0, rfl, rfl, by decide, rfl⟩,
    ⟨{ rdy .user with mcp := { link := .up, heard := 999000 } }, by decide, by decide⟩⟩

theorem wit_HoldCommandsComplete :
    (∃ (s u : State) (l : Level), s.writer 0x50040 .user = some l ∧ l.ge .operator = true ∧ u =
    { s with hld := { s.hld with code := 0, cause := { s.hld.cause with host := true } } }) ∧
    (∃ (s u : State) (l : Level), s.writer 0x50040 .user = some l ∧ l.ge .operator = true ∧ u =
    { s with hld := { s.hld with code := 0, cause := { s.hld.cause with host := false } } }) ∧
    (∃ (s u v : State) (l : Level), s.writer 0x50040 .user = some l ∧ l.ge .operator = true ∧ (s.hld.drain.all fun d =>
    d.loss && decide (d.began = s.now)) = true ∧ s.mcp.up = true ∧ s.rst HS = .good ∧ u =
    { s with hld := { s.hld with code := 0, cause := { s.hld.cause with host := true } } } ∧ v = (u.admission s.now
    []).drainStart 2 (u.admission s.now []).now) ∧
    (∃ (s : State) (l : Level) (c : Nat), s.writer 0x50040 .user = some l ∧ (c = (if !l.ge .operator then 1 else if
    (s.hld.drain.all fun d => d.loss && decide (d.began = s.now)) = false then 3 else if s.mcp.up = false ∨ s.rst HS ≠ .good
    then 4 else 0)) ∧ c ≠ 0) ∧
    (∃ (s : State) (l : Level), s.writer 0x50040 .user = some l ∧ l.ge .operator = false) ∧
    (∃ (s u : State) (t : Nat), s.running = true ∧ s.hld.epochNext = some t ∧ t < s.now ∧ fld s.hld.cfg 24 8 ≠ 0 ∧ u =
    { s with hld := { s.hld with epochNext := some (t + fld s.hld.cfg 24 8 * 10000000) } }) :=
  ⟨⟨(rdy .operator), _, .operator, rfl, rfl, rfl⟩,
    ⟨(rdy .operator), _, .operator, rfl, rfl, rfl⟩,
    ⟨{ hsIn .good with hmp := { session := some .operator }, mcp := { link := .up } }, _, _, .operator, rfl, rfl, rfl, rfl,
    rfl, rfl, rfl⟩,
    ⟨(rdy .operator), .operator, _, rfl, rfl, by decide⟩,
    ⟨(rdy .user), .user, rfl, rfl⟩,
    ⟨{ rdy .user with hld := { epochNext := some 999999, cfg := 0x01000000, durable := 0 } }, _, 999999, rfl, rfl, by decide,
    by decide, rfl⟩⟩

theorem wit_FaultCommandsComplete :
    (∃ (s : State) (l : Level) (i : BitVec 11) (g : Nat), s.writer 0x20004 .user = some l ∧ l.ge .operator = true ∧ srcNamed
    s.hw.variant i.toNat = true ∧ (s.flt.src i.toNat).grace = some g ∧ s.now < g) ∧
    (∃ (s : State) (l : Level) (i : BitVec 11) (c : Nat), s.writer 0x20004 .user = some l ∧ (c = (if !l.ge .operator then 1
    else if !srcNamed s.hw.variant i.toNat then 2 else if (s.flt.src i.toNat).grace.all (fun g => decide (g ≤ s.now)) then 4
    else 0)) ∧ c ≠ 0) ∧
    (∃ (s : State) (l : Level) (i : BitVec 11), s.writer 0x20004 .user = some l ∧ l.ge .operator = true ∧ srcNamed
    s.hw.variant i.toNat = true ∧ (s.flt.src i.toNat).pend = true ∧ s.causePresent i.toNat = false) ∧
    (∃ (s : State) (l : Level) (i : BitVec 11) (c : Nat), s.writer 0x20004 .user = some l ∧ (c = (if !l.ge .operator then 1
    else if !srcNamed s.hw.variant i.toNat then 2 else if !(s.flt.src i.toNat).pend then 4 else if s.causePresent i.toNat
    then 3 else 0)) ∧ c ≠ 0) ∧
    (∃ (s : State) (l : Level) (x : Safe), s.writer 0x20004 .user = some l ∧ l.ge .owner = true ∧ s.flt.safe = some x ∧
    x.step = 7 ∧ s.unclear = false) ∧
    (∃ (s : State) (l : Level) (c : Nat), s.writer 0x20004 .user = some l ∧ (c = (if !l.ge .owner then 1 else if
    s.flt.safe.all (fun x => decide (x.step ≠ 7)) then 6 else if s.unclear then 5 else 0)) ∧ c ≠ 0) ∧
    (∃ s u : State, s.flt.safeReq = true ∧ s.unclear = false ∧ u =
    { s with flt := { s.flt with safeReq := false, safe := none }, hld := { s.hld with cause := { s.hld.cause with safe := false } } }) ∧
    (∃ (s : State) (l : Level), s.writer 0x20004 .user = some l ∧ l.ge .operator = true ∧ s.unclearBefore = false) ∧
    (∃ (s : State) (l : Level) (c : Nat), s.writer 0x20004 .user = some l ∧ (c = (if !l.ge .operator then 1 else if
    s.unclearBefore then 5 else 0)) ∧ c ≠ 0) ∧
    (∃ (s u : State) (l : Level) (bits : BitVec 5), s.writer 0x20040 .operator = some l ∧ u =
    { s with flt := { s.flt with priv := ((List.range 5).filter fun i => bits.toNat.testBit i && s.flt.priv.testBit i && !(s.privCause i || s.flt.privNew.testBit i)).foldl (fun p i => p - 2 ^ i) s.flt.priv } }) ∧
    (∃ s : State, s.sys.vauxDown = false ∧ s.sys.phase ≠ .por ∧ s.scanHolds = false) ∧
    (∃ s : State, s.scanHolds = false) :=
  ⟨⟨{ rdy .operator with flt := { srcs := [(5, { grace := some 1000001 })] } }, .operator, 5, 1000001, rfl, rfl, rfl, rfl,
    by decide⟩,
    ⟨(rdy .operator), .operator, 5, _, rfl, rfl, by decide⟩,
    ⟨{ rdy .operator with flt := { srcs := [(1057, { pend := true })] } }, .operator, 1057, rfl, rfl, rfl, rfl, rfl⟩,
    ⟨(rdy .operator), .operator, 1057, _, rfl, rfl, by decide⟩,
    ⟨{ rdy .owner with flt := { safe := some { step := 7, stamp := 0, origin := 0 } } }, .owner,
    { step := 7, stamp := 0, origin := 0 }, rfl, rfl, rfl, rfl, rfl⟩,
    ⟨(rdy .owner), .owner, _, rfl, rfl, by decide⟩,
    ⟨{ rdy .owner with flt := { safe := some { step := 7, stamp := 0, origin := 0 }, safeReq := true } }, _, rfl, rfl, rfl⟩,
    ⟨(rdy .operator), .operator, rfl, rfl, rfl⟩,
    ⟨(rdy .user), .user, _, rfl, rfl, by decide⟩,
    ⟨(rdy .operator), _, .operator, 31, rfl, rfl⟩,
    ⟨(rdy .user), rfl, by decide, rfl⟩,
    ⟨(rdy .user), rfl⟩⟩

theorem wit_FaultCollectorCompletes :
    (∃ (s t : State) (i : Nat), s.active = true ∧ t = s.reportWire i s.now false) ∧
    (∃ (s p u : State) (m : Nat) (f : FirstFault), s.active = true ∧ p = s.prior ∧ p.flt.ff = none ∧ (p.flt.elig.map
    (·.stamp)).min? = some m ∧ p.settledBy m = true ∧ firstOf p.flt.elig m = some f ∧ u =
    ({ p with flt := { p.flt with ff := some f, elig := [], irq := Irq.set p.flt.irq 1 } }).record 1 0x04 0 m [(16, leBytes 4
    f.word.toNat), (20, leBytes 4 f.coWord.toNat)]) ∧
    (∃ (s : State) (i a : Nat), s.active = true ∧ (s.flt.src i).pend = false ∧ (s.flt.src i).last = some a ∧ (s.flt.src
    i).decayAt ≤ s.now ∧ a ≠ s.now) ∧
    (∃ (s p u v w : State) (g : Nat), s.graceMin = some g ∧ s.lastOf g = true ∧ s.active = true ∧ p = s.upTo g
    SeqItem.react.rank ∧ p.itemAt .react HS = some g ∧ u = p.settleTo g ∧ v = u.latchFirst ∧ (w =
    { v with flt := { v.flt with expReset := if v.flt.expReset = some g then none else v.flt.expReset, srcs := tmap {} (fun _ x => if x.grace = some g then { x with grace := none } else x) v.flt.srcs } })) ∧
    (∃ (s p : State) (x : Safe), s.active = true ∧ p = s.prior ∧ p.flt.safe = some x) ∧
    (∃ (s u : State) (why : BitVec 4), s.active = true ∧ 1 ≤ why.toNat ∧ why.toNat ≤ 4 ∧ u =
    { s with flt := { s.flt with selfWhy := why.toNat, selfEnd := s.now + Config.selfLen s.now } }) ∧
    (∃ s : State, s.active = true) ∧
    (∃ (s u : State) (l : Level) (i : BitVec 11), s.writer 0x20070 .operator = some l ∧ s.sec.dbg = .factory ∧ (s.lcs =
    .blank ∨ s.lcs = .returned) ∧ srcNamed s.hw.variant i.toNat = true ∧ u = { s with flt := { s.flt with injCode := 0 } }) ∧
    (∃ (s : State) (l : Level) (i : BitVec 11) (_wire : Bool) (c : Nat), s.writer 0x20070 .operator = some l ∧ (c = (if
    s.sec.dbg ≠ .factory ∨ (s.lcs ≠ .blank ∧ s.lcs ≠ .returned) then 1 else if !srcNamed s.hw.variant i.toNat then 2 else 0))
    ∧ c ≠ 0) ∧
    (∃ (s : State) (l : Level) (e : FEntry) (r : List FEntry), s.hmp.session = some l ∧ s.hmpUp = true ∧ s.notReady 0x20060
    false = false ∧ s.rungOk = true ∧ s.islLost 16 = false ∧ s.flt.log = e :: r) ∧
    (∃ (s : State) (l : Level), s.writer 0x20068 .operator = some l) ∧
    (∃ (s : State) (f : FirstFault) (m code t : Nat), s.flt.ff = some f ∧ s.flt.early = [(f.src, code, t)] ∧ m ≤ t) :=
  ⟨⟨(rdy .user), _, 1057, rfl, rfl⟩,
    ⟨{ rdy .user with flt := { elig := [{ src := 3, level := 2, stamp := 999999, wire := false }] } }, _, _, 999999, _, rfl,
    rfl, rfl, rfl, rfl, rfl, rfl⟩,
    ⟨{ later 100000000 with flt := { srcs := [(5, { last := some 0 })] } }, 5, 0, rfl, rfl, rfl, by decide, by decide⟩,
    ⟨{ rdy .user with flt := { srcs := [(5, { grace := some 999999 })] } }, _, _, _, _, 999999, rfl, rfl, rfl, rfl, rfl, rfl,
    rfl, rfl⟩,
    ⟨{ rdy .user with flt := { safe := some (safeAt 2) } }, _, (safeAt 2), rfl, rfl, rfl⟩,
    ⟨(rdy .user), _, 4, rfl, by decide, by decide, rfl⟩,
    ⟨(rdy .user), rfl⟩,
    ⟨{ rdy .operator with sec := { dbg := .factory } }, _, .operator, 1057, rfl, rfl, by decide, rfl, rfl⟩,
    ⟨(rdy .operator), .operator, 1057, true, _, rfl, rfl, by decide⟩,
    ⟨{ rdy .user with flt := { log := [fEntry] } }, .user, fEntry, [], rfl, rfl, rfl, rfl, rfl, rfl⟩,
    ⟨(rdy .operator), .operator, rfl⟩,
    ⟨{ rdy .user with flt := { ff := some { src := 3, level := 2, wire := false, stamp := 5, coSrc := 0, coN := 0 }, early := [(3, 1, 6)] } },
    _, 5, 1, 6, rfl, rfl, by decide⟩⟩

theorem wit_WatchdogCompletes :
    (∃ (s : State) (l : Level), s.writer 0x30008 .user = some l ∧ s.wdg.run = false) ∧
    (∃ s : State, s.wdgLive = true ∧ s.wdg.isOpen s.sys.taken.win s.now = true ∧ s.wdg.opened = false) ∧
    (∃ s : State, s.wdgLive = true ∧ s.wdg.start + s.wdg.len ≤ s.now) ∧
    (∃ (s p : State) (l : Level) (_next : BitVec 13), s.writer 0x30004 .user = some l ∧ p = s.wdgCatch) ∧
    (∃ (s p : State) (l : Level) (i : BitVec 3) (_a : BitVec 16), s.writer 0x30014 .user = some l ∧ p = s.wdgCatch ∧
    p.wdg.gate true p.now = 0 ∧ p.wdg.checked.testBit i.toNat = false ∧ p.wdg.flag.testBit i.toNat = false ∧
    p.wdg.dup.testBit i.toNat = false) ∧
    (∃ (s p : State) (l : Level) (i : BitVec 3) (_a : BitVec 16), s.writer 0x30014 .user = some l ∧ p = s.wdgCatch ∧
    p.wdg.gate true p.now = 0 ∧ (p.wdg.checked.testBit i.toNat || p.wdg.flag.testBit i.toNat || p.wdg.dup.testBit i.toNat) =
    true) ∧
    (∃ (s p : State) (_l : Level) (_i : BitVec 3) (_a _v : BitVec 16) (c : Nat), p = s.wdgCatch ∧ p.wdg.gate true p.now = c ∧
    c ≠ 0) ∧
    (∃ (s p : State) (l : Level) (v : BitVec 16) (c : Nat), s.writer 0x30018 .user = some l ∧ p = s.wdgCatch ∧ p.wdg.gate
    true p.now = 0 ∧ c = p.wdg.svcCheck v.toNat p.sys.taken.win p.now) ∧
    (∃ (s p : State) (l : Level) (_key : BitVec 16), s.writer 0x3001C .user = some l ∧ p = s.wdgCatch.keyEnds ∧ p.wdg.gate
    false p.now = 0 ∧ p.wdg.keyAt = none) ∧
    (∃ (s p q : State) (l : Level) (_key : BitVec 16) (k : Nat), s.writer 0x3001C .user = some l ∧ p = s.wdgCatch.keyEnds ∧
    p.wdg.gate false p.now = 0 ∧ p.wdg.keyAt = some k ∧ q = { p with wdg := { p.wdg with keyAt := none } }) ∧
    (∃ (s p : State) (l : Level) (_key : BitVec 16) (c : Nat), s.writer 0x3001C .user = some l ∧ p = s.wdgCatch.keyEnds ∧
    p.wdg.gate false p.now = c ∧ c ≠ 0) ∧
    (∃ (s : State) (k : Nat), s.wdgLive = true ∧ s.wdg.keyAt = some k ∧ k + 1000 ≤ s.now) ∧
    (∃ (s : State) (e : Nat), s.wdg.wdoEnd = some e ∧ e ≤ s.now) ∧
    (∃ (s : State) (n : Nat), s.wdg.armed = true ∧ 800 ≤ n ∧ n ≤ 1200) ∧
    (∃ (s : State) (n : Nat) (e : Bool), s.wdg.armed = true ∧ (n < 800 ∨ 1200 < n ∨ e = true)) :=
  ⟨⟨(rdy .operator), .operator, rfl, rfl⟩,
    ⟨{ rdy .user with wdg := { run := true, len := 4000000, opened := false } }, rfl, rfl, rfl⟩,
    ⟨{ rdy .user with wdg := { run := true, len := 1000000, q := 1 } }, rfl, by decide⟩,
    ⟨(rdy .operator), _, .operator, 4096, rfl, rfl⟩,
    ⟨{ rdy .user with wdg := { run := true, len := 4000000, qa := true, tasks := [(7, 0x10000)] } }, _, .user, 7, 0x6C93,
    rfl, rfl, rfl, rfl, rfl, rfl⟩,
    ⟨{ rdy .user with wdg := { run := true, len := 4000000, qa := true, checked := 128 } }, _, .user, 7, 0x6C93, rfl, rfl,
    rfl, rfl⟩,
    ⟨(rdy .user), _, .user, 0, 0, 0, _, rfl, rfl, by decide⟩,
    ⟨{ rdy .user with wdg := { run := true, len := 4000000, qa := true } }, _, .user, 0xFFFF, _, rfl, rfl, rfl, rfl⟩,
    ⟨{ rdy .user with wdg := { run := true, len := 4000000, q := 1 } }, _, .user, 0xA5C3, rfl, rfl, rfl, rfl⟩,
    ⟨{ rdy .user with wdg := { run := true, len := 4000000, keyAt := some 999001 } }, _, _, .user, 0x3C5A, _, rfl, rfl, rfl,
    rfl, rfl⟩,
    ⟨(rdy .user), _, .user, 0xA5C3, _, rfl, rfl, rfl, by decide⟩,
    ⟨{ rdy .user with wdg := { run := true, len := 4000000, keyAt := some 999000 } }, 999000, rfl, rfl, by decide⟩,
    ⟨{ rdy .user with wdg := { wdoEnd := some 1000000 } }, 1000000, rfl, by decide⟩,
    ⟨{ rdy .user with wdg := { armed := true } }, 1200, rfl, by decide, by decide⟩,
    ⟨{ rdy .user with wdg := { armed := true } }, 1201, false, rfl, by decide⟩⟩

theorem wit_EnvAccessCompletes :
    (∃ (s r u v : State) (l : Level) (f : LineFlaws), s.writer 0x70034 .user = some l ∧ s.accRefusal .read l = 0 ∧ r =
    s.readLine f s.env.accAddr ∧ (u =
    { r with env := { r.env with buf := putBytes [] 0 (if s.env.check f s.env.accAddr = some .ecc then List.replicate 64 0 else s.env.lineAt s.env.accAddr), accCode := if tget false s.env.marked s.env.accAddr = false then 1 else match s.env.check f s.env.accAddr with | some .tag => 2 | some _ => 3 | none => 0, irq := Irq.set r.env.irq 4 } })
    ∧ v = u.settle s.now) ∧
    (∃ (s r u v : State) (l : Level) (f : LineFlaws), s.writer 0x70034 .user = some l ∧ s.accRefusal .full l = 0 ∧ r =
    s.readLine f s.env.accAddr ∧ (u = (if s.env.check f s.env.accAddr = none ∨ l.ge .owner = true then
    { r with env := { r.env with accCode := 0, acc := some { line := r.env.accAddr, bytes := s.env.bufBytes } }.grant r.hw.variant r.now }
    else { r with env := { r.env with accCode := if s.env.check f s.env.accAddr = some .tag then 2 else 3 } })) ∧ v =
    u.settle s.now) ∧
    (∃ (s r u v : State) (l : Level) (f : LineFlaws), s.writer 0x70034 .user = some l ∧ s.accRefusal .part l = 0 ∧ r =
    s.readLine f s.env.accAddr ∧ (u = (if s.env.check f s.env.accAddr = none then
    { r with env := { r.env with accCode := 0, acc := some { line := r.env.accAddr, bytes := s.env.merged (s.env.lineAt s.env.accAddr) } }.grant r.hw.variant r.now }
    else { r with env := { r.env with accCode := if s.env.check f s.env.accAddr = some .tag then 2 else 3 } })) ∧ v =
    u.settle s.now) ∧
    (∃ (s : State) (l : Level) (_f : LineFlaws) (c : AccCmd) (k : Nat), s.writer 0x70034 .user = some l ∧ s.accRefusal c l =
    k ∧ k ≠ 0) ∧
    (∃ (s : State) (f : LineFlaws) (a : Nat), s.env.check f a = none) ∧
    (∃ (s : State) (o : AccOp) (g : Nat), s.env.acc = some o ∧ o.granted = some g ∧ g + lineTime ≤ s.now ∧ s.ctrlUp = true) :=
  ⟨⟨(userLine .user), _, _, _, .user, [], rfl, rfl, rfl, rfl, rfl⟩,
    ⟨(userLine .operator), _, _, _, .operator, [], rfl, rfl, rfl, rfl, rfl⟩,
    ⟨(userLine .operator), _, _, _, .operator, [], rfl, rfl, rfl, rfl, rfl⟩,
    ⟨(rdy .user), .user, [], .full, _, rfl, rfl, by decide⟩,
    ⟨(rdy .user), [], 0, rfl⟩,
    ⟨hostLine, { line := 64, bytes := ones, granted := some 0 }, 0, rfl, rfl, by decide, rfl⟩⟩

theorem wit_JournalCompletes :
    (∃ (s p e u : State) (w : JWrite) (g t : Nat), s.env.writing = some w ∧ w.granted = some g ∧ s.storeUp = true ∧ t = g +
    lineTime ∧ t ≤ s.now ∧ p = s.upTo t 0 ∧ e =
    { p with env := { p.env.putLine (logAddr p.hw.variant w.line) (recLine p.env.run w.seq w.rec_) with writing := none, jseq := w.seq, jline := (w.line + 1) % logLines p.hw.variant } }
    ∧ u = (e.markRec (recLine p.env.run w.seq w.rec_) t).harvestAuto p.segUsed) ∧
    (∃ s u : State, s.ctrlUp = true ∧ 3600 * tSec ≤ s.env.hourPart ∧ u =
    { s with env := { s.env with hours := s.env.hours + 1, hourPart := s.env.hourPart - 3600 * tSec } }) ∧
    (∃ s : State, s.env.hourPart < 3600 * tSec) ∧
    (∃ (s u : State) (t : Nat), s.running = true ∧ s.env.cntNext = some t ∧ t ≤ s.now ∧ fld s.env.jcfg 0 8 ≠ 0 ∧ u =
    { s with env := { s.env with cntNext := some (t + fld s.env.jcfg 0 8 * 60 * tSec) } }) ∧
    (∃ (s : State) (l : Level), s.writer 0x70020 .user = some l) :=
  ⟨⟨{ rdy .user with env := { writing := some { rec_ := { cls := 0, typ := 1, arg := 0, stamp := 0, payload := [], queued := 0 }, seq := 0, line := 0, granted := some 0 } } },
    _, _, _, _, _, _, rfl, rfl, rfl, rfl, by decide, rfl, rfl, rfl⟩,
    ⟨{ rdy .user with env := { hourPart := 360000000000 } }, _, rfl, by decide, rfl⟩,
    ⟨(rdy .user), by decide⟩,
    ⟨{ rdy .user with env := { cntNext := some 1000000, jcfg := 1 } }, _, 1000000, rfl, rfl, by decide, by decide, rfl⟩,
    ⟨(rdy .operator), .operator, rfl⟩⟩

theorem wit_JournalCompletes_more :
    (∃ (s r e x u : State) (f : LineFlaws) (base run k : Nat) (recs : List (List Byte)), s.env.harvest = some base ∧
    s.storeUp = true ∧ k = 1 - s.env.ckpt ∧ recs = ((s.env.readable s.hw.variant f).filter fun y => decide (lSeq y.2 ≤
    base)).map (·.2) ∧ run = ((newest recs [0x01]).map lRun).getD 0 ∧ r = ((s.env.held s.hw.variant).filter fun y => decide
    (lSeq y.2 ≤ base)).foldl (fun z y => z.readLine f y.1) s ∧ e =
    { r with env := { r.env.ckWrite s.hw.variant k (r.env.gen + 1) base (harvestPick run [] recs) with harvest := none } } ∧
    x = (e.env.ckAddrs s.hw.variant k).foldl (fun y a => y.readLine f a) e ∧ (u = (if x.env.ckValid s.hw.variant f k then
    { x with env := { x.env.retire s.hw.variant base with ckpt := k, gen := x.env.gen + 1, base := base, irq := Irq.set x.env.irq 0 } }
    else { x with env := { x.env with hfail := incTo 0xFF x.env.hfail, harvRetry := true, irq := Irq.set x.env.irq 1 } }))) ∧
    (∃ (s : State) (l : Level) (_seq : BitVec 32), s.writer 0x70080 .operator = some l) ∧
    (∃ (s : State) (l : Level), s.writer 0x70084 .operator = some l) ∧
    (∃ (s : State) (f : LineFlaws) (x : Nat × List Byte), ((s.env.held s.hw.variant).find? fun y => decide (s.env.jrdFrom ≤
    lSeq y.2) && (s.env.check f y.1).isNone) = some x) ∧
    (∃ (s : State) (f : LineFlaws), ((s.env.held s.hw.variant).find? fun y => decide (s.env.jrdFrom ≤ lSeq y.2) &&
    (s.env.check f y.1).isNone) = none) :=
  ⟨⟨{ rdy .user with env := { harvest := some 0 } }, _, _, _, _, [], 0, _, _, _, rfl, rfl, rfl, rfl, rfl, rfl, rfl, rfl,
    rfl⟩,
    ⟨(rdy .operator), .operator, 0, rfl⟩,
    ⟨(rdy .operator), .operator, rfl⟩,
    ⟨oneRecord, [], _, rfl⟩,
    ⟨(rdy .user), [], by decide +kernel⟩⟩

theorem wit_BlackBoxCompletes :
    (∃ (s u : State) (i : Nat), i < nIsl s.hw.variant ∧ s.running = true ∧ u =
    { s with bbx := (s.bbx.roll i s.now (s.pwr.rung == .autumn)).progress s.hw.variant s.now }) ∧
    (∃ (s : State) (l : Level), s.writer 0xB0004 .user = some l) ∧
    (∃ (s u : State) (l : Level), s.writer 0xB0004 .user = some l ∧ l.ge .owner = true ∧ s.bbx.protNum ≠ 0 ∧ (u =
    { s with bbx := { s.bbx with code := 0, relAt := if 90 ≤ s.segUsed then s.bbx.relAt else some s.now } })) ∧
    (∃ (s : State) (l : Level), s.writer 0xB0004 .user = some l ∧ (l.ge .owner = false ∨ s.bbx.protNum = 0)) ∧
    (∃ (_s : State) (_t : Nat) (l : List Byte), lTyp l = 0x0E) ∧
    (∃ (s u : State) (c : Capture), s.bbx.cap = some c ∧ c.state = 2 ∧ s.running = true ∧ (u =
    { s with env := s.env.putRound (bbxRegion s.hw.variant).1 (bbxRegion s.hw.variant).2 c.addr (linesOf ((s.bbx.image s.hw.variant c).length / 64 + 1) (s.bbx.image s.hw.variant c)), bbx := if 90 ≤ s.segUsed then s.bbx.restart else { s.bbx with cap := some { c with state := 3 } } })) :=
  ⟨⟨(rdy .user), _, 15, by decide, rfl, rfl⟩,
    ⟨(rdy .operator), .operator, rfl⟩,
    ⟨{ rdy .owner with bbx := { protNum := 1 } }, _, .owner, rfl, rfl, by decide, rfl⟩,
    ⟨(rdy .owner), .owner, rfl, by decide⟩,
    ⟨(rdy .user), 0, (0x0E :: List.replicate 7 0x0E), rfl⟩,
    ⟨{ rdy .user with bbx := { cap := some { kind := 1, src := 0, stamp := 0, state := 2, prot := false, summ := false, num := 1 } } },
    _, _, rfl, rfl, rfl, rfl⟩⟩

theorem wit_ConfigurationCompletes :
    (∃ (s : State) (l : Level) (force : BitVec 2), s.writer 0x80000 .user = some l ∧ s.loadCheck l force.toNat false = 0) ∧
    (∃ (s : State) (l : Level) (force : BitVec 2) (c : Nat), s.writer 0x80000 .user = some l ∧ s.loadCheck l force.toNat
    false = c ∧ c ≠ 0) ∧
    (∃ (s r u : State) (f : LineFlaws) (k : Option Nat) (slots : List Nat), s.reloading = true ∧ s.sys.phase = .s4 ∧ s.ctrlUp
    = true ∧ (slots = (match s.cfg.force with | 1 => [1] | 2 => [2] | _ => [1, 2])) ∧ s.chooseSlot f false slots = (r, k) ∧
    (u =
    { r with sys := { r.sys with phase := if r.cfg.fromRecovery then .recovery else .ready }, cfg := { r.cfg with busy := false, fromRecovery := false, code := 6 } })) ∧
    (∃ (s : State) (_f : LineFlaws), s.reloading = true ∧ s.sys.phase = .s5 ∧ s.ctrlUp = true ∧ s.sampled = true) ∧
    (∃ (s : State) (l : Level), s.writer 0x80000 .user = some l ∧ s.applyCheck l false = 0) ∧
    (∃ (s : State) (l : Level) (c : Nat), s.writer 0x80000 .user = some l ∧ s.applyCheck l false = c ∧ c ≠ 0) ∧
    (∃ (s r v : State) (f : LineFlaws) (m : Img) (x : List Nat × Option Rej), s.cfg.busy = true ∧ s.cfg.op = 2 ∧ s.cfg.rtImg
    = none ∧ s.ctrlUp = true ∧ m = { env := s.env, base := s.cfg.rtBase } ∧ r = s.readLine f m.base ∧ (x = (match r.readHead
    m f true (regionEnd r.hw.variant .user - m.base) with | some y => ([], some y) | none => r.verify m f true)) ∧ v =
    x.1.foldl (fun z a => z.readLine f a) r) ∧
    (∃ (s u : State) (e : Env), s.cfg.rtImg = some e ∧ (u = (if s.anyTransitional then
    (({ s with cfg := { s.cfg with busy := false, rtImg := none } }).cfgRefuse 3).settle s.now else (s.rtTake
    { env := e, base := s.cfg.rtBase }).settle s.now))) :=
  ⟨⟨(rdy .owner), .owner, 2, rfl, by decide⟩,
    ⟨(rdy .user), .user, 2, _, rfl, rfl, by decide⟩,
    ⟨{ rdy .owner with sys := { sysR with phase := .s4 }, cfg := { busy := true, op := 1, force := 2 } }, _, _, [], _, _,
    rfl, rfl, rfl, rfl, rfl, rfl⟩,
    ⟨{ rdy .owner with sys := { sysR with phase := .s5 }, cfg := { busy := true, op := 1, force := 2 } }, [], rfl, rfl, rfl,
    rfl⟩,
    ⟨{ rdy .owner with cfg := { rtAddr := userBase } }, .owner, rfl, by decide⟩,
    ⟨(rdy .user), .user, _, rfl, rfl, by decide⟩,
    ⟨{ rdy .owner with cfg := { busy := true, op := 2, rtBase := userBase } }, _, _, [], _, _, rfl, rfl, rfl, rfl, rfl, rfl,
    rfl, rfl⟩,
    ⟨{ rdy .owner with cfg := { busy := true, op := 2, rtBase := userBase, rtImg := some {} } }, _, _, rfl, rfl⟩⟩

theorem wit_CascadePortsComplete :
    (∃ s w : State, s.casAlive = true ∧ s.sys.strap = false ∧ (tget {} s.lt 2).mode = 0 ∧ 0 < nCasPort s.hw.variant ∧
    ((s.casPort 0).link = .down ∨ (s.casPort 0).link = .training) ∧ w = (s.itemNow .orphan HS).modPortC 0 (fun q => q.clear
    .up)) ∧
    (∃ (s u : State) (p : Nat), s.casAlive = true ∧ (tget {} s.lt (p + 2)).mode = 0 ∧ 0 < p ∧ p < nCasPort s.hw.variant ∧
    ((s.casPort p).link = .down ∨ (s.casPort p).link = .training) ∧ u = s.modPortC p (fun q => q.clear .up)) ∧
    (∃ (s w x y : State) (p : Nat), s.portUp p = true ∧ w = (s.prior.modPortC p fun q =>
    { q.clear .down with fell := true }).irqCas 2 ∧ (x = (if p = 0 then w.upLost else w.subtreeLost p)) ∧ (y = (if x.active
    then x.report 1047 x.now else { x with sys := x.sys.deferSrc 1047 }))) ∧
    (∃ (s : State) (p : Nat), s.casAlive = true ∧ p < nCasPort s.hw.variant ∧ (s.casPort p).link = .training) ∧
    (∃ (s : State) (p _l : Nat), s.portUp p = true ∧ (s.casPort p).late s.now = true) ∧
    (∃ (s : State) (p l i : Nat), s.portUp p = true ∧ (s.casPort p).late s.now = false ∧ (s.casPort p).unacked.findIdx? (fun
    u => decide (u.1 = l)) = some i) ∧
    (∃ (s : State) (p l i : Nat), s.portUp p = true ∧ (s.casPort p).late s.now = false ∧ (s.casPort p).unacked.findIdx? (fun
    u => decide (u.1 = l)) = some i) ∧
    (∃ (s : State) (p : Nat), s.portUp p = true) ∧
    (∃ (s : State) (p _l : Nat), s.portUp p = true) ∧
    (∃ (s : State) (p _l : Nat) (why : BitVec 2), s.portUp p = true ∧ why ≠ 3) :=
  ⟨⟨{ rdy .user with sys := { sysR with strap := false }, cas := { ports := [(0, { link := .down })] } }, _, rfl, rfl, rfl,
    by decide, by decide, rfl⟩,
    ⟨{ rdy .user with sys := { sysR with strap := true }, cas := { ports := [(4, { link := .training })] } }, _, 4, rfl, rfl,
    by decide, by decide, by decide, rfl⟩,
    ⟨lead, _, _, _, 4, rfl, rfl, rfl, rfl⟩,
    ⟨{ rdy .user with sys := { sysR with strap := true }, cas := { ports := [(4, { link := .training })] } }, 4, rfl, by
    decide, rfl⟩,
    ⟨{ rdy .user with sys := { sysR with strap := true }, cas := { ports := [(4, { link := .up, unacked := [(9, .hello 0 0 0 0 0 0 0 0 false)], sentAt := 998000 })] } },
    4, 0, rfl, by decide⟩,
    ⟨{ rdy .user with sys := { sysR with strap := true }, cas := { ports := [(4, { link := .up, unacked := [(9, .hello 0 0 0 0 0 0 0 0 false)], sentAt := 998001 })] } },
    4, 9, 0, rfl, by decide, rfl⟩,
    ⟨{ rdy .user with sys := { sysR with strap := true }, cas := { ports := [(4, { link := .up, unacked := [(9, .hello 0 0 0 0 0 0 0 0 false)], sentAt := 998001 })] } },
    4, 9, 0, rfl, by decide, rfl⟩,
    ⟨lead, 4, rfl⟩,
    ⟨lead, 4, 0, rfl⟩,
    ⟨lead, 4, 0, 1, rfl, by decide⟩⟩

theorem wit_CascadeMembershipCompletes :
    (∃ (s u v : State) (l depth : Nat) (path : BitVec 16) (addr : BitVec 12) (delay : BitVec 8), s.sys.strap = false ∧
    s.portUp 0 = true ∧ s.rungOk = true ∧ depth ≤ 7 ∧ addr ≠ 0 ∧ (s.joinedF = false ∨ (s.cas.path = path.toNat ∧ s.cas.depth
    = depth)) ∧ u = s.rxFrame 0 l (.enum path.toNat depth addr.toNat) id ∧ (v =
    { u with cas := { u.cas with st := if u.joinedF then u.cas.st else .joined, addr := addr.toNat, path := path.toNat, depth := depth, delay := delay.toNat, irq := if u.joinedF then u.cas.irq else Irq.set u.cas.irq 0 } })) ∧
    (∃ (s u v : State) (l depth : Nat) (path : BitVec 16) (addr : BitVec 12) (_delay : BitVec 8), s.sys.strap = false ∧
    s.portUp 0 = true ∧ s.rungOk = true ∧ (7 < depth ∨ addr = 0) ∧ (s.joinedF = false ∨ (s.cas.path = path.toNat ∧
    s.cas.depth = depth)) ∧ u = s.rxFrame 0 l (.enum path.toNat depth addr.toNat) id ∧ v =
    { u with cas := { u.cas with st := .refused } }) ∧
    (∃ (s u : State) (l depth : Nat) (path : BitVec 16) (addr : BitVec 12) (_delay : BitVec 8), s.sys.strap = false ∧
    s.portUp 0 = true ∧ s.joinedF = true ∧ (s.cas.path ≠ path.toNat ∨ s.cas.depth ≠ depth) ∧ u = s.rxFrame 0 l (.enum
    path.toNat depth addr.toNat) id) ∧
    (∃ (s : State) (p _l _time _delay _depth : Nat) (_addr : BitVec 12) (_uid : BitVec 64) (_variant : BitVec 4) (_path :
    BitVec 16) (_phase : BitVec 3) (_ports : BitVec 4) (_refused : Bool), p ≠ 0 ∧ s.portUp p = true ∧ s.sys.strap = true ∧
    s.rungOk = true ∧ s.cas.st ≠ .refused) ∧
    (∃ (s u v : State) (p l time delay depth : Nat) (addr : BitVec 12) (uid : BitVec 64) (variant : BitVec 4) (path : BitVec
    16) (phase : BitVec 3) (ports : BitVec 4) (refused : Bool), p ≠ 0 ∧ s.portUp p = true ∧ s.sys.strap = false ∧ u =
    s.rxFrame p l (.hello uid.toNat variant.toNat time delay path.toNat depth phase.toNat ports.toNat refused) id ∧ (v =
    { u with cas := { u.cas with devs := (if refused then u.cas.devs else tset {} u.cas.devs addr.toNat { joined := true, path := path.toNat, depth := depth, phase := phase.toNat }) } })) ∧
    (∃ (s : State) (path d : Nat) (r : List (Nat × Nat)), s.cas.todo = (path, d) :: r ∧ s.cas.offer = none) ∧
    (∃ s : State, s.sys.strap = true ∧ s.casAlive = true ∧ s.rungOk = true ∧ s.cas.timeSent + 1000 ≤ s.now) ∧
    (∃ (s u w : State) (l value atSof : Nat), s.sys.strap = false ∧ s.portUp 0 = true ∧ s.joinedF = true ∧ s.rungOk = true ∧
    u = s.rxFrame 0 l (.time value) id ∧ w = u.timeTaken value atSof) ∧
    (∃ (s u : State) (l value _atSof : Nat), s.sys.strap = false ∧ s.portUp 0 = true ∧ s.joinedF = false ∧ u = s.rxFrame 0 l
    (.time value) id) ∧
    (∃ s w : State, s.casAlive = true ∧ s.cas.st = .locked ∧ s.cas.timeAt + 10000 ≤ s.now ∧ w =
    { s with cas := { s.cas.setLock .joined with goodTimes := 0 } }) ∧
    (∃ (s : State) (_l : Nat) (_addr : BitVec 12), s.sys.strap = false ∧ s.portUp 0 = true ∧ s.rungOk = true ∧ s.cas.st ≠
    .refused) ∧
    (∃ (s : State) (p _l : Nat) (_addrs : List (BitVec 12)), s.portUp p = true ∧ s.sys.strap = true ∧ s.rungOk = true ∧
    s.cas.st ≠ .refused) ∧
    (∃ (s u v : State) (p l : Nat) (addrs : List (BitVec 12)), s.portUp p = true ∧ s.sys.strap = false ∧ s.rungOk = true ∧
    s.cas.st ≠ .refused ∧ u = s.rxFrame p l (.lost (addrs.map BitVec.toNat)) id ∧ v =
    { u with seq := u.seq.lose (fun r => (addrs.map BitVec.toNat).contains r.addr) u.now, cas := { u.cas with devs := (addrs.map BitVec.toNat).foldl (fun t a => tdel t a) u.cas.devs } }) ∧
    (∃ (s p u v : State) (t : Nat), s.itemAt .orphan HS = some t ∧ s.lastOf t = true ∧ p = s.upTo t SeqItem.orphan.rank ∧
    p.itemAt .orphan HS = some t ∧ u = (p.settleTo t).orphanEnds t ∧ v = { u with cas := { u.cas with orphanEnd := none } }) ∧
    (∃ (s u : State) (_t : Nat), u = { s with cas := { s.cas with orphanEnd := none } }) ∧
    (∃ (s : State) (t : Nat), s.orphanOff = false ∧ s.cas.orphanEnd = some t ∧ t ≤ s.now) :=
  ⟨⟨(fol .linked), _, _, 0, 7, 0, 5, 0, rfl, rfl, rfl, by decide, by decide, by decide, rfl, rfl⟩,
    ⟨(fol .linked), _, _, 0, 8, 0, 5, 0, rfl, rfl, rfl, by decide, by decide, rfl, rfl⟩,
    ⟨(fol .joined), _, 0, 7, 1, 5, 0, rfl, rfl, rfl, by decide, rfl⟩,
    ⟨lead, 4, 0, 0, 0, 1, 5, 0, 1, 0, 0, 0, false, by decide, rfl, rfl, rfl, by decide⟩,
    ⟨folDown, _, _, 1, 0, 0, 0, 1, 5, 0, 1, 0, 0, 0, false, by decide, rfl, rfl, rfl, rfl⟩,
    ⟨{ rdy .user with cas := { todo := [(1, 1)] } }, 1, 1, [], rfl, rfl⟩,
    ⟨{ lead with cas := { lead.cas with timeSent := 999000 } }, rfl, rfl, rfl, by decide⟩,
    ⟨(fol .locked), _, _, 0, 1000000, 1000000, rfl, rfl, rfl, rfl, rfl, rfl⟩,
    ⟨(fol .linked), _, 0, 1000000, 1000000, rfl, rfl, rfl, rfl⟩,
    ⟨{ boot .s3 with sys := { phase := .s3, mainClock := true, tb := 10000 }, cas := { st := .locked } }, _, rfl, rfl, by
    decide, rfl⟩,
    ⟨(fol .joined), 0, 5, rfl, rfl, rfl, by decide⟩,
    ⟨lead, 4, 0, [5], rfl, rfl, rfl, by decide⟩,
    ⟨folDown, _, _, 1, 0, [5], rfl, rfl, rfl, by decide, rfl, rfl⟩,
    ⟨{ rdy .user with cas := { orphanEnd := some 999999, cfg := 0x10 } }, _, _, _, 999999, rfl, rfl, rfl, rfl, rfl, rfl⟩,
    ⟨{ rdy .user with cas := { orphanEnd := some 1000000 } }, _, 1000000, rfl⟩,
    ⟨{ rdy .user with cas := { orphanEnd := some 1000000 } }, 1000000, rfl, rfl, by decide⟩⟩

theorem wit_CascadeReportsComplete :
    (∃ (s : State) (p _l : Nat) (dst _org : BitVec 12) (_rail : BitVec 8) (code : BitVec 3), s.portUp p = true ∧ s.rungOk =
    true ∧ s.cas.st ≠ .refused ∧ dst.toNat = s.cas.addr ∧ code.toNat ≤ 4) ∧
    (∃ (s u : State) (p l : Nat) (dst _org : BitVec 12) (rail : BitVec 8) (code : BitVec 3), s.portUp p = true ∧ dst.toNat ≠
    s.cas.addr ∧ u = s.rxFrame p l (.rail dst.toNat rail.toNat code.toNat) id) ∧
    (∃ (s : State) (_org _rail _code _k : Nat) (p : State), p = s.prior ∧ p.running = false) ∧
    (∃ (s : State) (p _l : Nat) (dst _org : BitVec 12) (_rail : BitVec 8), s.portUp p = true ∧ s.rungOk = true ∧ s.cas.st ≠
    .refused ∧ dst.toNat = s.cas.addr) ∧
    (∃ (s : State) (p _l : Nat) (dst _org : BitVec 12) (_rail : BitVec 8), s.portUp p = true ∧ s.rungOk = true ∧ s.cas.st ≠
    .refused ∧ dst.toNat = s.cas.addr) ∧
    (∃ (s u : State) (p l : Nat) (dst _org : BitVec 12) (rail : BitVec 8) (on : Bool), s.portUp p = true ∧ dst.toNat ≠
    s.cas.addr ∧ u = s.rxFrame p l (.sub dst.toNat rail.toNat on) id) ∧
    (∃ (s : State) (p _l : Nat) (_org : BitVec 12) (_src : BitVec 11) (_level : BitVec 2) (_stamp : BitVec 64), p ≠ 0 ∧
    s.portUp p = true ∧ s.rungOk = true ∧ s.cas.st ≠ .refused) ∧
    (∃ (s : State) (p _l : Nat) (_org : BitVec 12) (_src : BitVec 11) (_level : BitVec 2) (_stamp : BitVec 64), p ≠ 0 ∧
    s.portUp p = true ∧ s.rungOk = true ∧ s.cas.st ≠ .refused) ∧
    (∃ (s w v : State) (p l : Nat) (org : BitVec 12) (seq : BitVec 3), p ≠ 0 ∧ s.portUp p = true ∧ s.sys.strap = true ∧
    s.rungOk = true ∧ s.cas.st ≠ .refused ∧ w = (s.rxFrame p l (.state seq.toNat) id).domTimeout ∧ (v =
    { w with cas := { w.cas with devs := tmod {} w.cas.devs org.toNat fun d => { d with seq := some seq.toNat, skipAt := none }, nSkip := if seq = 0 ∧ (tget {} w.cas.devs org.toNat).skipAt = some w.now then w.cas.nSkip - 1 else w.cas.nSkip } })) ∧
    (∃ (s : State) (p _l : Nat) (_org : BitVec 12) (_seq : BitVec 3), p ≠ 0 ∧ s.portUp p = true ∧ s.sys.strap = false) :=
  ⟨⟨lead, 4, 0, 0, 5, 255, 4, rfl, rfl, by decide, rfl, by decide⟩,
    ⟨lead, _, 4, 0, 1, 5, 255, 4, rfl, by decide, rfl⟩,
    ⟨(boot .s1), 0, 0, 0, 0, _, rfl, rfl⟩,
    ⟨lead, 4, 0, 0, 5, 255, rfl, rfl, by decide, rfl⟩,
    ⟨lead, 4, 0, 0, 5, 255, rfl, rfl, by decide, rfl⟩,
    ⟨lead, _, 4, 0, 1, 5, 255, true, rfl, by decide, rfl⟩,
    ⟨lead, 4, 0, 5, 2047, 3, 0, by decide, rfl, rfl, by decide⟩,
    ⟨lead, 4, 0, 5, 2047, 3, 0, by decide, rfl, rfl, by decide⟩,
    ⟨lead, _, _, 4, 0, 5, 7, by decide, rfl, rfl, rfl, by decide, rfl, rfl⟩,
    ⟨folDown, 1, 0, 5, 7, by decide, rfl, rfl⟩⟩

theorem wit_CascadeDomainCompletes :
    (∃ (s u : State) (l act : Nat) (on : Bool) (phase : BitVec 3), s.sys.strap = false ∧ s.portUp 0 = true ∧ s.joinedF = true
    ∧ ((if on then wbit s.cas.cfg 0 = true else fld s.cas.cfg 1 3 = phase.toNat)) ∧ u = s.rxFrame 0 l (.dom on phase.toNat
    act) id) ∧
    (∃ (s p u : State) (t : Nat), s.itemAt .domOff HS = some t ∧ s.lastOf t = true ∧ p = s.upTo t SeqItem.domOff.rank ∧
    p.itemAt .domOff HS = some t ∧ u = p.settleTo t) ∧
    (∃ (s p u : State) (t : Nat), s.itemAt .domOff HS = none ∧ s.itemAt .domOn HS = some t ∧ s.lastOf t = true ∧ p = s.upTo t
    SeqItem.domOn.rank ∧ p.itemAt .domOn HS = some t ∧ u = p.settleTo t) ∧
    (∃ (s : State) (d : DomPhase) (c : Cas), s.cas.domPhase = some d ∧ s.rungOk = true ∧ s.ctrlUp = true ∧ d.act + fld
    s.cas.cfg 16 8 * 1000000 < s.now ∧ (c =
    { s.cas with nSkip := s.cas.nSkip + d.waiting.length, domTo := if wbit s.cas.domTo 31 then s.cas.domTo else wpack [(0, 12, d.waiting.foldl min (d.waiting.headD 0)), (31, 1, 1)] })) ∧
    (∃ (s u : State) (l tick : Nat) (cnt : Bool), s.sys.strap = false ∧ s.portUp 0 = true ∧ s.cas.st ≠ .refused ∧ u =
    s.rxFrame 0 l (.eqx tick cnt) id) ∧
    (∃ (s : State) (p _l : Nat) (_org : BitVec 12) (_ok : Bool) (_why : BitVec 4), p ≠ 0 ∧ s.portUp p = true ∧ s.sys.strap =
    true ∧ s.rungOk = true ∧ s.cas.st ≠ .refused) ∧
    (∃ (s : State) (_l _tick : Nat) (corner : BitVec 2) (_abort : Bool), s.sys.strap = false ∧ s.portUp 0 = true ∧ s.joinedF
    = true ∧ s.rungOk = true ∧ corner ≠ 3) ∧
    (∃ (s u : State) (p l : Nat) (org : BitVec 12) (nmember npass nfail rail : BitVec 8) (why : BitVec 4), p ≠ 0 ∧ s.portUp p
    = true ∧ s.rungOk = true ∧ s.cas.st ≠ .refused ∧ u = s.rxFrame p l (.mgnRep org.toNat nmember.toNat npass.toNat
    nfail.toNat rail.toNat why.toNat) id) ∧
    (∃ (s u : State) (l : Nat), s.sys.strap = false ∧ s.portUp 0 = true ∧ s.cas.st ≠ .refused ∧ u = s.rxFrame 0 l (.reset
    0xFFF) id) ∧
    (∃ (s u : State) (l : Nat) (dst : BitVec 12), s.sys.strap = false ∧ s.portUp 0 = true ∧ s.joinedF = true ∧ dst ≠ 0xFFF ∧
    u = s.rxFrame 0 l (.reset dst.toNat) id) ∧
    (∃ (s : State) (l : Level), s.writer 0x90050 .user = some l ∧ l.ge .operator = true ∧ s.sys.strap = true ∧ s.cas.domBusy
    = false) ∧
    (∃ (s u : State) (l : Level), s.writer 0x90050 .user = some l ∧ l.ge .operator = true ∧ s.sys.strap = true ∧
    s.cas.domBusy = false ∧ u =
    { s with cas := { s.cas with domCode := 0, domBusy := true, domOff := true, nSkip := 0, domTo := 0 } }) ∧
    (∃ (s : State) (l : Level) (c : Nat), s.writer 0x90050 .user = some l ∧ (c = (if !l.ge .operator then 1 else if
    !s.sys.strap then 2 else if s.cas.domBusy then 3 else 0)) ∧ c ≠ 0) ∧
    (∃ (s u : State) (l : Level) (_cnt : Bool), s.writer 0x90060 .user = some l ∧ l.ge .operator = true ∧ s.sys.strap = true
    ∧ s.cas.eqxBusy = false ∧ s.now + 500 ≤ s.cas.eqxAt ∧ s.cas.eqxAt ≤ s.now + 0x1000000 ∧ u =
    { s with cas := { s.cas with eqxCode := 0, eqxBusy := true, eqxDone := false, nOk := 0, nMiss := 0, eqxCounted := [], eqxMiss := 0 } }) ∧
    (∃ (s : State) (l : Level) (_cnt : Bool) (c : Nat), s.writer 0x90060 .user = some l ∧ (c = (if !l.ge .operator then 5
    else if !s.sys.strap then 4 else if s.cas.eqxBusy then 1 else if s.cas.eqxAt < s.now + 500 then 2 else if s.now +
    0x1000000 < s.cas.eqxAt then 3 else 0)) ∧ c ≠ 0) ∧
    (∃ (s u : State) (l : Level) (t : BitVec 12), s.writer 0x90040 .user = some l ∧ l.ge .owner = true ∧ s.sys.strap = true ∧
    (t = 0xFFF ∨ ((tget {} s.cas.devs t.toNat).joined && !(tget {} s.cas.devs t.toNat).lost) = true) ∧ u =
    { s with cas := { s.cas with ctrlCode := 0 } }) ∧
    (∃ (s : State) (l : Level) (t : BitVec 12) (c : Nat), s.writer 0x90040 .user = some l ∧ (c = (if !l.ge .owner then 1 else
    if !s.sys.strap then 2 else if t ≠ 0xFFF ∧ ((tget {} s.cas.devs t.toNat).joined && !(tget {} s.cas.devs t.toNat).lost) =
    false then 3 else 0)) ∧ c ≠ 0) :=
  ⟨⟨(fol .joined), _, 0, 1000000, false, 0, rfl, rfl, rfl, by decide, rfl⟩,
    ⟨{ rdy .user with cas := { domActs := [(false, 999999)] } }, _, _, 999999, rfl, rfl, rfl, rfl, rfl⟩,
    ⟨{ rdy .user with cas := { domActs := [(true, 999999)] } }, _, _, 999999, rfl, rfl, rfl, rfl, rfl, rfl⟩,
    ⟨{ rdy .user with cas := { cfg := 0, domPhase := some { phase := 0, act := 0, waiting := [] } } },
    { phase := 0, act := 0, waiting := [] }, _, rfl, rfl, rfl, by decide, rfl⟩,
    ⟨(fol .joined), _, 0, 1000000, true, rfl, rfl, by decide, rfl⟩,
    ⟨lead, 4, 0, 5, true, 0, by decide, rfl, rfl, rfl, by decide⟩,
    ⟨(fol .joined), 0, 1000500, 2, true, rfl, rfl, rfl, rfl, by decide⟩,
    ⟨lead, _, 4, 0, 5, 1, 1, 0, 255, 0, by decide, rfl, rfl, by decide, rfl⟩,
    ⟨(fol .joined), _, 0, rfl, rfl, by decide, rfl⟩,
    ⟨(fol .joined), _, 0, 5, rfl, rfl, rfl, by decide, rfl⟩,
    ⟨(leadS .operator), .operator, rfl, rfl, rfl, rfl⟩,
    ⟨(leadS .operator), _, .operator, rfl, rfl, rfl, rfl, rfl⟩,
    ⟨(rdy .operator), .operator, _, rfl, rfl, by decide⟩,
    ⟨{ leadS .operator with cas := { eqxAt := 1000500 } }, _, .operator, true, rfl, rfl, rfl, rfl, by decide, by decide, rfl⟩,
    ⟨(rdy .operator), .operator, true, _, rfl, rfl, by decide⟩,
    ⟨(leadS .owner), _, .owner, 0xFFF, rfl, rfl, rfl, by decide, rfl⟩,
    ⟨(rdy .owner), .owner, 5, _, rfl, rfl, by decide⟩⟩

theorem wit_HmpFramesRefused :
    (∃ (s v : State) (c : Instr) (early n : Nat) (good : Bool), s.hmpHears = true ∧ v =
    { s.hmpDue with hmp := { s.hmpDue.hmp with broken := false } } ∧ ((∃ (a : BitVec 24) (k : BitVec 16) (crc : BitVec 32), c
    = .hmpRead a k crc ∧ early = (if !lenOk k.toNat then 2 else if !addrOk a.toNat k.toNat then 3 else 0) ∧ n = 10 ∧ good =
    (crc32c (leBytes 1 1 ++ leBytes 3 a.toNat ++ leBytes 2 k.toNat) == crc)) ∨ (∃ (a : BitVec 24) (k : BitVec 16) (ws : List
    (BitVec 32)) (crc : BitVec 32), c = .hmpWrite a k ws crc ∧ early = (if !lenOk k.toNat then 2 else if !addrOk a.toNat
    k.toNat then 3 else 0) ∧ n = 10 + k.toNat ∧ good = (decide ((wordBytes ws).length = k.toNat) && crc32c (leBytes 1 2 ++
    leBytes 3 a.toNat ++ leBytes 2 k.toNat ++ wordBytes ws) == crc)) ∨ (∃ (a : BitVec 24) (k : BitVec 16) (crc : BitVec 32),
    c = .hmpChal a k crc ∧ early = (if k ≠ 0 then 2 else if 4 ≤ a.toNat then 3 else 0) ∧ n = 10 ∧ good = (crc32c (leBytes 1
    0x10 ++ leBytes 3 a.toNat ++ leBytes 2 k.toNat) == crc)) ∨ (∃ (a : BitVec 24) (k : BitVec 16) (mac : List (BitVec 8))
    (crc : BitVec 32), c = .hmpOpen a k mac crc ∧ early = (if k ≠ 32 then 2 else if 4 ≤ a.toNat then 3 else 0) ∧ n = 42 ∧
    good = (decide (mac.length = 32) && crc32c (leBytes 1 0x11 ++ leBytes 3 a.toNat ++ leBytes 2 k.toNat ++ mac) == crc)) ∨
    (∃ (a : BitVec 24) (k : BitVec 16) (crc : BitVec 32), c = .hmpClose a k crc ∧ early = (if k ≠ 0 then 2 else if a ≠ 0 then
    3 else 0) ∧ n = 10 ∧ good = (crc32c (leBytes 1 0x12 ++ leBytes 3 a.toNat ++ leBytes 2 k.toNat) == crc)))) ∧
    (∃ (s v w : State) (a : BitVec 24) (k : BitVec 16) (crc : BitVec 32) (early st n : Nat), s.hmpHears = true ∧ v =
    { s.hmpDue with hmp := { s.hmpDue.hmp with broken := false } } ∧ (early = (if k ≠ 0 then 2 else if a ≠ 0 then 3 else 0))
    ∧ ((early ≠ 0 ∧ st = early ∧ n = 0) ∨ (early = 0 ∧ st = 4 ∧ n = 10 ∧ (s.hmp.broken = true ∨ crc32c (leBytes 1 0x0E ++
    leBytes 3 a.toNat ++ leBytes 2 k.toNat) ≠ crc))) ∧ w = (v.badFrame st n).wakeEvent 2) :=
  ⟨⟨(rdy .user), _, (.hmpClose 1 0 0), _, _, _, rfl, rfl, .inr (.inr (.inr (.inr ⟨_, _, _, rfl, rfl, rfl, rfl⟩)))⟩,
    ⟨(rdy .user), _, _, 0, 1, 0, 2, 2, 0, rfl, rfl, by decide, by decide, rfl⟩⟩

theorem wit_HmpRegisterAccessCompletes :
    (∃ (s v u : State) (a : BitVec 24) (n : BitVec 16) (crc : BitVec 32) (k : Nat), s.hmpHears = true ∧ s.hmp.broken = false
    ∧ v = { s.hmpDue with hmp := { s.hmpDue.hmp with broken := false } } ∧ lenOk n.toNat = true ∧ addrOk a.toNat n.toNat =
    true ∧ crc = crc32c (leBytes 1 1 ++ leBytes 3 a.toNat ++ leBytes 2 n.toNat) ∧ u = v.tpAdd 0 10 1 0 ∧ (k = (if u.wakesNow
    then 7 else State.readCheck (addrsOf a.toNat n.toNat) u))) ∧
    (∃ (u w : State) (a : Nat), w = u.readEffect a) ∧
    (∃ (s v u w : State) (l : Level) (d : Nat) (a : BitVec 24) (n : BitVec 16) (ws : List (BitVec 32)) (crc : BitVec 32) (f :
    LineFlaws), f = Config.readFlaws s.now ∧ s.hmpHears = true ∧ s.hmp.broken = false ∧ v =
    { s.hmpDue with hmp := { s.hmpDue.hmp with broken := false } } ∧ lenOk n.toNat = true ∧ addrOk a.toNat n.toNat = true ∧ 4
    * ws.length = n.toNat ∧ crc = crc32c (leBytes 1 2 ++ leBytes 3 a.toNat ++ leBytes 2 n.toNat ++ wordBytes ws) ∧ u =
    v.tpAdd 0 (10 + n.toNat) 1 0 ∧ u.hmp.session = some l ∧ u.wakesNow = false ∧ State.writeCheck (addrsOf a.toNat n.toNat) u
    = 0 ∧ u.writeRegs l f ((addrsOf a.toNat n.toNat).zip ws) 0 = (w, d)) ∧
    (∃ (s v u : State) (a : BitVec 24) (n : BitVec 16) (ws : List (BitVec 32)) (crc : BitVec 32) (k : Nat), s.hmpHears = true
    ∧ s.hmp.broken = false ∧ v = { s.hmpDue with hmp := { s.hmpDue.hmp with broken := false } } ∧ lenOk n.toNat = true ∧
    addrOk a.toNat n.toNat = true ∧ 4 * ws.length = n.toNat ∧ crc = crc32c (leBytes 1 2 ++ leBytes 3 a.toNat ++ leBytes 2
    n.toNat ++ wordBytes ws) ∧ u = v.tpAdd 0 (10 + n.toNat) 1 0 ∧ (k = (if u.wakesNow then 7 else State.writeCheck (addrsOf
    a.toNat n.toNat) u)) ∧ k ≠ 0) ∧
    (∃ (s v u w : State) (crc : BitVec 32) (r : HmpResp) (k : Nat), s.hmpHears = true ∧ s.hmp.broken = false ∧ v =
    { s.hmpDue with hmp := { s.hmpDue.hmp with broken := false } } ∧ u = v.tpAdd 0 10 1 0 ∧ crc = crc32c (leBytes 1 0x0E ++
    leBytes 3 0 ++ leBytes 2 0) ∧ r = s.hmp.resp.getD { status := 0x0D, detail := 0, payload := [] } ∧ (k = (if u.wakesNow
    then 7 else u.plainCheck)) ∧ (w = (if k = 0 then
    { u with hmp := { u.hmp with status := r.status, detail := r.detail, out := some r, acceptedAt := u.now } } else u.answer
    k 0 []).wakeEvent 2)) ∧
    (∃ (s v : State) (c : BitVec 8), s.hmpHears = true ∧ v = { s.hmpDue with hmp := { s.hmpDue.hmp with broken := false } } ∧
    hmpCmds.contains c.toNat = false) ∧
    (∃ s w : State, s.hmpHears = true ∧ w =
    { s with hmp := { s.hmp with eAbort := incTo 0xFF s.hmp.eAbort, broken := false } }) ∧
    (∃ s w : State, s.hmpHears = true ∧ w =
    { s with hmp := { s.hmp with eTout := incTo 0xFF s.hmp.eTout, broken := Config.moreBytes s.now } }) ∧
    (∃ (_s : State) (_l : Level) (a : Nat) (_w : Word) (_f : LineFlaws), blkOf a = none) ∧
    (∃ (s : State) (a : Nat), s.islLost (islServing a) = true) ∧
    (∃ (s t u : State) (a : Nat), isLo a = true ∧ s.islLost (islServing a) = false ∧ s.islLost (islServing (a + 4)) = false ∧
    t = s.readEffect a ∧ u = t.readEffect (a + 4)) ∧
    (∃ (s : State) (a : Nat), s.islLost (islServing a) = false ∧ tget none s.sys.hiCap a = none) ∧
    (∃ (_x : Irq) (_w : Word) (i : Nat), i < 32) ∧
    (∃ (s : State) (_l : Level) (_w : Word) (_f : LineFlaws) (e : Nat × (State → Irq)), e ∈ [(0x50, fun t : State =>
    t.sys.irq), (0x1020, fun t => t.pwr.irq), (0x2050, fun t => t.seq.irq), (0x20B8, fun t => t.seq.springIrq), (0x18140, fun
    t => t.hs.hvsStat), (0x20050, fun t => t.flt.irq), (0x30050, fun t => t.wdg.irq), (0x31110, fun t => t.gpio.irq),
    (0x31118, fun t => t.gpio.intStat), (0x40020, fun t => t.cnt.irq), (0x50080, fun t => t.hld.irq), (0x601C0, fun t =>
    t.sec.irq), (0x70028, fun t => t.env.irq), (0x80080, fun t => t.cfg.irq), (0x90090, fun t => t.cas.irq), (0xA0100, fun t
    => t.mcp.irq), (0xB0020, fun t => t.bbx.irq)] ∧ tget 0 s.sys.view e.1 = 0) ∧
    (∃ (s : State) (_l : Level) (_w : Word) (_f : LineFlaws) (n : Nat), s.inUse n = true ∧ n < 128) ∧
    (∃ (s : State) (_l : Level) (_w : Word) (_f : LineFlaws) (e : Nat × Word), e ∈ [(0x54, 0xF#32), (0x1024, 7), (0x2054,
    0xFF), (0x20BC, 3), (0x20054, 0x1FF), (0x30054, 0xF), (0x31114, 0x3FF), (0x40024, 7), (0x50084, 0x7F), (0x601C4, 0x7F),
    (0x7002C, 0x1F), (0x80084, 0xF), (0x90094, 0xFF), (0xA0104, 0xFF), (0xB0024, 7)] ∧ tget 0 s.sys.view e.1 = 0) ∧
    (∃ (s : State) (_l : Level) (_lo _hi : Word) (_f : LineFlaws), s.sys.viewAt < 2 ^ 64) ∧
    (∃ (_s : State) (_l : Level) (a : Nat) (_w : Word) (_f : LineFlaws), a ∈ [0x0, 0x10, 0x14, 0x18, 0x1C, 0x2C, 0x30, 0x34,
    0x38, 0x40, 0x68, 0x6C, 0x70, 0x74, 0x78, 0x7C, 0x1000, 0x2004, 0x2008, 0x2060, 0x2064, 0x20000, 0x20010, 0x20014,
    0x20020, 0x20024, 0x20060, 0x20064, 0x3000C, 0x30010, 0x30020, 0x30030, 0x3110C, 0x40018, 0x4001C]) ∧
    (∃ (s : State) (a : Nat), a ∈ [0x30008, 0x30014, 0x30018, 0x3001C, 0x31008, 0x3100C, 0x31048, 0x3104C] ∧ tget 0
    s.sys.view a = 0) ∧
    (∃ (s : State) (_l : Level) (_w : Word) (_f : LineFlaws) (n k : Nat), s.inUse n = true ∧ n < 128 ∧ k < 6 ∧ (s.chan
    n).sense.locked = true) ∧
    (∃ (s : State) (_l : Level) (_w : Word) (_f : LineFlaws) (n : Nat), s.inUse n = true ∧ n < 128 ∧ (s.chan n).sense.locked
    = false) ∧
    (∃ (s : State) (_l : Level) (_w : Word) (_f : LineFlaws) (p i : Nat), p < nGpio s.hw.variant ∧ i < 16) ∧
    (∃ (s : State) (_l : Level) (a : Nat) (_w : Word) (_f : LineFlaws), 0x10000 ≤ a ∧ a < 0x18000 ∧ s.inUse ((a - 0x10000) /
    0x100) = false) ∧
    (∃ (s : State) (_l : Level) (a : Nat) (_w : Word) (_f : LineFlaws), s.hw.variant = .dz32 ∧ tget 0 s.sys.view a = 0 ∧
    ((0x12000 ≤ a ∧ a < 0x18000) ∨ (0x31080 ≤ a ∧ a < 0x310C0) ∨ (0x41800 ≤ a ∧ a < 0x43000))) :=
  ⟨⟨(rdy .user), _, _, 0, 4, _, _, rfl, rfl, rfl, rfl, rfl, rfl, rfl, rfl⟩,
    ⟨(rdy .user), _, 0, rfl⟩,
    ⟨(rdy .operator), _, _, _, .operator, _, 0x30014, 4, [0], _, _, rfl, rfl, rfl, rfl, rfl, rfl, rfl, rfl, rfl, rfl, rfl, by
    decide, rfl⟩,
    ⟨(rdy .user), _, _, 0x20040, 4, [0], _, _, rfl, rfl, rfl, rfl, rfl, rfl, rfl, rfl, rfl, by decide⟩,
    ⟨(rdy .user), _, _, _, _, _, _, rfl, rfl, rfl, rfl, rfl, rfl, rfl, rfl⟩,
    ⟨(rdy .user), _, 0xFF, rfl, rfl, rfl⟩,
    ⟨(rdy .user), _, rfl, rfl⟩,
    ⟨(rdy .user), _, rfl, rfl⟩,
    ⟨(rdy .user), .user, 0xFFFFFC, 0, {}, rfl⟩,
    ⟨lostTwo, 0x11000, rfl⟩,
    ⟨(rdy .user), _, _, 0x10, rfl, rfl, rfl, rfl, rfl⟩,
    ⟨(rdy .user), 0, rfl, rfl⟩,
    ⟨{}, 0, 31, by decide⟩,
    ⟨(rdy .user), .user, 0, {}, _, .head _, rfl⟩,
    ⟨(chS .user ch1), .user, 0, {}, 0, rfl, by decide⟩,
    ⟨(rdy .user), .user, 0, {}, _, .head _, rfl⟩,
    ⟨(rdy .user), .user, 0, 0, {}, by decide⟩,
    ⟨(rdy .user), .user, _, 0, {}, .head _⟩,
    ⟨(rdy .user), _, .head _, rfl⟩,
    ⟨(chS .user { ch1 with sense := { locked := true } }), .user, 0, {}, 0, 0, rfl, by decide, by decide, rfl⟩,
    ⟨(chS .user ch1), .user, 0, {}, 0, rfl, by decide, rfl⟩,
    ⟨(rdy .user), .user, 0, {}, 0, 0, by decide, by decide⟩,
    ⟨(rdy .user), .user, 0x10000, 0, {}, by decide, by decide, rfl⟩,
    ⟨{ rdy .user with hw := { State.reset.hw with variant := .dz32 } }, .user, 0x12000, 0, {}, rfl, rfl, by decide⟩⟩

theorem wit_HmpSessionsComplete :
    (∃ (s v u : State) (lv : BitVec 24) (crc : BitVec 32) (k : Nat), s.hmpHears = true ∧ s.hmp.broken = false ∧ v =
    { s.hmpDue with hmp := { s.hmpDue.hmp with broken := false } } ∧ u = v.tpAdd 0 10 1 0 ∧ (k = (if u.wakesNow then 7 else
    u.plainCheck)) ∧ lv.toNat < 4 ∧ crc = crc32c (leBytes 1 0x10 ++ leBytes 3 lv.toNat ++ leBytes 2 0)) ∧
    (∃ (s v u w : State) (l : Level) (lv : BitVec 24) (crc : BitVec 32) (mac : List (BitVec 8)), s.hmpHears = true ∧
    s.hmp.broken = false ∧ v = { s.hmpDue with hmp := { s.hmpDue.hmp with broken := false } } ∧ u = v.tpAdd 0 42 1 0 ∧
    lv.toNat < 4 ∧ l = Level.ofCode lv.toNat ∧ mac.length = 32 ∧ crc = crc32c (leBytes 1 0x11 ++ leBytes 3 lv.toNat ++
    leBytes 2 32 ++ mac) ∧ u.wakesNow = false ∧ u.plainCheck = 0 ∧ w =
    { u.endSession with hmp := { u.endSession.hmp with nonce := none } }) ∧
    (∃ (s v u : State) (lv : BitVec 24) (crc : BitVec 32) (mac : List (BitVec 8)) (k : Nat), s.hmpHears = true ∧ s.hmp.broken
    = false ∧ v = { s.hmpDue with hmp := { s.hmpDue.hmp with broken := false } } ∧ u = v.tpAdd 0 42 1 0 ∧ lv.toNat < 4 ∧
    mac.length = 32 ∧ crc = crc32c (leBytes 1 0x11 ++ leBytes 3 lv.toNat ++ leBytes 2 32 ++ mac) ∧ (k = (if u.wakesNow then 7
    else u.plainCheck)) ∧ k ≠ 0) ∧
    (∃ (s v u : State) (crc : BitVec 32) (k : Nat), s.hmpHears = true ∧ s.hmp.broken = false ∧ v =
    { s.hmpDue with hmp := { s.hmpDue.hmp with broken := false } } ∧ u = v.tpAdd 0 10 1 0 ∧ crc = crc32c (leBytes 1 0x12 ++
    leBytes 3 0 ++ leBytes 2 0) ∧ (k = (if u.wakesNow then 7 else u.plainCheck))) ∧
    (∃ s : State, s.hmp.session.isSome = true ∧ s.hmp.idle ≠ 0 ∧ s.hmp.acceptedAt + s.hmp.idle * 100000000 ≤ s.now) ∧
    (∃ (s : State) (l : Level) (b : List Byte) (at_ : Nat), s.hmp.nonce = some (l, b, at_) ∧ at_ + 100000000 ≤ s.now) ∧
    (∃ (s : State) (e : Nat), s.hmp.lockEnd = some e ∧ e ≤ s.now) :=
  ⟨⟨(rdy .user), _, _, 3, _, _, rfl, rfl, rfl, rfl, rfl, by decide, rfl⟩,
    ⟨(rdy .user), _, _, _, _, 3, _, (List.replicate 32 0), rfl, rfl, rfl, rfl, by decide, rfl, rfl, rfl, rfl, by decide, rfl⟩,
    ⟨{ rdy .user with sys := { sysR with phase := .halt } }, _, _, 3, _, (List.replicate 32 0), _, rfl, rfl, rfl, rfl, by
    decide, rfl, rfl, rfl, by decide⟩,
    ⟨(rdy .user), _, _, _, _, rfl, rfl, rfl, rfl, rfl, rfl⟩,
    ⟨(later 6000000000), rfl, by decide, by decide⟩,
    ⟨{ later 100000000 with hmp := { nonce := some (.user, [], 0) } }, .user, [], 0, rfl, by decide⟩,
    ⟨{ rdy .user with hmp := { lockEnd := some 1000000 } }, 1000000, rfl, by decide⟩⟩

theorem wit_DebugPortCompletes :
    (∃ s : State, s.tapUp = true) ∧
    (∃ (s : State) (_pads : List (BitVec 16)), s.tapUp = true) ∧
    (∃ (s : State) (c : Instr) (i : JtagIr), s.tapUp = true ∧ ((c = .jtagExtest ∧ i = .extest) ∨ (c = .jtagClamp ∧ i =
    .clamp) ∨ (c = .jtagHighz ∧ i = .highz))) ∧
    (∃ s : State, s.tapUp = true) ∧
    (∃ s u : State, s.dbgUp = true ∧ u = (s.takeIr .dbgChal).dbgLockPast ∧ u.jtag.lockEnd = none) ∧
    (∃ s u : State, s.dbgUp = true ∧ u = (s.takeIr .dbgChal).dbgLockPast ∧ u.jtag.lockEnd.isSome = true) ∧
    (∃ (s u v : State) (_lv : BitVec 8) (_mac : List (BitVec 8)), s.dbgUp = true ∧ u = ((s.takeIr
    .dbgAuth).dbgLockPast).dbgNonceEnds ∧ v = { u with jtag := { u.jtag with nonce := none } }) ∧
    (∃ s : State, s.dbgUp = true) ∧
    (∃ (s u : State) (_a : BitVec 24) (_d : BitVec 32), s.dbgUp = true ∧ u = (s.takeIr .dbgReg).shiftOut
    s.jtag.prevRead.toNat) ∧
    (∃ (s u : State) (l : Level) (_a : BitVec 24) (_d : BitVec 32) (f : LineFlaws), f = Config.readFlaws s.now ∧ s.dbgUp =
    true ∧ s.sec.dbg.rights = some l ∧ u = (s.takeIr .dbgReg).shiftOut s.jtag.prevRead.toNat) ∧
    (∃ (s : State) (_a : BitVec 24) (_d : BitVec 32), s.dbgUp = true ∧ s.sec.dbg.rights = none) ∧
    (∃ s : State, s.dbgUp = true) ∧
    (∃ s : State, s.dbgUp = true) ∧
    (∃ (s : State) (b : List Byte) (at_ : Nat), s.jtag.nonce = some (b, at_) ∧ at_ + 100000000 ≤ s.now) ∧
    (∃ (s : State) (e : Nat), s.jtag.lockEnd = some e ∧ e ≤ s.now) :=
  ⟨⟨(rdy .user), rfl⟩,
    ⟨(rdy .user), [], rfl⟩,
    ⟨(rdy .user), .jtagExtest, .extest, rfl, by decide⟩,
    ⟨(rdy .user), rfl⟩,
    ⟨(rdy .user), _, rfl, rfl, rfl⟩,
    ⟨{ rdy .user with jtag := { lockEnd := some 2000000 } }, _, rfl, rfl, rfl⟩,
    ⟨(rdy .user), _, _, 3, [], rfl, rfl, rfl⟩,
    ⟨(rdy .user), rfl⟩,
    ⟨{ rdy .user with sec := { dbg := .observe } }, _, 0, 0, rfl, rfl⟩,
    ⟨{ rdy .user with sec := { dbg := .factory } }, _, .vendor, 0, 0, _, rfl, rfl, rfl, rfl⟩,
    ⟨{ rdy .user with sec := { dbg := .observe } }, 0, 0, rfl, rfl⟩,
    ⟨(rdy .user), rfl⟩,
    ⟨(rdy .user), rfl⟩,
    ⟨{ later 100000000 with jtag := { nonce := some ([], 0) } }, [], 0, rfl, by decide⟩,
    ⟨{ rdy .user with jtag := { lockEnd := some 1000000 } }, 1000000, rfl, by decide⟩⟩

theorem wit_LinkTestCompletes :
    (∃ (s : State) (l : Level) (t m p : Nat) (c : Instr), s.writer (ltReg t) .user = some l ∧ ((c = .ltModeOff t ∧ m = 0 ∧ p
    = (tget {} s.lt t).poly) ∨ (∃ q : BitVec 2, c = .ltModePrbs t q ∧ m = 1 ∧ p = q.toNat) ∨ (c = .ltModeNear t ∧ m = 2 ∧ p =
    (tget {} s.lt t).poly) ∨ (c = .ltModeFar t ∧ m = 3 ∧ p = (tget {} s.lt t).poly))) ∧
    (∃ (s : State) (t _m _p : Nat) (x : Lt), x = tget {} s.lt t) ∧
    (∃ (s : State) (l : Level) (t : Nat) (x : Lt), s.writer (ltReg t) .user = some l ∧ l.ge .owner = true ∧ x = tget {} s.lt
    t ∧ ltPresent s.hw.variant t = true ∧ (x.mode = 0 ∨ s.ltMay t = true)) ∧
    (∃ (s : State) (t _good _errors _window : Nat), ltPresent s.hw.variant t = true) ∧
    (∃ (s : State) (t _good _errors _window : Nat), ltPresent s.hw.variant t = false) :=
  ⟨⟨(rdy .owner), .owner, 1, 1, 3, (.ltModePrbs 1 3), rfl, by decide⟩,
    ⟨(rdy .owner), 1, 1, 3, _, rfl⟩,
    ⟨(rdy .owner), .owner, 1, _, rfl, rfl, rfl, rfl, by decide⟩,
    ⟨(rdy .user), 6, 0, 0, 0, rfl⟩,
    ⟨(rdy .user), 100, 0, 0, 0, rfl⟩⟩

theorem wit_LifecycleCompletes :
    (∃ (s : State) (l : Level) (key : BitVec 16) (w2 : BitVec 2) (hs : Bool) (o : LcReq) (c : Instr), s.writer 0x60004 .user
    = some l ∧ ((o = .prov ∧ c = .toProvisioned key) ∨ (o = .depl ∧ c = .toDeployed key) ∨ (o = .ret ∧ c = .toReturned key) ∨
    (o = .retire ∧ c = .toRetired key) ∨ (o = .root ∧ c = .root key) ∨ (o = .arb ∧ c = .arb key) ∨ (o = .wdg ∧ c = .wdgFuse
    key w2 hs)) ∧ s.lcCheck o l key.toNat ≠ 0) ∧
    (∃ (s : State) (l : Level) (o : LcReq), s.writer 0x60004 .user = some l ∧ s.lcCheck o l 0x1C5A = 0) ∧
    (∃ (s : State) (l : Level) (_win : BitVec 2) (_hs : Bool), s.writer 0x60004 .user = some l ∧ s.lcCheck .wdg l 0x1C5A = 0) ∧
    (∃ (s u v : State) (o : LcOp) (f : Fuses) (ok : Bool), s.sec.lcOp = some o ∧ s.ctrlUp = true ∧ (f = (if ok ||
    Config.fuseReads s.now then s.blown o else s.hw.fuses)) ∧ (u =
    { s.takeFuses f with sec := { s.sec with lcOp := none, lcCode := if ok then 0 else 7, irq := Irq.set s.sec.irq 4 } }) ∧
    (v = (if u.lcs = s.lcs then u else (({ u with sec := { u.sec with transAt := some u.now } }).endSession).setDbg .off))) :=
  ⟨⟨(rdy .owner), .owner, 0, 0, false, .retire, (.toRetired 0), rfl, by decide, by decide⟩,
    ⟨(rdy .owner), .owner, .retire, rfl, by decide⟩,
    ⟨(rdy .vendor), .vendor, 3, true, rfl, by decide⟩,
    ⟨{ rdy .user with sec := { lcOp := some { op := 1 } } }, _, _, { op := 1 }, _, true, rfl, rfl, rfl, rfl, rfl⟩⟩

theorem wit_KeysComplete :
    (∃ (s : State) (l : Level) (lv : BitVec 2) (c : Nat), s.writer 0x60010 .user = some l ∧ (c = (if l.ge .owner = false then
    1 else if lv = 3 then 7 else if lv = 2 ∧ l = .vendor ∧ s.lcs ≠ .blank ∧ s.lcs ≠ .provisioned then 2 else if lv = 2 ∧ l ≠
    .vendor ∧ s.lcs ≠ .provisioned ∧ s.lcs ≠ .deployed ∧ s.lcs ≠ .returned then 2 else if lv ≠ 2 ∧ s.lcs = .retired then 2
    else if s.sec.keyBusy.isSome then 5 else if s.unblob l = none then 3 else 0))) ∧
    (∃ (s : State) (l : Level) (c : Nat), s.writer 0x60010 .user = some l ∧ (c = (if l.ge .owner = false then 1 else if s.lcs
    ≠ .provisioned ∧ s.lcs ≠ .deployed then 2 else if s.sec.keyBusy.isSome then 5 else if s.unblob l = none then 3 else 0))) ∧
    (∃ (s : State) (l : Level) (i : BitVec 8) (c : Nat), s.writer 0x60010 .user = some l ∧ (c = (if l ≠ .owner then 1 else if
    s.lcs ≠ .provisioned ∧ s.lcs ≠ .deployed then 2 else if (s.kpol i.toNat).valid = false then 4 else if (s.kpol
    i.toNat).line < 16 then 6 else if s.sec.keyBusy.isSome then 5 else if s.unblob l = none then 3 else 0))) ∧
    (∃ (s u : State) (l : Level) (i : BitVec 8) (c : Nat), s.writer 0x60010 .user = some l ∧ (c = (if l ≠ .owner then 1 else
    if s.lcs = .retired then 2 else if (s.kpol i.toNat).valid = false then 4 else if (s.kpol i.toNat).line < 16 then 6 else
    if s.sec.keyBusy.isSome then 5 else 0)) ∧ u =
    { s with env := s.env.clearLines (s.ckeyLine i.toNat) (s.ckeyLine i.toNat + 64), sec := { s.sec with keyCode := 0, restored := none, kram := tset [] s.sec.kram i.toNat [], ready := s.sec.ready &&& ~~~ BitVec.ofNat 256 (2 ^ i.toNat) } }) ∧
    (∃ (s u : State) (l : Level) (i : BitVec 8) (c : Nat), s.writer 0x60010 .user = some l ∧ (c = (if l ≠ .owner then 1 else
    if s.lcs ≠ .deployed then 2 else if (s.kpol i.toNat).valid = false then 4 else if (s.kpol i.toNat).line < 16 then 6 else
    if s.sec.keyBusy.isSome then 5 else if tget 0 s.sec.alarmTs i.toNat = s.now + 1 then 2 else 0)) ∧ u =
    { s with sec := { s.sec with keyCode := 0, held := s.sec.held &&& ~~~ BitVec.ofNat 256 (2 ^ i.toNat), restored := some (s.now, i.toNat) } }) ∧
    (∃ (s u : State) (a : Nat) (l : List Byte), s.sec.keyBusy = some (a, l) ∧ s.ctrlUp = true ∧ s.rungOk = true ∧ u =
    { s with env := s.env.putLine a l, sec := { s.sec with keyBusy := none } }) ∧
    (∃ (s : State) (_fl : LineFlaws) (l : List Nat), s.sec.unwrapping = some l ∧ s.ctrlUp = true ∧ s.rungOk = true ∧
    s.islLost 18 = false) ∧
    (∃ (s t : State) (fl : LineFlaws) (i : Nat) (good : Bool), i < 256 ∧ t = s.unwrapOne fl i ∧ good = ((s.env.check fl
    (s.ckeyLine i)).isNone && decide (leAt (s.env.lineAt (s.ckeyLine i)) 41 1 = i) && ((s.readLine fl (s.ckeyLine i)).keyAt
    (s.ckeyLine i) 0x10).isSome)) ∧
    (∃ (_s : State) (i : Nat), i < 256) ∧
    (∃ (s u v : State), s.ctrlUp = true ∧ s.sys.vauxDown = false ∧ u =
    { s with sec := { s.sec with tamperN := incTo 0xFF s.sec.tamperN, tamperLast := 2, irq := Irq.set s.sec.irq 3 } } ∧ v =
    { s with sec := { s.sec with tamperN := incTo 0xFF s.sec.tamperN, tamperLast := 1, irq := Irq.set s.sec.irq 3, tamperEnd := s.now + Config.tamperLen s.now } }) :=
  ⟨⟨(rdy .vendor), .vendor, 1, _, rfl, rfl⟩,
    ⟨(rdy .owner), .owner, _, rfl, rfl⟩,
    ⟨{ rdy .owner with sys := { sysR with taken := { lcs := 1 } }, sec := { kpol := [(255, { valid := true, line := 16 })] } },
    .owner, 255, _, rfl, rfl⟩,
    ⟨{ rdy .owner with sys := { sysR with taken := { lcs := 0 } }, sec := { kpol := [(255, { valid := true, line := 16 })] } },
    _, .owner, 255, _, rfl, rfl, rfl⟩,
    ⟨{ rdy .owner with sys := { sysR with taken := { lcs := 0x10 } }, sec := { kpol := [(255, { valid := true, line := 16 })] } },
    _, .owner, 255, _, rfl, rfl, rfl⟩,
    ⟨keyLine, _, 64, ones, rfl, rfl, rfl, rfl⟩,
    ⟨{ rdy .user with sec := { unwrapping := some [3] } }, [], [3], rfl, rfl, rfl, rfl⟩,
    ⟨(rdy .user), _, {}, 3, _, by decide, rfl, rfl⟩,
    ⟨(rdy .user), 255, by decide⟩,
    ⟨(rdy .user), _, _, rfl, rfl, rfl, rfl⟩⟩

theorem wit_PowerLadderCompletes :
    (∃ (s : State) (l : Level), s.writer 0x1004 .user = some l ∧ l.ge .operator = true ∧ s.pwr.entry = none ∧ s.pwr.exit =
    none) ∧
    (∃ s t : State, (t = (if s.pwr.rung = .summer then s.leaveSummer s.now else s).rungPrepare)) ∧
    (∃ (s u v w : State) (r : Rung), u = s.wdgCatch ∧ u.pwr.entry = some r ∧ u.pwr.prepared = true ∧ u.railsDown = true ∧
    u.sys.mainClock = true ∧ v = (u.zeroize.endSession).setDbg .off ∧ w =
    { v with sys := { v.sys with mainClock := false, rcAcc := 0 }, cas := v.cas.clockStops, gpio := { v.gpio with latched := true, mirHeld := (List.range 8).foldl (fun a k => a + b2n (v.mirror k) * 2 ^ k) 0 }, pwr := { v.pwr with rung := r, entry := none, prepared := false, entryTs := v.now, irq := Irq.set v.pwr.irq 0 } }) ∧
    (∃ s u : State, u = s.wdgCatch ∧ (u.pwr.entry = none ∨ u.pwr.prepared = false ∨ u.railsDown = false)) ∧
    (∃ s : State, s.pwr.rung = .winter ∧ s.pwr.exit = none ∧ s.vinComes = false ∧ fld s.pwr.policy 8 8 ≠ 0 ∧ s.pwr.entryTs +
    fld s.pwr.policy 8 8 * 100000000 ≤ s.now) ∧
    (∃ s : State, fld s.pwr.policy 16 16 ≠ 0 ∧ s.pwr.entryTs + fld s.pwr.policy 16 16 * 100000000 ≤ s.now) ∧
    (∃ (s : State) (src : BitVec 4), s.wakeEnabled src.toNat = false) ∧
    (∃ (s : State) (src : BitVec 4), s.wakeEnabled src.toNat = true ∧ s.rungOk = false ∧ s.pwr.exit = none) ∧
    (∃ (s : State) (src : BitVec 4), s.wakeEnabled src.toNat = true ∧ s.rungOk = true ∧ s.pwr.entry.isSome = true) ∧
    (∃ (_s : State) (k : Nat), 1 ≤ k ∧ k ≤ 6) ∧
    (∃ (s u v w x y : State) (r : Rung) (at_ : Nat), s.pwr.exit = some (r, at_) ∧ s.rungOk = false ∧ (at_ + (if s.pwr.rung =
    .midwinter then 20000 else 2000) ≤ s.now) ∧ u = s.rcEdge ∧ (v =
    { u with sys := { u.sys with mainClock := true }, wdg := if u.wdg.run then { u.wdg.period (u.now + 1) with armed := true } else { u.wdg with armed := true }, gpio := { u.gpio with latched := false }, pwr := { u.pwr with rung := r, exit := none, entryTs := u.now, irq := Irq.set u.pwr.irq 0 } })
    ∧ y = ({ v.casRetrain with sys := { v.casRetrain.sys with deferred := [] } }.unwrapAll).reports v.sys.deferred u.now ∧ w
    = { y with pwr := { y.pwr with tamperWake := none, domOn := false } } ∧ (x =
    ((match y.pwr.tamperWake with | some t => w.safeEnter 2047 t | none => w)).settle u.now)) ∧
    (∃ s u : State, s.sys.phase ≠ .por ∧ s.sys.vauxDown = false ∧ u =
    { s with pwr := { s.pwr with hotEnd := s.now + Config.hotLen s.now } }) :=
  ⟨⟨(rdy .operator), .operator, rfl, rfl, rfl, rfl⟩,
    ⟨{ rdy .user with pwr := { entry := some .winter } }, _, rfl⟩,
    ⟨{ rdy .user with pwr := { entry := some .winter, prepared := true } }, _, _, _, .winter, rfl, rfl, rfl, rfl, rfl, rfl,
    rfl⟩,
    ⟨(rdy .user), _, rfl, by decide⟩,
    ⟨(winter 0x100 0), rfl, rfl, rfl, by decide, by decide⟩,
    ⟨(winter 0x10000 16), by decide, by decide⟩,
    ⟨(winter 0 16), 15, rfl⟩,
    ⟨(winter 0 0x10), 5, rfl, rfl, rfl⟩,
    ⟨{ rdy .user with pwr := { entry := some .winter, wakeWinter := 0x10 } }, 5, rfl, rfl, rfl⟩,
    ⟨(winter 0 0), 1, by decide, by decide⟩,
    ⟨{ winter 0 0 with pwr := { rung := .winter, exit := some (.autumn, 0) } }, _, _, _, _, _, .autumn, 0, rfl, rfl, by
    decide, rfl, rfl, rfl, rfl, rfl⟩,
    ⟨(rdy .user), _, by decide, rfl, rfl⟩⟩

theorem wit_PinsComplete :
    (∃ (s : State) (l : Level) (p : Nat) (_bits : BitVec 16), s.writer (portReg p 0x08) .operator = some l) ∧
    (∃ (s : State) (l : Level) (p : Nat) (_bits : BitVec 16), s.writer (portReg p 0x0C) .operator = some l) ∧
    (∃ (s : State) (l : Level) (p d : Nat) (v : BitVec 16), s.writer (portReg p 0x10) .operator = some l ∧ d = mixBits
    (lessBits (s.portMask p) (s.port p).locked) (s.port p).dir v.toNat) ∧
    (∃ (s : State) (l : Level) (p : Nat) (v : BitVec 32) (free bad : Nat → Bool), s.writer (portReg p 0x18) .operator = some
    l ∧ (∀ i, free i = ((s.portMask p).testBit i && !(s.port p).locked.testBit i)) ∧ (∀ i, bad i = (free i && decide (v.toNat
    / 4 ^ i % 4 = 3)))) ∧
    (∃ (s : State) (l : Level) (v : BitVec 32) (bad : Nat → Bool), s.writer 0x31104 .operator = some l ∧ (∀ i, bad i =
    (s.lockedNow0.testBit i && (v.toNat.testBit i != s.gpio.pen.testBit i)))) ∧
    (∃ (s : State) (l : Level) (k : Nat) (_v : BitVec 32), s.writer (0x31140 + 4 * k) .operator = some l) ∧
    (∃ (s u : State) (l : Level) (p : Nat) (_key _mask : BitVec 16), s.writer (portReg p 0x20) .operator = some l ∧ p < nGpio
    s.hw.variant ∧ u = s.lockPast p) ∧
    (∃ (s : State) (p at_ m : Nat), (s.port p).lockAt = some (at_, m) ∧ at_ + 1000 ≤ s.now) ∧
    (∃ (s : State) (p pin : Nat) (level hit : Bool), p < nGpio s.hw.variant ∧ pin < 16 ∧ (hit = (((s.port p).inp.testBit pin
    != level) && decide (fld (s.gpio.selOf pin) 0 2 = p) && (if level then decide (fld (s.gpio.selOf pin) 2 3 = 1 ∨ fld
    (s.gpio.selOf pin) 2 3 = 3) else decide (fld (s.gpio.selOf pin) 2 3 = 2 ∨ fld (s.gpio.selOf pin) 2 3 = 3)) && !(s.port
    p).claim.testBit pin && !s.gpio.latched))) ∧
    (∃ (s : State) (p pin : Nat) (_level : Bool), (nGpio s.hw.variant ≤ p ∨ 16 ≤ pin)) ∧
    (∃ (s u v : State) (levels : BitVec 8) (act : Nat) (new : List Nat), s.sys.phase ≠ .por ∧ s.sys.vauxDown = false ∧ act =
    mixBits s.wakeSampled s.gpio.wakeAct (Nat.xor (Nat.xor levels.toNat s.gpio.wakePol) 0xFF) ∧ new = (List.range 8).filter
    (fun k => act.testBit k && (!s.gpio.wakeAct.testBit k || (decide (mixBits s.wakeSampled s.gpio.wakeNow levels.toNat =
    s.gpio.wakeNow) && s.wakeSampled.testBit k))) ∧ v = s.modPort 0 (fun x =>
    { x with pad := mixBits s.wakeSampled x.pad levels.toNat }) ∧ (u =
    { v with gpio := { v.gpio with wakeNow := mixBits s.wakeSampled s.gpio.wakeNow levels.toNat, wakeAct := act, irq := if s.rungOk then new.foldl Irq.set s.gpio.irq else s.gpio.irq } })) :=
  ⟨⟨(rdy .operator), .operator, 2, 0xFFFF, rfl⟩,
    ⟨(rdy .operator), .operator, 2, 0xFFFF, rfl⟩,
    ⟨(rdy .operator), .operator, 2, _, 0xFFFF, rfl, rfl⟩,
    ⟨(rdy .operator), .operator, 2, 0xFFFFFFFF, _, _, rfl, fun _ => rfl, fun _ => rfl⟩,
    ⟨(rdy .operator), .operator, 1, _, rfl, fun _ => rfl⟩,
    ⟨(rdy .operator), .operator, 7, 8, rfl⟩,
    ⟨(rdy .operator), _, .operator, 2, 0x2D6B, 255, rfl, by decide, rfl⟩,
    ⟨{ rdy .user with gpio := { ports := [(2, { lockAt := some (999000, 255) })] } }, 2, 999000, 255, rfl, by decide⟩,
    ⟨(rdy .user), 2, 15, true, _, by decide, by decide, rfl⟩,
    ⟨(rdy .user), 2, 16, true, by decide⟩,
    ⟨(rdy .user), _, _, 0xFF, _, _, by decide, rfl, rfl, rfl, rfl, rfl⟩⟩

theorem wit_CountersComplete :
    (∃ (s : State) (l : Level) (late : List Nat), s.writer 0x40000 .operator = some l ∧ late = (s.cnt.missNow.flatten.filter
    fun k => !decide (tget 0 (s.cnt.freeze false true).leaf k = tget 0 s.cnt.leaf k))) ∧
    (∃ (s : State) (t : Nat), s.active = true ∧ s.cnt.req = some t ∧ t ≤ s.now) ∧
    (∃ (s : State) (t : Nat) (ws : Tab Word), s.cnt.shadow = some (0, t, ws) ∧ s.settledBy t = true) ∧
    (∃ (s : State) (t src : Nat) (ws : Tab Word), s.cnt.shadow = some (src, t, ws) ∧ (src ≠ 0 ∨ s.settledBy t = false)) ∧
    (∃ (s : State) (l : Level) (n j : Nat) (_v : BitVec 32), s.writer (leafReg n j) .operator = some l ∧ n < nCh
    s.hw.variant) ∧
    (∃ (s : State) (l : Level) (n j : Nat) (_v : BitVec 32), s.writer (leafReg n j + 4) .operator = some l ∧ j < 8 ∧ s.inUse
    n = true) ∧
    (∃ (s : State) (l : Level) (n j : Nat) (_v : BitVec 32), s.writer (leafReg n j + 4) .operator = some l ∧ j < 8 ∧ s.inUse
    n = false) ∧
    (∃ (s : State) (isl : Nat) (_single _double : List CntSpot), s.active = true ∧ isl < nIsl s.hw.variant ∧ s.islLost isl =
    false) :=
  ⟨⟨(rdy .operator), .operator, _, rfl, rfl⟩,
    ⟨{ rdy .user with cnt := { req := some 1000000 } }, 1000000, rfl, rfl, by decide⟩,
    ⟨{ rdy .user with cnt := { shadow := some (0, 999999, []) } }, 999999, [], rfl, rfl⟩,
    ⟨{ rdy .user with cnt := { shadow := some (0, 1000000, []) } }, 1000000, 0, [], rfl, by decide⟩,
    ⟨(rdy .operator), .operator, 127, 7, 0xFFFFFFFF, rfl, by decide⟩,
    ⟨(chS .operator ch1), .operator, 0, 7, 0xFFFFFFFF, rfl, by decide, rfl⟩,
    ⟨(rdy .operator), .operator, 0, 7, 0, rfl, by decide, rfl⟩,
    ⟨(rdy .user), 15, [], [], rfl, by decide, rfl⟩⟩

theorem wit_TablesKept :
    ∃ s t : State, Safety.tablesWf s = true ∧ step s = .next t :=
  ⟨{ rdy .user with pending := [.cntFreeze] }, _, rfl, rfl⟩

/-! ## Small steps whose results the manual's worked examples give -/

/-- The state a command leads to. -/
def after (c : Instr) (s : State) : State :=
  match exec c s with
  | .next t => t
  | _ => s

/-- Example of 09: the answers of tasks 0 and 2 to question 0x4D27. -/
theorem test_wdg_answers : (wdgAnswer 0x4D27 0x1F38 0, wdgAnswer 0x4D27 0xA0C5 2) = (0xAFE5, 0x634F) := by decide

/-- The watchdog of the example of 09 at a time in ms, with both tasks answered. -/
def wdgAt (ms : Nat) : State :=
  { later (ms * 100000) with
    sys := { sysR with tb := ms * 100000, settled := ms * 100000, taken := { win := 2 } }
    seq := { everOn := true }
    wdg := { run := true, qa := true, len := 10000000, q := 0x4D27, checked := 5, tasks := [(0, 0x11F38), (2, 0x1A0C5)] } }

/-- Example of 09, step 3: early, refused, the answers kept. -/
theorem test_wdg_early :
    ((after (.wdgSvc 0xB2D8) (wdgAt 48)).wdg.code, (after (.wdgSvc 0xB2D8) (wdgAt 48)).wdg.checked) = (1, 5) := by decide

/-- Example of 09, step 4: on the opening tick, accepted, the answers cleared. -/
theorem test_wdg_opening :
    ((after (.wdgSvc 0xB2D8) (wdgAt 50)).wdg.code, (after (.wdgSvc 0xB2D8) (wdgAt 50)).wdg.checked) = (0, 0) := by decide

/-- Example of 06: the capacitance estimate. -/
theorem test_capacitance : Hs.capOf { capCfg := 0x000507D0 } 1305600 1600 960 = 679 := by decide

/-- Example of 07: the energy at 52 V. -/
theorem test_energy :
    State.energyOf { State.reset with hs := { cEst := 679 }, hld := { volt := 1520, cfg := 920 } } 2080 = 393548 := by decide

/-- Example of 07: the energy of one entry, in pJ. -/
theorem test_entry_energy : LEntry.pj 0x07D00FA0 { group := 1, epoch := 1, bytes := 4096 } = 18384000 := by decide

/-- Example of 06: the clamp band and the limit band of MEDIA_VDDQ. -/
theorem test_bands :
    (Chan.clampBand { ch := { mgnCfg := 0x220 }, sense := { act := { ov := 832, uv := 768 } } },
     Chan.limitBand { ch := { mgnCfg := 0x220 }, sense := { act := { ov := 832, uv := 768 } } })
      = ((3106, 3294), (3089, 3311)) := by decide

/-- Example of 10: the coded samples after the first. -/
theorem test_coder : codeFrom 1 true 3200 3200 [3203, 3205, 3210, 3204] = [2, 0, 0, 5] := by decide

/-- Example of 10: their bits with k = 1. -/
theorem test_coder_bits :
    ([2, 0, 0, 5].map fun u => rice u 1).flatten
      = [true, false, false, false, false, false, false, true, true, false, true] := by decide

/-- Example of 13, step 6: a frame of CMD 0x00 is answered ECMD. -/
theorem test_hmp_ecmd : (after (.hmpEcmd 0) (rdy .user)).hmp.resp.map (·.status) = some 1 := by decide

/-- Example of 15, steps 4 and 5: the lock, and the refused enable of MIRROR3. -/
theorem test_gpio_lock :
    ((after (.gpioLock 0 0x2D6B 0xFF00)
      { rdy .operator with gpio := { ports := [(0, { lockAt := some (999800, 0xFF00) })] } }).port 0).locked = 0xFF00 := by
  decide

theorem test_gpio_locked_pen :
    ((after (.gpioPenWrite 0xC01) { rdy .operator with gpio := { pen := 0x401, ports := [(0, { locked := 0xFF00 })] } }).gpio.pen,
     (after (.gpioPenWrite 0xC01) { rdy .operator with gpio := { pen := 0x401, ports := [(0, { locked := 0xFF00 })] } }).gpio.err)
      = (0x401, 0xB001#32) := by decide +kernel

/-- Example of 16, step 1: the lower half of a leaf is staged, the upper half writes both. -/
theorem test_leaf_write :
    tget 0 (after (.cntLeafHiWrite 0 7 0xFFFF) { chS .operator ch1 with cnt := { stage := 0xFFFFFC18 } }).cnt.leaf 7
      = 0xFFFFFFFFFC18 := by decide

/-- Example of 00: the island and the registers of channel 37. -/
theorem test_channel_place : (islServing (chReg 37 0), chReg 37 0) = (4, 0x12500) := by decide

end Sys2Proof.Tests
end

section
/-! PROOFS. The lowest field of a packed register word, and the VARIANT field of SYS_ID (R1). -/

namespace Sys2Proof.Machine

/-! ## The lowest field of a packed word -/

/-- Fields packed from bit `n` upwards leave the bits below `n` as they are. -/
theorem wpack_sum_modEq_of_le (n : Nat) (fs : List (Nat × Nat × Nat)) (a : Nat) (h : ∀ f ∈ fs, n ≤ f.1) :
    fs.foldl (fun a f => a + f.2.2 % 2 ^ f.2.1 * 2 ^ f.1) a ≡ a [MOD 2 ^ n] := by
  induction fs generalizing a with
  | nil => exact .refl a
  | cons f fs ih =>
    obtain ⟨hf, hfs⟩ := List.forall_mem_cons.mp h
    have hdvd : 2 ^ n ∣ f.2.2 % 2 ^ f.2.1 * 2 ^ f.1 := (Nat.pow_dvd_pow 2 hf).mul_left _
    calc fs.foldl (fun a f => a + f.2.2 % 2 ^ f.2.1 * 2 ^ f.1) (a + f.2.2 % 2 ^ f.2.1 * 2 ^ f.1)
      _ ≡ a + f.2.2 % 2 ^ f.2.1 * 2 ^ f.1 [MOD 2 ^ n] := ih _ hfs
      _ ≡ a + 0 [MOD 2 ^ n] := (Nat.modEq_zero_iff_dvd.mpr hdvd).add_left a

/-- A field at bit 0 reads back the value packed there, cut to its width, when the other fields lie above it. -/
theorem fld_wpack_low (n v : Nat) (fs : List (Nat × Nat × Nat)) (hn : n ≤ 32) (h : ∀ f ∈ fs, n ≤ f.1) :
    fld (wpack ((0, n, v) :: fs)) 0 n = v % 2 ^ n := by
  have hlow := wpack_sum_modEq_of_le n fs (v % 2 ^ n) h
  simp only [Nat.ModEq, Nat.mod_mod] at hlow
  simp [fld, wpack, w32, Nat.mod_mod_of_dvd _ (Nat.pow_dvd_pow 2 hn), hlow]

/-! ## The VARIANT field of SYS_ID -/

@[simp] theorem Variant.code_dz128 : Variant.dz128.code = 1 := rfl

@[simp] theorem Variant.code_dz32 : Variant.dz32.code = 2 := rfl

theorem Variant.code_eq_one_or_two (v : Variant) : v.code = 1 ∨ v.code = 2 := by
  cases v with
  | dz128 => exact .inl code_dz128
  | dz32 => exact .inr code_dz32

/-- SYS_ID[3:0] is the code of the part's own variant, whatever the rest of the state holds. -/
theorem State.fld_sysId_variant (s : State) : fld (s.blkReg .sys 0) 0 4 = s.hw.variant.code := by
  have hfield : fld (s.blkReg .sys 0) 0 4 = s.hw.variant.code % 2 ^ 4 :=
    fld_wpack_low 4 s.hw.variant.code [(4, 4, s.sys.taken.step), (8, 8, 1), (16, 16, 0x0D21)] (by decide) (by simp)
  have hcode := s.hw.variant.code_eq_one_or_two
  omega

/-- Settles O12: SYS_ID[3:0] is `Variant.code`, which is 1 on the DZ-128 and 2 on the DZ-32. -/
theorem variantReadsOneOrTwo : Obligations.VariantReadsOneOrTwo := by
  intro s
  rw [s.fld_sysId_variant]
  exact ⟨fun h => by rw [h, Variant.code_dz128], fun h => by rw [h, Variant.code_dz32], s.hw.variant.code_eq_one_or_two⟩

end Sys2Proof.Machine
end

section
/-! PROOFS. Lost islands (R18), and the timebase over resets (R22). The frames of the shared operations (Laws/Keep…) give what a command
leaves; only the declaration of a loss and the resets need an argument of their own. -/

open Sys2Proof

namespace Sys2Proof.Machine

/-! ## Losses are only added -/

theorem State.islLost_congr {s t : State} (h : t.sys.lost = s.sys.lost) (i : Nat) : t.islLost i = s.islLost i := by
  simp [State.islLost, h]

/-- Declaring island `k` lost adds its bit to the losses that stand, or has no effect. -/
theorem State.loseIsl_lost (s : State) (k : Nat) :
    (s.loseIsl k).sys.lost = s.sys.lost ||| 2 ^ k ∨ (s.loseIsl k).sys.lost = s.sys.lost := by
  unfold State.loseIsl
  split
  · exact .inl (by simp)
  · exact .inr rfl

theorem State.islLost_loseIsl {s : State} {i : Nat} (k : Nat) (h : s.islLost i = true) : (s.loseIsl k).islLost i = true := by
  unfold State.islLost at h ⊢
  obtain hlost | hlost := s.loseIsl_lost k
  · rw [hlost, Nat.testBit_or, h, Bool.true_or]
  · rw [hlost, h]

/-! ## What a command does to the lost islands and to the timebase -/

/-- A command that is no reset and declares no loss leaves the lost islands: each meaning is made of operations that keep them. -/
theorem exec_lost_of_not_resets {c : Instr} {s t : State} (hc : Safety.resets c = false) (hl : ∀ k, c ≠ .islandLost k)
    (h : exec c s = .next t) : t.sys.lost = s.sys.lost := by
  cases c with
  | powerOnResetRelease | vauxRecover | orderlyResetComplete | softResetTakeEffect | mainClockRestart | hmpCsRise => cases hc
  | islandLost k => exact absurd rfl (hl k)
  | _ => cases h; simp

/-- A loss outlasts every command that no reset can take effect with (R18). -/
theorem exec_islLost_of_not_resets {c : Instr} {s t : State} {i : Nat} (hc : Safety.resets c = false) (h : exec c s = .next t)
    (hi : s.islLost i = true) : t.islLost i = true := by
  by_cases hl : ∃ k, c = .islandLost k
  · obtain ⟨k, rfl⟩ := hl
    cases h
    exact State.islLost_loseIsl k hi
  · rw [State.islLost_congr (exec_lost_of_not_resets hc (not_exists.mp hl) h)]
    exact hi

/-- The release of the power-on reset begins S1 with the timebase at 0, or does nothing. -/
theorem exec_powerOnResetRelease {s t : State} (h : exec .powerOnResetRelease s = .next t) :
    (t.sys.phase = .s1 ∧ t.sys.tb = 0) ∨ t = s := by
  cases h
  split
  · exact .inl ⟨rfl, rfl⟩
  · exact .inr rfl

/-- Every other command a reset can take effect with does what a device reset does, or leaves what one would leave. -/
theorem exec_resets {c : Instr} {s t : State} (hc : Safety.resets c = true) (hp : c ≠ .powerOnResetRelease)
    (h : exec c s = .next t) : Resets t s := by
  cases c with
  | powerOnResetRelease => exact absurd rfl hp
  | vauxRecover | mainClockRestart =>
    cases h
    split
    · exact s.devReset_resets _
    · exact Resets.refl s
  | orderlyResetComplete => cases h; exact s.resetActs_resets
  | softResetTakeEffect csRise => cases h; exact s.softActs_resets csRise
  | hmpCsRise => cases h; exact s.csRise_resets
  | _ => cases hc

/-- After any command a loss stands, or a reset has begun S1. -/
theorem exec_islLost_or_s1 {c : Instr} {s t : State} {i : Nat} (h : exec c s = .next t) (hi : s.islLost i = true) :
    t.islLost i = true ∨ t.sys.phase = .s1 := by
  by_cases hc : Safety.resets c = true
  · by_cases hp : c = .powerOnResetRelease
    · subst hp
      obtain ⟨hs1, -⟩ | rfl := exec_powerOnResetRelease h
      · exact .inr hs1
      · exact .inl hi
    · obtain ⟨-, -, -, hs1 | hlost, -⟩ := exec_resets hc hp h
      · exact .inr hs1
      · exact .inl ((State.islLost_congr hlost i).trans hi)
  · exact .inl (exec_islLost_of_not_resets (Bool.eq_false_iff.mpr hc) h hi)

/-! ## Steps -/

/-- A step with nothing waiting leaves the lost islands. -/
theorem step_lost_of_pending_nil {s t : State} (hq : s.pending = []) (h : step s = .next t) : t.sys.lost = s.sys.lost := by
  simp only [step, hq, Host.Outcome.next.injEq] at h
  rw [← h]
  simp

/-- Settles O6: the commands without a reset only add losses, and a reset that clears them begins S1. -/
theorem lostIslandsStayLost : Obligations.LostIslandsStayLost := by
  refine ⟨fun c s t i hc h hi => exec_islLost_of_not_resets hc h hi, fun s t i h hi => ?_,
    fun s t hq h => step_lost_of_pending_nil hq h⟩
  cases hq : s.pending with
  | nil => exact .inl ((State.islLost_congr (step_lost_of_pending_nil hq h) i).trans hi)
  | cons c rest =>
    have hexec : exec c { s with pending := rest } = .next t := by simpa only [step, hq] using h
    exact exec_islLost_or_s1 hexec hi

/-- Settles O13: a power-on reset begins with the timebase of `State.resetOf`, every other reset with the one that stands. -/
theorem timebaseOverResets : Obligations.TimebaseOverResets := by
  refine ⟨fun s hs => ?_, fun c s t hc hp h => ?_⟩
  · have hcond : (s.sys.phase == .por || s.sys.vauxDown) = true := by simpa using hs
    exact ⟨s.powerOn, congrArg Host.Outcome.next (if_pos hcond), rfl, rfl⟩
  · obtain ⟨-, htb, -⟩ := exec_resets hc hp h
    exact htb

end Sys2Proof.Machine
end

section
/-! PROOFS. The transition log through its registers (R165). -/

namespace Sys2Proof.Machine

/-! ## The highest field of a packed word -/

/-- A field above the sum of the other fields reads back the value packed there, cut to its width. -/
theorem fld_wpack_top (n k v : Nat) (fs : List (Nat × Nat × Nat)) (hnk : n + k ≤ 32)
    (hlow : fs.foldl (fun a f => a + f.2.2 % 2 ^ f.2.1 * 2 ^ f.1) 0 < 2 ^ n) :
    fld (wpack (fs ++ [(n, k, v)])) n k = v % 2 ^ k := by
  generalize hx : fs.foldl (fun a f => a + f.2.2 % 2 ^ f.2.1 * 2 ^ f.1) 0 = x at hlow
  have hfit : x + v % 2 ^ k * 2 ^ n < 2 ^ 32 := calc
    x + v % 2 ^ k * 2 ^ n
    _ < 2 ^ n + v % 2 ^ k * 2 ^ n := Nat.add_lt_add_right hlow _
    _ = (v % 2 ^ k + 1) * 2 ^ n := by ring
    _ ≤ 2 ^ k * 2 ^ n := Nat.mul_le_mul_right _ (Nat.mod_lt _ (Nat.two_pow_pos k))
    _ = 2 ^ (n + k) := by ring
    _ ≤ 2 ^ 32 := Nat.pow_le_pow_right (by decide) hnk
  rw [fld, wpack, w32, List.foldl_append, hx, List.foldl_cons, List.foldl_nil, BitVec.toNat_ofNat, Nat.mod_eq_of_lt hfit,
    Nat.add_mul_div_right _ _ (Nat.two_pow_pos n), Nat.div_eq_of_lt hlow, Nat.zero_add, Nat.mod_mod]

/-! ## Register accesses that the checks of R433 let through -/

/-- A read with an effect has it when the session is open and checks 6 to 8 of R433 pass. -/
theorem State.byReader_of_answered {s : State} {a : Nat} (f : State) (hses : s.hmp.session.isSome = true)
    (hup : s.hmpUp = true) (hready : s.notReady a false = false) (hrung : s.rungOk = true)
    (hisl : s.islLost (islServing a) = false) : s.byReader a f = f := by
  obtain ⟨l, hl⟩ := Option.isSome_iff_exists.mp hses
  simp [State.byReader, hl, hup, hready, hrung, hisl]

/-- A read without an effect leaves the state, whether or not a check of R433 refuses it. -/
@[simp] theorem State.byReader_self (s : State) (a : Nat) : s.byReader a s = s := by
  unfold State.byReader
  split
  · rfl
  · exact ite_self s

theorem State.byHost_of_writer {s : State} {a : Nat} {min l : Level} (f : Level → State) (h : s.writer a min = some l) :
    s.byHost a min f = f l := by
  rw [State.byHost, h]

/-! ## The oldest entry -/

theorem State.tlogRead_nil {s : State} (h : s.seq.tlog = []) : s.tlogRead = s := by
  rw [State.tlogRead, h]

theorem State.tlogRead_cons {s : State} {e : TEntry} {r : List TEntry} (h : s.seq.tlog = e :: r) :
    s.tlogRead = { s with seq := { s.seq with tlog := r, tlogTs := e.stamp } } := by
  rw [State.tlogRead, h]

/-! ## SEQ_TLOG_ENT and SEQ_TLOG_TS -/

theorem State.seqTlogEnt_nil {s : State} (h : s.seq.tlog = []) : s.blkReg .seq 0x060 = 0 := by
  simp [State.blkReg, State.seqReg, h]

theorem State.seqTlogEnt_cons {s : State} {e : TEntry} {r : List TEntry} (h : s.seq.tlog = e :: r) :
    s.blkReg .seq 0x060 = e.word := by
  simp [State.blkReg, State.seqReg, h]

theorem State.seqTlogTs (s : State) : s.blkReg .seq 0x064 = lo32 s.seq.tlogTs := rfl

/-- VALID is the top field of SEQ_TLOG_ENT; the other fields of an entry, cut to their widths, lie below it. -/
theorem TEntry.fld_word_valid (e : TEntry) : fld e.word 31 1 = 1 :=
  fld_wpack_top 31 1 1 [(0, 8, e.rail), (8, 4, e.old.code), (12, 4, e.new.code), (16, 4, e.cause)] (by decide) (by simp; omega)

/-! ## Reading and clearing the log -/

/-- An answered read of SEQ_TLOG_ENT takes the oldest entry out of the log and keeps its stamp. -/
theorem exec_seqTlogRead_cons {s : State} {e : TEntry} {r : List TEntry} (hses : s.hmp.session.isSome = true)
    (hup : s.hmpUp = true) (hready : s.notReady 0x2060 false = false) (hrung : s.rungOk = true)
    (hisl : s.islLost (islServing 0x2060) = false) (hlog : s.seq.tlog = e :: r) :
    exec .seqTlogRead s = .next { s with seq := { s.seq with tlog := r, tlogTs := e.stamp } } :=
  congrArg Host.Outcome.next ((State.byReader_of_answered _ hses hup hready hrung hisl).trans (State.tlogRead_cons hlog))

theorem exec_seqTlogRead_nil {s : State} (hlog : s.seq.tlog = []) : exec .seqTlogRead s = .next s := by
  have hread : s.byReader 0x2060 s.tlogRead = s := by rw [State.tlogRead_nil hlog, State.byReader_self]
  exact congrArg Host.Outcome.next hread

theorem exec_seqTlogClr_of_writer {s : State} {l : Level} (h : s.writer 0x2068 .operator = some l) :
    exec .seqTlogClr s = .next s.tlogClr :=
  congrArg Host.Outcome.next (State.byHost_of_writer _ h)

/-- Settles O16: a read takes the head of the log, whose word has VALID set; with no head it leaves the state and shows 0. -/
theorem transitionLogAccess : Obligations.TransitionLogAccess := by
  refine ⟨fun s e r hses hup hready hrung hisl hlog => ?_, fun s hlog => ?_, fun s l h => exec_seqTlogClr_of_writer h⟩
  · exact ⟨_, exec_seqTlogRead_cons hses hup hready hrung hisl hlog, State.seqTlogEnt_cons hlog, rfl, State.seqTlogTs _,
      e.fld_word_valid⟩
  · exact ⟨exec_seqTlogRead_nil hlog, by rw [State.seqTlogEnt_nil hlog]; rfl⟩

end Sys2Proof.Machine
end

section
/-! PROOFS. The canonical forms of the ENV store and of the tables, and the timebase, over every step. -/

open Sys2Proof

namespace Sys2Proof.Machine

/-! ## The tables through what commands share -/

theorem TabsOk.ite {c : Prop} [Decidable c] {a b s : State} (ha : TabsOk a s) (hb : TabsOk b s) :
    TabsOk (if c then a else b) s := by
  split
  · exact ha
  · exact hb

theorem TabsOk.of_chans {t s : State} (h : ChansOk t s ∧ SrcsEq t s ∧ CntEq t s) : TabsOk t s := by
  obtain ⟨hchans, hsrcs, hleaf, hisl, hdev⟩ := h
  exact ⟨hchans, (hsrcs ▸ ·), (hleaf ▸ ·), (hisl ▸ ·), (hdev ▸ ·)⟩

theorem TabsOk.of_srcs {t s : State} (h : ChansEq t s ∧ SrcsOk t s ∧ CntOk t s) : TabsOk t s :=
  ⟨(h.1 ▸ ·), h.2⟩

theorem State.byHost_tabs {s : State} {a : Nat} {min : Level} {f : Level → State} (h : ∀ l, TabsOk (f l) s) :
    TabsOk (s.byHost a min f) s := by
  unfold State.byHost
  split
  · exact TabsOk.rfl' s
  · exact h _

theorem State.chHost_tabs {s : State} {n ofs : Nat} {min : Level} {f : State → Level → State} (h : ∀ t l, TabsOk (f t l) t) :
    TabsOk (s.chHost n ofs min f) s :=
  byHost_tabs fun l => .ite (.trans' (h _ l) (.of_chans (s.chTouch_tabs n))) (TabsOk.rfl' s)

theorem State.rxFrame_tabs {s : State} {p l : Nat} {fr : CasFrame} {f : State → State} (h : ∀ t, TabsOk (f t) t) :
    TabsOk (s.rxFrame p l fr f) s :=
  ⟨fun w => s.rxFrame_chans p l fr f w fun t => (h t).1, fun w => s.rxFrame_srcs p l fr f w fun t => (h t).2.1,
    fun w => s.rxFrame_leaf p l fr f w fun t => (h t).2.2.1, fun w => s.rxFrame_isl p l fr f w fun t => (h t).2.2.2.1,
    fun w => s.rxFrame_dev p l fr f w fun t => (h t).2.2.2.2⟩

theorem State.acts_tabs {s : State} {act : State → State} (h : ∀ t, TabsOk (act t) t) : TabsOk (s.acts act) s :=
  .ite (h s) (TabsOk.rfl' s)

theorem State.toward_tabs {s : State} {p dst org : Nat} {f : CasFrame} {act : State → State} (h : ∀ t, TabsOk (act t) t) :
    TabsOk (s.toward p dst org f act) s :=
  .ite (acts_tabs h) (.ite (TabsOk.rfl' s) (TabsEq.ok (s.casTo_tabs _ _)))

theorem State.arrive_tabs {s : State} {blk len : Nat} {f : State → State} (h : ∀ t, TabsOk (f t) t) :
    TabsOk (s.arrive blk len f) s :=
  ⟨fun w => s.arrive_chans blk len f w fun t => (h t).1, fun w => s.arrive_srcs blk len f w fun t => (h t).2.1,
    fun w => s.arrive_leaf blk len f w fun t => (h t).2.2.1, fun w => s.arrive_isl blk len f w fun t => (h t).2.2.2.1,
    fun w => s.arrive_dev blk len f w fun t => (h t).2.2.2.2⟩

theorem State.request_tabs {s : State} {r : Req} {early : Nat} {late : State → Nat} {act : State → State}
    (h : ∀ t, TabsOk (act t) t) : TabsOk (s.request r early late act) s :=
  ⟨fun w => s.request_chans r early late act w fun t => (h t).1, fun w => s.request_srcs r early late act w fun t => (h t).2.1,
    fun w => s.request_leaf r early late act w fun t => (h t).2.2.1,
    fun w => s.request_isl r early late act w fun t => (h t).2.2.2.1,
    fun w => s.request_dev r early late act w fun t => (h t).2.2.2.2⟩

/-! ## What a command keeps -/

theorem exec_storeWf_of_not_resets {c : Instr} {s t : State} (hc : Safety.resets c = false) (h : exec c s = .next t)
    (hcells : CellsWf s.env.cells) (hmarks : MarksWf s.env.marked) : StoreWf t := by
  cases c with
  | powerOnResetRelease | vauxRecover | orderlyResetComplete | softResetTakeEffect | mainClockRestart | hmpCsRise => cases hc
  | hmpWrite => cases h; exact s.request_wf _ _ _ _ hcells hmarks fun t => t.writeAct_wf _ _
  | _ => cases h; simp [StoreWf, hcells, hmarks]

/-- No command leaves the ENV store out of its canonical form; a reset leaves the line being written whole or cut short. -/
theorem exec_storeWf {c : Instr} {s t : State} (h : exec c s = .next t) (hcells : CellsWf s.env.cells)
    (hmarks : MarksWf s.env.marked) : StoreWf t := by
  by_cases hc : Safety.resets c = true
  · by_cases hp : c = .powerOnResetRelease
    · subst hp
      cases h
      split
      · exact s.powerOn_wf hcells hmarks
      · exact ⟨hcells, hmarks⟩
    · obtain ⟨-, -, -, -, hwf⟩ := exec_resets hc hp h
      exact hwf hcells hmarks
  · exact exec_storeWf_of_not_resets (Bool.eq_false_iff.mpr hc) h hcells hmarks

/-- A command sets the timebase forward or leaves it; only the release of the power-on reset begins it anew. -/
theorem exec_tb_le {c : Instr} {s t : State} (hp : c ≠ .powerOnResetRelease) (h : exec c s = .next t) : s.sys.tb ≤ t.sys.tb := by
  cases c with
  | powerOnResetRelease => exact absurd rfl hp
  | vauxRecover | orderlyResetComplete | softResetTakeEffect | mainClockRestart | hmpCsRise =>
    obtain ⟨-, htb, -⟩ := exec_resets rfl hp h
    exact htb.ge
  | casHello =>
    cases h
    split
    · exact Nat.le_refl _
    · refine s.rxFrame_tbLe _ _ _ _ fun t => ?_
      split <;> simp
  | casTime =>
    cases h
    split
    · exact Nat.le_refl _
    · refine s.rxFrame_tbLe _ _ _ _ fun t => ?_
      simp only [State.casDown_keep]
      refine t.acts_tbLe _ fun u => ?_
      split <;> simp
  | _ => cases h; simp

theorem exec_pending {c : Instr} {s t : State} (h : exec c s = .next t) : t.pending = s.pending := by
  cases c with
  | powerOnResetRelease => cases h; split <;> rfl
  | vauxRecover | orderlyResetComplete | softResetTakeEffect | mainClockRestart | hmpCsRise =>
    obtain ⟨hpending, -⟩ := exec_resets rfl (by simp) h
    exact hpending
  | _ => cases h; simp

/-- No command leaves a table out of its canonical form: each meaning is made of operations that keep it. -/
theorem exec_tabs {c : Instr} {s t : State} (h : exec c s = .next t) : TabsOk t s := by
  cases c with
  | powerOnResetRelease => cases h; exact .ite s.powerOn_tabs (TabsOk.rfl' s)
  | vauxRecover | mainClockRestart => cases h; exact .ite (s.devReset_tabs _) (TabsOk.rfl' s)
  | thresholdStageWrite => cases h; exact .ite (State.chHost_tabs fun t _ => .of_chans (t.stageThr_tabs _ _ _)) (TabsOk.rfl' s)
  | chApply => cases h; exact State.chHost_tabs fun t _ => t.chApplyServo_tabs _
  | chDiscard => cases h; exact State.chHost_tabs fun t _ => .of_chans (t.chDiscard_tabs _)
  | prbGo => cases h; exact State.chHost_tabs fun t _ => .of_chans (t.prbReq_tabs _ _)
  | prbBaseReset => cases h; exact State.chHost_tabs fun t _ => t.prbReset_tabs _ _
  | jrdFrom => cases h; exact State.byHost_tabs fun _ => .trans' (State.settle_tabs _ _) (.of_srcs (s.jrdSet_tabs _ _))
  | jrdNext => cases h; exact State.byHost_tabs fun _ => .trans' (State.settle_tabs _ _) (.of_srcs (s.jrdLoad_tabs _))
  | ledgerOpen => cases h; exact State.arrive_tabs fun t => t.ledgerOpen_tabs _ _ _ _
  | ledgerDone => cases h; exact State.arrive_tabs fun t => t.ledgerDone_tabs _ _
  | ledgerSeal => cases h; exact State.arrive_tabs fun t => t.ledgerSeal_tabs _ _ _
  | ledgerKindReject => cases h; exact State.arrive_tabs fun t => .ite (TabsOk.rfl' t) (t.ledgerReject_tabs _ _ _)
  | casHello =>
    cases h
    refine .ite (TabsOk.rfl' s) (State.rxFrame_tabs fun t => .ite ?_ ?_)
    · exact State.acts_tabs fun u => u.leaderHello_tabs _ _ _ _ _ _ _ _ _
    · exact TabsEq.ok (State.casUp_tabs _ _)
  | casTime =>
    cases h
    refine .ite (TabsOk.rfl' s) (State.rxFrame_tabs fun t => .trans' (TabsEq.ok (State.casDown_tabs _ _)) (State.acts_tabs fun u => ?_))
    exact .ite (.trans' (State.settleIf_tabs _) (u.timeTaken_tabs _ _)) (TabsOk.rfl' u)
  | casRail =>
    cases h
    exact State.rxFrame_tabs fun t => State.toward_tabs fun u => .ite (u.railTaken_tabs _ _ _) (TabsOk.rfl' u)
  | casFault => cases h; exact .ite (TabsOk.rfl' s) (State.rxFrame_tabs fun t => t.faultTaken_tabs _ _ _ _ _)
  | casReset => cases h; exact .ite (TabsOk.rfl' s) (State.rxFrame_tabs fun t => t.resetTaken_tabs _)
  | hmpRead => cases h; exact State.request_tabs fun t => t.readAct_tabs _
  | hmpWrite => cases h; exact State.request_tabs fun t => t.writeAct_tabs _ _
  | hmpOpen => cases h; exact State.request_tabs fun t => t.openAct_tabs _ _
  | _ =>
    cases h
    refine ⟨fun h1 => ?_, fun h1 => ?_, fun h1 => ?_, fun h1 => ?_, fun h1 => ?_⟩ <;> simp [h1]


/-! ## Steps -/

theorem step_of_pending_nil {s t : State} (hq : s.pending = []) (h : step s = .next t) : t = idle s := by
  simp only [step, hq, Host.Outcome.next.injEq] at h
  exact h.symm

theorem step_of_pending_cons {s : State} {c : Instr} {rest : List Instr} (hq : s.pending = c :: rest) :
    step s = exec c { s with pending := rest } := by
  simp only [step, hq]

/-- A relation that takes no notice of the queue holds over every step when it holds over an idle step and over each command that may
be at the front. -/
theorem step_induction {P : State → State → Prop} {s t : State} (h : step s = .next t) (hidle : P (idle s) s)
    (hexec : ∀ c rest, s.pending = c :: rest → exec c { s with pending := rest } = .next t → P t s) : P t s := by
  cases hq : s.pending with
  | nil => exact step_of_pending_nil hq h ▸ hidle
  | cons c rest => exact hexec c rest hq (step_of_pending_cons hq ▸ h)

/-- Settles O4: each command puts whole lines into the store, clears whole lines or leaves it, and time passing leaves it. -/
theorem storeFormKept : Obligations.StoreFormKept := by
  intro s t hwf h
  obtain ⟨hcells, hmarks⟩ := (memory_wf_iff s).mp hwf
  refine (memory_wf_iff t).mpr (step_induction (P := fun t _ => StoreWf t) h ?_ fun c rest _ hexec => exec_storeWf hexec hcells hmarks)
  obtain ⟨-, -, hc, hm, -⟩ := idle_passes s
  exact ⟨hc ▸ hcells, hm ▸ hmarks⟩

/-- Settles O5: time passing does not take the timebase back, nor does a command other than the one that begins it anew. -/
theorem timebaseNeverBack : Obligations.TimebaseNeverBack := by
  intro s t hhead h
  refine step_induction (P := fun t s => s.sys.tb ≤ t.sys.tb) h (idle_tb s) fun c rest hq hexec => ?_
  have hne : c ≠ .powerOnResetRelease := by rintro rfl; simp [hq] at hhead
  exact (exec_tb_le hne hexec :)

theorem tablesWf_iff (s : State) : Safety.tablesWf s = true ↔ ChansWf s.chans ∧ SrcsWf s.flt.srcs ∧ NatsWf s.cnt.leaf
    ∧ NatsWf s.cnt.isl ∧ NatsWf s.cnt.dev := by
  simp [Safety.tablesWf, ChansWf, SrcsWf, NatsWf, and_assoc]

/-- Settles O60: every operation on a table keeps its keys rising and lists no default, whatever command or tick applies it. -/
theorem tablesKept : Obligations.TablesKept := by
  intro s t hwf h
  obtain ⟨hchans, hsrcs, hleaf, hisl, hdev⟩ := (tablesWf_iff s).mp hwf
  have hkeep : TabsOk t s := step_induction (P := TabsOk) h (idle_tabs s) fun c rest _ hexec => (exec_tabs hexec :)
  obtain ⟨kchans, ksrcs, kleaf, kisl, kdev⟩ := hkeep
  exact (tablesWf_iff t).mpr ⟨kchans hchans, ksrcs hsrcs, kleaf hleaf, kisl hisl, kdev hdev⟩

/-- Settles O7: no operation a command is made of touches the queue, and a step has taken the front command off before. -/
theorem queueFrame : Obligations.QueueFrame := by
  refine ⟨fun c s t h => exec_pending h, fun s t h => ?_⟩
  cases hq : s.pending with
  | nil =>
    obtain ⟨hpending, -⟩ := idle_passes s
    rw [step_of_pending_nil hq h, hpending, hq, List.tail_nil]
  | cons c rest => exact exec_pending (step_of_pending_cons hq ▸ h)

/-- Settles O1: `step` on a queue with a front command is `exec` of it. -/
theorem stepRunsFrontCommand : Obligations.StepRunsFrontCommand := fun _ _ _ hq => step_of_pending_cons hq

/-- Settles O3: the store and the tables are empty at reset, and an empty table is in canonical form. -/
theorem storeFormAtReset : Obligations.StoreFormAtReset := ⟨rfl, rfl, rfl, rfl⟩

end Sys2Proof.Machine
end

section
/-! PROOFS. The frames of the groups of registers (Safety): fuses, ENV store, pins, JTAG port, configuration status, PMBus host, margin
campaign and link tests. Every command outside a group's list is made of operations that leave the group. -/

open Sys2Proof

namespace Sys2Proof.Machine

/-! ## The ENV store -/

/-- Of the lifecycle operations only RETURN and RETIRE erase lines. -/
theorem State.lcWrite_store (s : State) {o : LcReq} (hret : o ≠ .ret) (hretire : o ≠ .retire) (key : BitVec 16) (win : Nat)
    (hwStart : Bool) : (s.lcWrite o key win hwStart).env.cells = s.env.cells
      ∧ (s.lcWrite o key win hwStart).env.marked = s.env.marked := by
  have herase (t : State) : t.lcErase o = t := by
    cases o with
    | ret => exact absurd rfl hret
    | retire => exact absurd rfl hretire
    | _ => rfl
  have hreq (l : Level) : (s.lcReq o l key.toNat win hwStart).env.cells = s.env.cells
      ∧ (s.lcReq o l key.toNat win hwStart).env.marked = s.env.marked := by
    unfold State.lcReq
    split <;> simp [herase]
  exact ⟨s.byHost_cells _ _ _ fun l => (hreq l).1, s.byHost_marked _ _ _ fun l => (hreq l).2⟩

theorem exec_store {c : Instr} {s t : State} (hstore : Safety.writesStore c = false) (hreset : Safety.resets c = false)
    (hreg : Safety.anyRegister c = false)
    (h : exec c s = .next t) : t.env.cells = s.env.cells ∧ t.env.marked = s.env.marked := by
  cases c with
  | journalReplayDone | envLineWriteDone | journalRecordAppend | envHarvest | harvestDone | bbxCaptureCommit |
    toReturned | toRetired | eraseCkey | keyCmdDone => cases hstore
  | powerOnResetRelease | vauxRecover | orderlyResetComplete | softResetTakeEffect | mainClockRestart |
    hmpCsRise => cases hreset
  | hmpWrite | dbgReg => cases hreg
  | toProvisioned | toDeployed | root | arb | wdgFuse => cases h; exact s.lcWrite_store (by simp) (by simp) _ _ _
  | _ => cases h; simp

/-- Settles O9: a byte and a marker read from the cells and markers that every such command leaves. -/
theorem storeFrame : Obligations.StoreFrame := by
  intro c s t hstore hreset hreg h
  obtain ⟨hcells, hmarked⟩ := exec_store hstore hreset hreg h
  exact ⟨fun a => by simp only [Env.byteAt, hcells, hmarked], fun a => by rw [hmarked]⟩

/-! ## Pins and the JTAG port -/

theorem exec_gpio {c : Instr} {s t : State} (hpins : Safety.writesPins c = false) (hload : Safety.loads c = false)
    (hreset : Safety.resets c = false) (hreg : Safety.anyRegister c = false)
    (h : exec c s = .next t) : t.gpio = s.gpio := by
  cases c with
  | casHello | casTime | jtagBypass | jtagIdcode | jtagSamplePreload | jtagExtest | jtagClamp | jtagHighz |
    trstNFall | dbgChal | dbgAuth | dbgStat | dbgReset | dbgOff | hmpRead | lcOperationDone | tamperGlitch |
    tamperPin | rungEntryStop | rungExitDone | gpioPenWrite | gpioOutSet | gpioOutClr | gpioDirWrite |
    gpioPullWrite | gpioMirSelWrite | gpioLock | gpioLockPairTimeout | wakePinActive | pinLineEdge => cases hpins
  | slotChoiceDone | configLoadDone | reloadDone | rtApplyVerified => cases hload
  | powerOnResetRelease | vauxRecover | orderlyResetComplete | softResetTakeEffect | mainClockRestart |
    hmpCsRise => cases hreset
  | hmpWrite | dbgReg => cases hreg
  | _ => cases h; simp

theorem exec_jtag {c : Instr} {s t : State} (hjtag : Safety.writesJtag c = false) (hreset : Safety.resets c = false)
    (hreg : Safety.anyRegister c = false)
    (h : exec c s = .next t) : t.jtag = s.jtag := by
  cases c with
  | casHello | casTime | jtagBypass | jtagIdcode | jtagSamplePreload | jtagExtest | jtagClamp | jtagHighz |
    trstNFall | dbgChal | dbgAuth | dbgStat | dbgReset | dbgOff | dbgNonceExpiry | dbgLockoutEnd => cases hjtag
  | powerOnResetRelease | vauxRecover | orderlyResetComplete | softResetTakeEffect | mainClockRestart |
    hmpCsRise => cases hreset
  | hmpWrite | dbgReg => cases hreg
  | _ => cases h; simp

/-- Settles O10. -/
theorem pinsAndJtagFrame : Obligations.PinsAndJtagFrame :=
  ⟨fun _ _ _ => exec_gpio, fun _ _ _ => exec_jtag⟩

/-! ## Configuration status, PMBus host, margin campaign and link tests -/

theorem exec_cfg {c : Instr} {s t : State} (hcfg : Safety.writesConfig c = false) (hload : Safety.loads c = false)
    (hreset : Safety.resets c = false) (hreg : Safety.anyRegister c = false)
    (h : exec c s = .next t) : t.cfg = s.cfg := by
  cases c with
  | cfgLoad | cfgApply | hmpRead => cases hcfg
  | slotChoiceDone | configLoadDone | reloadDone | rtApplyVerified => cases hload
  | powerOnResetRelease | vauxRecover | orderlyResetComplete | softResetTakeEffect | mainClockRestart |
    hmpCsRise => cases hreset
  | hmpWrite | dbgReg => cases hreg
  | _ => cases h; simp

theorem exec_pmb {c : Instr} {s t : State} (hpmb : Safety.writesPmbus c = false) (hload : Safety.loads c = false)
    (hreset : Safety.resets c = false) (hreg : Safety.anyRegister c = false)
    (h : exec c s = .next t) : t.pmb = s.pmb := by
  cases c with
  | casHello | casTime | channelSample | pmbusPoll | pmbusTransactionDone | pmbusRetry | pmbusStretchTimeout |
    lnkPmbGo | mgnNominal | mgnHigh | mgnLow | mgnTarget | mgnOlcode | marginServoUpdate | campaignCorner |
    campaignReport | chApply | hmpRead | pwrToSummer | pwrToAutumn | pwrToWinter | pwrToMidwinter => cases hpmb
  | slotChoiceDone | configLoadDone | reloadDone | rtApplyVerified => cases hload
  | powerOnResetRelease | vauxRecover | orderlyResetComplete | softResetTakeEffect | mainClockRestart |
    hmpCsRise => cases hreset
  | hmpWrite | dbgReg => cases hreg
  | _ => cases h; simp

theorem exec_camp {c : Instr} {s t : State} (hcamp : Safety.writesCampaign c = false) (hreset : Safety.resets c = false)
    (hreg : Safety.anyRegister c = false)
    (h : exec c s = .next t) : t.camp = s.camp := by
  cases c with
  | mgnCampGo | campaignCorner | campaignReport | casAckTimeout | casLockLoss | casLinkAck | casLinkNak |
    casFrameInvalid | casHello | casTime | casMgn | casMgnRep | casLost | configLoadDone | reloadDone |
    winMidExpiry | hmpRead => cases hcamp
  | powerOnResetRelease | vauxRecover | orderlyResetComplete | softResetTakeEffect | mainClockRestart |
    hmpCsRise => cases hreset
  | hmpWrite | dbgReg => cases hreg
  | _ => cases h; simp

theorem exec_lt {c : Instr} {s t : State} (hlt : Safety.writesLinkTests c = false) (hreset : Safety.resets c = false)
    (hreg : Safety.anyRegister c = false)
    (h : exec c s = .next t) : t.lt = s.lt := by
  cases c with
  | ltModeOff | ltModePrbs | ltModeNear | ltModeFar | ltInj | ltClr | ltCheckerLock => cases hlt
  | powerOnResetRelease | vauxRecover | orderlyResetComplete | softResetTakeEffect | mainClockRestart |
    hmpCsRise => cases hreset
  | hmpWrite | dbgReg => cases hreg
  | _ => cases h; simp

/-- Settles O11. -/
theorem configBusCampaignFrame : Obligations.ConfigBusCampaignFrame :=
  ⟨fun _ _ _ => exec_cfg, fun _ _ _ => exec_pmb, fun _ _ _ => exec_camp, fun _ _ _ => exec_lt⟩

/-! ## Fuses -/

/-- A part whose S1 discarded copy A of LCS (R59), with a bit blown in copy A alone, at the end of TO_DEPLOYED. -/
def discardedCopyA : State :=
  { State.reset with
    hw := { fuses := { lcs := { a := 1, b := 0 } } }
    sys := { phase := .ready, mainClock := true, taken := { aBad := 2 ^ 5 } }
    sec := { lcOp := some { op := 2 } } }

theorem State.lcEnds_hw {s : State} {o : LcOp} (ho : s.sec.lcOp = some o) (hup : s.ctrlUp = true) :
    (s.lcEnds true).hw = { s.hw with fuses := s.blown o } := by
  unfold State.lcEnds
  simp [ho, hup, State.takeFuses]

/-- Refutes O8: an operation blows both copies of LCS to the value of the copy S1 took, so a bit that only a discarded copy A has blown
reads 0 afterwards. -/
theorem not_fusesFrame : ¬ Obligations.FusesFrame := by
  rintro ⟨-, -, hkeep, -⟩
  have hbit := (hkeep (.lcOperationDone true) discardedCopyA _ rfl).2 0 rfl
  rw [State.lcEnds_hw (s := discardedCopyA) rfl rfl] at hbit
  exact absurd hbit (by decide)

end Sys2Proof.Machine
end

section
/-! PROOFS. The cause bits of a reset (R79), the lifecycle state (R466) and the frame of a line write (R333). -/

open Sys2Proof

namespace Sys2Proof.Machine

/-! ## SYS_RST_CAUSE -/

theorem State.powerOn_rstCause (s : State) : s.powerOn.sys.rstCause = 1 := rfl

theorem State.devReset_rstCause (s : State) (cause : Nat) :
    (s.devReset cause).sys.rstCause = Nat.lor (Nat.lor s.sys.rstCause cause) s.pendCause := rfl

/-- The cause of the reset that waits is among the causes that wait. -/
theorem State.lor_pendCause {s : State} {p : ResetPend} (hp : s.sys.pend = some p) :
    Nat.lor s.pendCause p.cause = s.pendCause := by
  show s.pendCause ||| p.cause = s.pendCause
  simp only [State.pendCause, hp]
  show (p.cause ||| _) ||| p.cause = p.cause ||| _
  rw [Nat.or_right_comm, Nat.or_self]

/-- A soft reset that has been accepted is among the causes that wait. -/
theorem State.pendCause_soft {s : State} {t : Nat} (hs : s.sys.softAt = some t) : s.pendCause = s.pendCause ||| 16 := by
  simp only [State.pendCause, hs, Option.isSome_some, if_true]
  show _ ||| 16 = (_ ||| 16) ||| 16
  rw [Nat.or_assoc, Nat.or_self]

/-- A soft reset takes effect as an orderly one with its own bit and the bits that wait. -/
def State.softPending (s : State) : State :=
  { s with sys := { s.sys with softAt := none, pend := some { cause := Nat.lor 16 s.pendCause, since := s.now } } }

theorem exec_softResetTakeEffect {s : State} {csRise : Bool} {t : Nat} (hs : s.sys.softAt = some t)
    (hdue : csRise = true ∨ t ≤ s.now) (hwaits : s.resetWaits = false) :
    exec (.softResetTakeEffect csRise) s = .next (s.softPending.devReset (Nat.lor 16 s.pendCause)) := by
  have hcond : (csRise || decide (t ≤ s.now)) = true := by simpa using hdue
  have hacts : s.softPending.resetActs = s.softPending.devReset (Nat.lor 16 s.pendCause) := if_neg (by
    rw [show s.softPending.resetWaits = s.resetWaits from rfl, hwaits]; exact Bool.false_ne_true)
  show Host.Outcome.next (s.softActs csRise) = _
  rw [State.softActs, hs]
  exact congrArg Host.Outcome.next ((if_pos hcond).trans hacts)

theorem State.softPending_rstCause {s : State} {t : Nat} (hs : s.sys.softAt = some t) :
    (s.softPending.devReset (Nat.lor 16 s.pendCause)).sys.rstCause = Nat.lor s.sys.rstCause s.pendCause := by
  have hsoft := State.pendCause_soft hs
  have hpend : s.softPending.pendCause = 16 ||| s.pendCause := Nat.or_zero _
  show s.sys.rstCause ||| (16 ||| s.pendCause) ||| s.softPending.pendCause = s.sys.rstCause ||| s.pendCause
  rw [hpend, Nat.or_assoc, Nat.or_self, Nat.or_comm 16, ← hsoft]

theorem exec_orderlyResetComplete {s : State} {p : ResetPend} (hp : s.sys.pend = some p) (hwaits : s.resetWaits = false) :
    exec .orderlyResetComplete s = .next (s.devReset p.cause) := by
  show Host.Outcome.next s.resetActs = _
  rw [State.resetActs, hp]
  exact congrArg Host.Outcome.next (if_neg (by rw [hwaits]; exact Bool.false_ne_true))

theorem exec_vauxRecover {s : State} (h : s.sys.vauxDown = true) : exec .vauxRecover s = .next (s.devReset 2) :=
  congrArg Host.Outcome.next (if_pos h)

theorem exec_mainClockRestart {s : State} (hclock : s.sys.mainClock = false) (hrung : s.rungOk = true) (hs2 : s.s2Done = true)
    (hvaux : s.sys.vauxDown = false) : exec .mainClockRestart s = .next (s.devReset 4) :=
  congrArg Host.Outcome.next (if_pos (by simp [hclock, hrung, hs2, hvaux]))

theorem exec_powerOnResetRelease_of_down {s : State} (h : s.sys.phase = .por ∨ s.sys.vauxDown = true) :
    exec .powerOnResetRelease s = .next s.powerOn :=
  congrArg Host.Outcome.next (if_pos (by simpa using h))

/-- Settles O14: a power-on reset begins with the POR bit alone, a device reset adds its own bit and those that wait. -/
theorem resetCauseBits : Obligations.ResetCauseBits := by
  refine ⟨fun s h => ⟨_, exec_powerOnResetRelease_of_down h, rfl⟩, fun s h => ⟨_, exec_vauxRecover h, rfl⟩,
    fun s h1 h2 h3 h4 => ⟨_, exec_mainClockRestart h1 h2 h3 h4, rfl⟩,
    fun s p hp hw => ⟨_, exec_orderlyResetComplete hp hw, ?_, State.lor_pendCause hp⟩,
    fun s cs t hs hdue hw => ⟨_, exec_softResetTakeEffect hs hdue hw, State.softPending_rstCause hs, ?_⟩,
    fun s cause k hk => ?_⟩
  · have hcause := State.lor_pendCause hp
    show s.sys.rstCause ||| p.cause ||| s.pendCause = s.sys.rstCause ||| s.pendCause
    rw [Nat.or_assoc, Nat.or_comm p.cause]
    exact congrArg _ hcause
  · rw [State.pendCause_soft hs, Nat.testBit_or]
    exact Bool.or_eq_true_iff.mpr (.inr rfl)
  · show ((s.sys.rstCause ||| cause) ||| s.pendCause).testBit k = true
    rw [Nat.testBit_or, Nat.testBit_or, hk, Bool.true_or, Bool.true_or]

/-! ## The lifecycle state -/

/-- A group of four bits is not 0 where one of its bits is set. -/
theorem group_ne_zero_iff (n lo : Nat) : n / 2 ^ lo % 16 ≠ 0 ↔ ∃ k, lo ≤ k ∧ k < lo + 4 ∧ n.testBit k = true := by
  constructor
  · intro h
    obtain ⟨i, hi⟩ := Nat.exists_testBit_of_ne_zero h
    rw [show 16 = 2 ^ 4 from rfl, Nat.testBit_mod_two_pow, Nat.testBit_div_two_pow, Bool.and_eq_true, decide_eq_true_eq] at hi
    exact ⟨lo + i, by omega, by omega, by rw [Nat.add_comm]; exact hi.2⟩
  · rintro ⟨k, hlo, hhi, hk⟩ h0
    have hbit : (n / 2 ^ lo % 2 ^ 4).testBit (k - lo) = true := by
      rw [Nat.testBit_mod_two_pow, Nat.testBit_div_two_pow, show k - lo + lo = k by omega, hk]
      simp; omega
    rw [show (2 : Nat) ^ 4 = 16 from rfl, h0, Nat.zero_testBit] at hbit
    exact absurd hbit Bool.false_ne_true

theorem lt_two_pow_iff_testBit (n lo : Nat) : n < 2 ^ lo ↔ ∀ k, lo ≤ k → n.testBit k = false :=
  ⟨fun h _ hk => Nat.testBit_eq_false_of_lt (Nat.lt_of_lt_of_le h (Nat.pow_le_pow_right (by decide) hk)), Nat.lt_pow_two_of_testBit n⟩

theorem lcsOf_eq_iff {n : Nat} (hn : n < 65536) : (lcsOf n = .retired ↔ n / 2 ^ 12 % 16 ≠ 0)
    ∧ (lcsOf n = .returned ↔ n < 2 ^ 12 ∧ n / 2 ^ 8 % 16 ≠ 0) ∧ (lcsOf n = .deployed ↔ n < 2 ^ 8 ∧ n / 2 ^ 4 % 16 ≠ 0)
    ∧ (lcsOf n = .provisioned ↔ n < 2 ^ 4 ∧ n / 2 ^ 0 % 16 ≠ 0) ∧ (lcsOf n = .blank ↔ n = 0) := by
  unfold lcsOf
  split_ifs <;> simp only [false_iff, true_iff] <;> omega

theorem State.blkReg_secStat (s : State) : s.blkReg .sec 0 = s.secStat := by
  simp [State.blkReg, State.secReg]

theorem Lcs.code_lt (x : Lcs) : x.code < 2 ^ 3 := by cases x <;> decide

/-- A field whose value fits in fewer bits packs as one of more bits. -/
theorem wpack_widen {n k v : Nat} (hv : v < 2 ^ n) (hk : v < 2 ^ k) (fs : List (Nat × Nat × Nat)) :
    wpack ((0, n, v) :: fs) = wpack ((0, k, v) :: fs) := by
  simp only [wpack, List.foldl_cons, Nat.mod_eq_of_lt hv, Nat.mod_eq_of_lt hk]

theorem State.fld_secStat_lcs (s : State) : fld (s.blkReg .sec 0) 0 4 = s.lcs.code := by
  have hcode := s.lcs.code_lt
  rw [blkReg_secStat, secStat, wpack_widen (k := 4) hcode (by omega), fld_wpack_low 4 _ _ (by decide) (by simp)]
  exact Nat.mod_eq_of_lt (by omega)

/-- Settles O19: the groups are tried from the highest down, and a group is not 0 where one of its bits is blown. -/
theorem lifecycleFromFuses : Obligations.LifecycleFromFuses := by
  intro s hn
  obtain ⟨hretired, hreturned, hdeployed, hprov, hblank⟩ := lcsOf_eq_iff hn
  simp only [group_ne_zero_iff, lt_two_pow_iff_testBit] at hretired hreturned hdeployed hprov
  refine ⟨hretired, hreturned, hdeployed, ?_, hblank, ?_⟩
  · simpa [State.lcs] using hprov
  · rw [s.fld_secStat_lcs]
    cases s.lcs <;> rfl

/-! ## Line writes -/

theorem tget_putBytes (c : Tab Byte) (a k : Nat) (bs : List Byte) :
    tget 0 (putBytes c a bs) k = if a ≤ k ∧ k < a + bs.length then bs.getD (k - a) 0 else tget 0 c k := by
  induction bs generalizing c a with
  | nil => rw [putBytes, if_neg (by simp)]
  | cons b r ih =>
    rw [putBytes, ih]
    by_cases hk : k = a
    · subst hk
      rw [if_neg (by omega), if_pos (by simp), tget_tset_self, Nat.sub_self, List.getD_cons_zero]
    · rw [tget_tset_ne _ _ _ hk]
      by_cases hin : a + 1 ≤ k ∧ k < a + 1 + r.length
      · rw [if_pos hin, if_pos (by simp; omega), show k - a = k - (a + 1) + 1 by omega, List.getD_cons_succ]
      · rw [if_neg hin, if_neg (by simp; omega)]

theorem Env.byteAt_congr {e f : Env} (hcells : e.cells = f.cells) (hmarked : e.marked = f.marked) (b : Nat) :
    e.byteAt b = f.byteAt b := by
  simp only [Env.byteAt, hcells, hmarked]

theorem Env.lineAt_congr {e f : Env} (hcells : e.cells = f.cells) (hmarked : e.marked = f.marked) (a : Nat) :
    e.lineAt a = f.lineAt a := by
  simp only [Env.lineAt, Env.bytes, Env.byteAt_congr hcells hmarked]

/-- A byte outside the line written reads as before. -/
theorem Env.byteAt_putLine_of_outside (e : Env) {a b : Nat} (bs : List Byte) (hb : b < a ∨ a + 64 ≤ b) :
    (e.putLine a bs).byteAt b = e.byteAt b := by
  have hcell : tget 0 (e.putLine a bs).cells b = tget 0 e.cells b := by
    simp only [Env.putLine, tget_putBytes]
    exact if_neg (by simp; omega)
  have hmark : tget false (e.putLine a bs).marked (b / 64 * 64) = tget false e.marked (b / 64 * 64) := by
    have hne : b / 64 * 64 ≠ a := by omega
    simp only [Env.putLine, tget_tset_ne _ _ _ hne]
  simp only [Env.byteAt, hcell, hmark]

/-- A line that was written whole reads as it was written. -/
theorem Env.lineAt_putLine (e : Env) {a : Nat} {bs : List Byte} (ha : a % 64 = 0) (hbs : bs.length = 64) :
    (e.putLine a bs).lineAt a = bs := by
  refine List.ext_getElem (by simp [Env.lineAt, Env.bytes, hbs]) fun i hi hi' => ?_
  have hmark : tget false (e.putLine a bs).marked ((a + i) / 64 * 64) = true := by
    have hline : (a + i) / 64 * 64 = a := by omega
    simp only [Env.putLine, hline, tget_tset_self]
  have htake : (bs ++ List.replicate 64 0).take 64 = bs := by rw [← hbs, List.take_left]
  have hcell : tget 0 (e.putLine a bs).cells (a + i) = bs[i] := by
    simp only [Env.putLine, htake, tget_putBytes]
    rw [if_pos (by omega), show a + i - a = i by omega, List.getD_eq_getElem _ _ hi']
  simp only [Env.lineAt, Env.bytes, List.getElem_map, List.getElem_range, Env.byteAt, hmark, if_true, hcell]

/-- The end of a host line write puts the line, or is not due. -/
theorem State.accDone_store {s : State} {o : AccOp} (ho : s.env.acc = some o) :
    (s.accDone.env.cells = (s.env.putLine o.line o.bytes).cells ∧ s.accDone.env.marked = (s.env.putLine o.line o.bytes).marked)
      ∨ s.accDone = s := by
  unfold State.accDone
  rw [ho]
  dsimp only
  split
  · exact .inl ⟨rfl, rfl⟩
  · exact .inr rfl

theorem exec_envLineWriteDone {s : State} {o : AccOp} {g : Nat} (ho : s.env.acc = some o) (hg : o.granted = some g)
    (hdue : g + lineTime ≤ s.now) (hup : s.ctrlUp = true) :
    exec .envLineWriteDone s = .next { s with env :=
      ({ s.env.putLine o.line o.bytes with acc := none, irq := Irq.set s.env.irq 4 }).grant s.hw.variant (g + lineTime) } := by
  show Host.Outcome.next s.accDone = _
  simp [State.accDone, ho, hg, hup, hdue, Option.filter]

theorem State.keyFlush_of_busy {s : State} {a : Nat} {l : List Byte} (hk : s.sec.keyBusy = some (a, l)) :
    s.keyFlush = { s with env := s.env.putLine a l, sec := { s.sec with keyBusy := none } } := by
  rw [State.keyFlush, hk]

@[simp] theorem State.unwrapStart_env (s : State) (l : List Nat) : (s.unwrapStart l).env = s.env := by
  unfold State.unwrapStart
  split <;> rfl

@[simp] theorem State.unwrapStart_keyBusy (s : State) (l : List Nat) : (s.unwrapStart l).sec.keyBusy = s.sec.keyBusy := by
  unfold State.unwrapStart
  split <;> rfl

/-- The end of a key command's line write puts the line and frees SEC_KEY_CMD, or the control island is not there to end it. -/
theorem State.keyDone_env {s : State} {a : Nat} {l : List Byte} (hk : s.sec.keyBusy = some (a, l)) :
    (s.ctrlUp = true → s.rungOk = true → s.keyDone.env = s.env.putLine a l ∧ s.keyDone.sec.keyBusy = none)
      ∧ (s.keyDone.env = s.env.putLine a l ∨ s.keyDone = s) := by
  unfold State.keyDone
  simp only [hk, State.keyFlush_of_busy hk]
  split
  · refine ⟨fun _ _ => ?_, .inl ?_⟩ <;> split <;> simp
  · rename_i hno
    exact ⟨fun hup hrung => absurd (by rw [hup, hrung]; rfl) hno, .inr rfl⟩

/-- Settles O20: both writes end with `Env.putLine` of their line, or change nothing. -/
theorem lineWriteFrame : Obligations.LineWriteFrame := by
  refine ⟨fun s t o b ho h hb => ?_, fun s o g ho hg hdue hup ha hbs => ⟨_, exec_envLineWriteDone ho hg hdue hup, ?_, rfl, rfl⟩,
    fun s t a b l hk h hb => ?_, fun s a l hk hup hrung ha hl => ⟨s.keyDone, rfl, ?_, ?_⟩⟩
  · cases h
    obtain ⟨hcells, hmarked⟩ | hsame := State.accDone_store ho
    · exact (Env.byteAt_congr hcells hmarked b).trans (s.env.byteAt_putLine_of_outside o.bytes hb)
    · rw [hsame]
  · exact (Env.lineAt_congr rfl rfl _).trans (s.env.lineAt_putLine ha hbs)
  · cases h
    obtain ⟨-, henv | hsame⟩ := State.keyDone_env hk
    · rw [henv]; exact s.env.byteAt_putLine_of_outside l hb
    · rw [hsame]
  · obtain ⟨hput, -⟩ := State.keyDone_env hk
    rw [(hput hup hrung).1]; exact s.env.lineAt_putLine ha hl
  · obtain ⟨hput, -⟩ := State.keyDone_env hk
    exact (hput hup hrung).2

end Sys2Proof.Machine
end

section
/-! PROOFS. The frames of the commands that act on one group of registers alone, and of the threshold and lock commands of a channel
(R105 to R109). -/

open Sys2Proof

namespace Sys2Proof.Machine

/-! ## Accesses of the open session -/

/-- What holds of a state and of each outcome of a register write holds after the write, whether or not R433 refuses it. -/
theorem State.byHost_ind {P : State → Prop} {s : State} (a : Nat) (min : Level) {f : Level → State} (hs : P s) (hf : ∀ l, P (f l)) :
    P (s.byHost a min f) := by
  unfold State.byHost
  split
  · exact hs
  · exact hf _

theorem State.byReader_ind {P : State → Prop} {s f : State} (a : Nat) (hs : P s) (hf : P f) : P (s.byReader a f) := by
  unfold State.byReader
  split
  · exact hs
  · split
    · exact hf
    · exact hs

theorem State.chHost_ind {P : State → Prop} {s : State} (n ofs : Nat) (min : Level) {f : State → Level → State} (hs : P s)
    (hf : ∀ l, P (f (s.chTouch n) l)) : P (s.chHost n ofs min f) := by
  refine byHost_ind _ _ hs fun l => ?_
  split
  · exact hf l
  · exact hs

/-! ## Pins -/

/-- `t` differs from `s` in its pins alone. -/
def PinsOnly (t s : State) : Prop := t = { s with gpio := t.gpio }

theorem PinsOnly.refl (s : State) : PinsOnly s s := rfl

theorem PinsOnly.trans {a b c : State} (h : PinsOnly a b) (k : PinsOnly b c) : PinsOnly a c := by
  unfold PinsOnly at *
  rw [h, k]

theorem State.modPort_pinsOnly (s : State) (p : Nat) (f : Port → Port) : PinsOnly (s.modPort p f) s := rfl

theorem State.gpioErr_pinsOnly (s : State) (code p pin : Nat) : PinsOnly (s.gpioErr code p pin) s := rfl

theorem State.outReplay_pinsOnly (s : State) : PinsOnly s.outReplay s :=
  foldl_of PinsOnly PinsOnly.refl PinsOnly.trans _ (fun t _ => t.modPort_pinsOnly _ _) _ _

theorem State.lockFails_pinsOnly (s : State) (p : Nat) : PinsOnly (s.lockFails p) s := rfl

theorem State.lockPast_pinsOnly (s : State) (p : Nat) : PinsOnly (s.lockPast p) s := by
  unfold State.lockPast
  split
  · split
    · exact s.lockFails_pinsOnly p
    · exact .refl s
  · exact .refl s

theorem State.lockTimeout_pinsOnly (s : State) (p : Nat) : PinsOnly (s.lockTimeout p) s := by
  unfold State.lockTimeout
  split
  · split
    · exact s.lockFails_pinsOnly p
    · exact .refl s
  · exact .refl s

theorem State.gpioLock_pinsOnly (s : State) (p key mask : Nat) : PinsOnly (s.gpioLock p key mask) s := by
  unfold State.gpioLock
  split
  · exact .refl s
  · refine PinsOnly.trans (b := s.lockPast p) ?_ (s.lockPast_pinsOnly p)
    dsimp only
    split
    · split
      · exact State.modPort_pinsOnly _ _ _
      · exact State.lockFails_pinsOnly _ _
    · split
      · rfl
      · exact State.lockFails_pinsOnly _ _

theorem State.mirSel_pinsOnly (s : State) (k : Nat) (v : Word) : PinsOnly (s.mirSel k v) s := by
  unfold State.mirSel
  (repeat' split) <;> rfl

theorem State.pinEdge_pinsOnly (s : State) (p pin : Nat) (level : Bool) : PinsOnly (s.pinEdge p pin level) s := by
  unfold State.pinEdge
  dsimp only
  (repeat' split) <;> rfl

/-- The register writes of a port, its lock sequence and its edges change the pins alone. -/
theorem exec_pinsOnly {c : Instr} {s t : State} (h : exec c s = .next t)
    (hc : (∃ p b, c = .gpioOutSet p b) ∨ (∃ p b, c = .gpioOutClr p b) ∨ (∃ p v, c = .gpioDirWrite p v)
      ∨ (∃ k v, c = .gpioMirSelWrite k v) ∨ (∃ p k m, c = .gpioLock p k m) ∨ (∃ p, c = .gpioLockPairTimeout p)
      ∨ (∃ p n l, c = .pinLineEdge p n l)) : PinsOnly t s := by
  obtain ⟨p, b, rfl⟩ | ⟨p, b, rfl⟩ | ⟨p, v, rfl⟩ | ⟨k, v, rfl⟩ | ⟨p, k, m, rfl⟩ | ⟨p, rfl⟩ | ⟨p, n, l, rfl⟩ := hc <;> cases h
  · exact State.byHost_ind (P := (PinsOnly · s)) _ _ (.refl s) fun _ => (State.outReplay_pinsOnly _).trans (s.modPort_pinsOnly _ _)
  · exact State.byHost_ind (P := (PinsOnly · s)) _ _ (.refl s) fun _ => (State.outReplay_pinsOnly _).trans (s.modPort_pinsOnly _ _)
  · exact State.byHost_ind (P := (PinsOnly · s)) _ _ (.refl s) fun _ => s.modPort_pinsOnly _ _
  · exact State.byHost_ind (P := (PinsOnly · s)) _ _ (.refl s) fun _ => s.mirSel_pinsOnly _ _
  · exact State.byHost_ind (P := (PinsOnly · s)) _ _ (.refl s) fun _ => s.gpioLock_pinsOnly _ _ _
  · exact s.lockTimeout_pinsOnly p
  · exact s.pinEdge_pinsOnly p n l

/-! ## Counters -/

theorem State.cntDeliver_only (s : State) : s.cntDeliver = { s with cnt := s.cntDeliver.cnt } := by
  unfold State.cntDeliver
  split <;> rfl

/-- A write of CNT_CTRL changes the counters and notes which leaves have changed. -/
theorem State.cntCtrl_only (s : State) (w : Word) : s.cntCtrl w = { s with cnt := (s.cntCtrl w).cnt, env := (s.cntCtrl w).env }
    ∧ (s.cntCtrl w).env.cells = s.env.cells ∧ (s.cntCtrl w).env.marked = s.env.marked := by
  unfold State.cntCtrl
  split <;> exact ⟨rfl, rfl, rfl⟩

theorem State.byHost_cntCtrl_only (s : State) (a : Nat) (min : Level) (w : Word) {t : State}
    (h : t = s.byHost a min fun _ => s.cntCtrl w) :
    t = { s with cnt := t.cnt, env := t.env } ∧ t.env.cells = s.env.cells ∧ t.env.marked = s.env.marked := by
  subst h
  exact State.byHost_ind (P := fun t => t = { s with cnt := t.cnt, env := t.env } ∧ t.env.cells = s.env.cells
    ∧ t.env.marked = s.env.marked) a min ⟨rfl, rfl, rfl⟩ fun _ => s.cntCtrl_only w

theorem State.decay_only (s : State) (i : Nat) : s.decay i = { s with flt := (s.decay i).flt } := by
  unfold State.decay
  dsimp only
  (repeat' split) <;> rfl

/-! ## Keys -/

theorem State.skeyInstall_only (s : State) (l : Level) (lev : Nat) :
    s.skeyInstall l lev = { s with sec := (s.skeyInstall l lev).sec } := by
  unfold State.skeyInstall
  dsimp only
  (repeat' split) <;> rfl

theorem State.ckeyInstall_only (s : State) (l : Level) (i : Nat) :
    s.ckeyInstall l i = { s with sec := (s.ckeyInstall l i).sec } := by
  unfold State.ckeyInstall
  (repeat' split) <;> rfl

theorem State.accDone_only (s : State) : s.accDone = { s with env := s.accDone.env } := by
  unfold State.accDone
  (repeat' split) <;> rfl

/-- Settles O21: each of these commands is made of updates of its one group, whether or not a check refuses it. -/
theorem oneGroupCommandsFrame : Obligations.OneGroupCommandsFrame := by
  refine ⟨fun c s t h hc => exec_pinsOnly h hc, ?_, ?_, ?_, ?_, ?_, ?_, ?_, ?_, ?_⟩
  · rintro c s t h (rfl | rfl | ⟨n, j, v, rfl⟩ | ⟨p, rfl⟩) <;> cases h
    · unfold State.cntSnapCapture State.cntSnapBy
      (repeat' split) <;> rfl
    · split
      · exact s.cntDeliver_only
      · rfl
    · exact State.byHost_ind (P := fun t => t = { s with cnt := t.cnt }) _ _ rfl fun _ => by split <;> rfl
    · rfl
  · rintro c s t h (rfl | rfl | rfl) <;> cases h <;> exact s.byHost_cntCtrl_only _ _ _ rfl
  · rintro c s t h (rfl | rfl | ⟨d, rfl⟩) <;> cases h
    · refine State.byReader_ind (P := fun t => t = { s with seq := t.seq }) _ rfl ?_
      unfold State.tlogRead
      split <;> rfl
    · exact State.byHost_ind (P := fun t => t = { s with seq := t.seq }) _ _ rfl fun _ => rfl
    · exact State.byHost_ind (P := fun t => t = { s with seq := t.seq }) _ _ rfl fun _ => rfl
  · rintro c s t h (rfl | rfl | ⟨i, rfl⟩) <;> cases h
    · refine State.byReader_ind (P := fun t => t = { s with flt := t.flt }) _ rfl ?_
      unfold State.flogRead
      split <;> rfl
    · exact State.byHost_ind (P := fun t => t = { s with flt := t.flt }) _ _ rfl fun _ => rfl
    · split
      · exact s.decay_only i
      · rfl
  · rintro c s t h (⟨l, rfl⟩ | ⟨i, rfl⟩) <;> cases h
    · exact State.byHost_ind (P := fun t => t = { s with sec := t.sec }) _ _ rfl fun _ => s.skeyInstall_only _ _
    · exact State.byHost_ind (P := fun t => t = { s with sec := t.sec }) _ _ rfl fun _ => s.ckeyInstall_only _ _
  · rintro c s t h (rfl | rfl | rfl) <;> cases h
    · unfold State.wdgOpens
      split <;> rfl
    · refine State.byHost_ind (P := fun t => t = { s with wdg := t.wdg }) _ _ rfl fun _ => ?_
      unfold State.wdgStart
      (repeat' split) <;> rfl
    · rfl
  · rintro c s t h (rfl | rfl) <;> cases h
    · rfl
    · unfold State.lockoutEnds
      split <;> rfl
  · rintro c s t h (rfl | rfl) <;> cases h
    · rfl
    · unfold State.dbgLockEnds
      split <;> rfl
  · rintro c s t h rfl
    cases h
    exact s.accDone_only

/-! ## Threshold and lock commands of a channel -/

/-- `t` differs from `s` in channel `n` alone, and there neither in its configuration nor in its rail. -/
def SenseOnly (n : Nat) (t s : State) : Prop :=
  t = { s with chans := t.chans } ∧ (∀ m, m ≠ n → t.chan m = s.chan m) ∧ (t.chan n).ch.cfg = (s.chan n).ch.cfg
    ∧ (t.chan n).rcfg = (s.chan n).rcfg ∧ (t.chan n).rail = (s.chan n).rail

theorem SenseOnly.refl (n : Nat) (s : State) : SenseOnly n s s := ⟨rfl, fun _ _ => rfl, rfl, rfl, rfl⟩

theorem SenseOnly.trans {n : Nat} {a b c : State} (h : SenseOnly n a b) (k : SenseOnly n b c) : SenseOnly n a c := by
  obtain ⟨h1, h2, h3, h4, h5⟩ := h
  obtain ⟨k1, k2, k3, k4, k5⟩ := k
  exact ⟨by rw [h1, k1], fun m hm => (h2 m hm).trans (k2 m hm), h3.trans k3, h4.trans k4, h5.trans k5⟩

/-- A change of what a channel senses is a change of that alone. -/
theorem State.modChan_senseOnly (s : State) (n : Nat) (g : Chan → Sense) :
    SenseOnly n (s.modChan n fun c => { c with sense := g c }) s :=
  ⟨rfl, fun _ hm => s.modChan_chan_ne _ hm, by rw [State.modChan_chan], by rw [State.modChan_chan], by rw [State.modChan_chan]⟩

theorem State.chHost_senseOnly {s : State} {n ofs : Nat} {min : Level} {f : State → Level → State}
    (h : ∀ t l, SenseOnly n (f t l) t) : SenseOnly n (s.chHost n ofs min f) s :=
  State.chHost_ind (P := (SenseOnly n · s)) _ _ _ (.refl n s) fun l => (h _ l).trans (s.modChan_senseOnly n _)

/-- Settles O22: staging, discarding, both lock keys and a comparator's release change what the channel senses. -/
theorem channelCommandsFrame : Obligations.ChannelCommandsFrame := by
  rintro c n s t h (⟨r, v, rfl⟩ | rfl | ⟨k, rfl⟩ | rfl | ⟨k, v, rfl⟩) <;> cases h
  · split
    · exact State.chHost_senseOnly fun t _ => t.modChan_senseOnly n _
    · exact SenseOnly.refl n s
  · exact State.chHost_senseOnly fun t _ => t.modChan_senseOnly n _
  · refine State.byHost_ind (P := (SenseOnly n · s)) _ _ (.refl n s) fun _ => ?_
    split
    · exact s.modChan_senseOnly n _
    · exact SenseOnly.refl n s
  · exact s.modChan_senseOnly n _
  · unfold State.cmpRelease
    dsimp only
    split
    · exact s.modChan_senseOnly n _
    · exact SenseOnly.refl n s

end Sys2Proof.Machine
end

section
/-! PROOFS. Time of an idle step, coherent view requests, the watchdog's and the power ladder's refusals, the state at reset. -/

open Sys2Proof

namespace Sys2Proof.Machine

/-! ## An idle step -/

/-- A new tick clears the fresh bits of the interrupt blocks alone. -/
theorem State.newTick_rail_ch (s : State) (n : Nat) :
    (s.newTick.chan n).rail = (s.chan n).rail ∧ (s.newTick.chan n).ch = (s.chan n).ch := by
  have hnew : s.newTick.chan n = (s.chan n).newTick := tget_tmap ({} : Chan) (fun _ c => c.newTick) s.chans n rfl
  rw [hnew]
  exact ⟨rfl, rfl⟩

theorem tickPass_of_por {s : State} (h : s.sys.phase = .por) : tickPass s = s := by simp [tickPass, h]

theorem tickPass_tb_of_clock {s : State} (hpor : s.sys.phase ≠ .por) (hclk : s.sys.mainClock = true) :
    (tickPass s).sys.tb = s.sys.tb + 1 ∧ (tickPass s).sys.settled = settledNext s.sys.settled (s.sys.tb + 1) := by
  simp [tickPass, hpor, hclk, State.newTick]

theorem tickPass_tb_of_rc {s : State} (hpor : s.sys.phase ≠ .por) (hclk : s.sys.mainClock = false) :
    (tickPass s).sys.tb = s.sys.tb + (rcStep s.sys.rcAcc).1 ∧
      (tickPass s).sys.settled = settledNext s.sys.settled (s.sys.tb + (rcStep s.sys.rcAcc).1) := by
  simp [tickPass, hpor, hclk, State.newTick, State.rcEdge]

theorem rcStep_ticks (acc : Nat) : (rcStep acc).1 = 3051 ∨ (rcStep acc).1 = 3052 := by
  simp only [rcStep]
  split <;> simp

theorem le_settledNext_add (old t : Nat) : t ≤ settledNext old t + 40 := by
  have hlag : Config.settledLag t % 40 < 40 := Nat.mod_lt _ (by decide)
  simp only [settledNext]
  omega

theorem settledNext_lt {old t : Nat} (hold : old < t) : settledNext old t < t := by
  simp only [settledNext]
  omega

/-- Where time passes, the settled tick is that of `settledNext`. -/
theorem tickPass_settled {s : State} (hpor : s.sys.phase ≠ .por) :
    (tickPass s).sys.settled = settledNext s.sys.settled (tickPass s).sys.tb := by
  cases hclk : s.sys.mainClock with
  | true => rw [(tickPass_tb_of_clock hpor hclk).1, (tickPass_tb_of_clock hpor hclk).2]
  | false => rw [(tickPass_tb_of_rc hpor hclk).1, (tickPass_tb_of_rc hpor hclk).2]

theorem tickPass_rail_ch (s : State) (n : Nat) :
    ((tickPass s).chan n).rail = (s.chan n).rail ∧ ((tickPass s).chan n).ch = (s.chan n).ch := by
  unfold tickPass
  split
  · exact ⟨rfl, rfl⟩
  · have hnew := s.newTick_rail_ch n
    split
    · exact hnew
    · simpa [State.rcEdge, State.chan] using hnew

theorem tickPass_hmp_cfg (s : State) :
    (tickPass s).hmp = s.hmp ∧ (tickPass s).cfg = { s.cfg with irq := (tickPass s).cfg.irq } := by
  unfold tickPass
  (repeat' split) <;> simp [State.rcEdge, State.newTick]

/-- Settles O2. -/
theorem idleStepPassesOneTick : Obligations.IdleStepPassesOneTick := by
  unfold Obligations.IdleStepPassesOneTick
  refine ⟨fun s hs => ⟨?_, by simp, by simp [hs], by simp⟩, fun s => ?_⟩
  · simp only [step, hs, idle]
  refine ⟨by simp, by simp, (tickPass_hmp_cfg s).1, (tickPass_hmp_cfg s).2, fun a => ?_, tickPass_rail_ch s, tickPass_of_por,
    fun hpor hclk _ => (tickPass_tb_of_clock hpor hclk).1, fun hpor hclk => ?_, fun hpor => ?_, fun hlt hpor => ?_⟩
  · exact Env.byteAt_congr (by simp) (by simp) a
  · rw [(tickPass_tb_of_rc hpor hclk).1]
    rcases rcStep_ticks s.sys.rcAcc with h | h <;> simp [h]
  · rw [tickPass_settled hpor]
    exact le_settledNext_add _ _
  · rw [tickPass_settled hpor]
    exact settledNext_lt hlt

/-! ## Requests of a coherent view -/

/-- A request of a session in a rung with registers is the host's write. -/
theorem State.viewReq_of_writer {s : State} {l : Level} (hw : s.writer 0x20 .operator = some l) (hrung : s.rungOk = true)
    (cnt mode : Bool) : s.viewReq cnt mode = s.viewGo cnt mode := by
  simp [State.viewReq, hrung, State.byHost_of_writer _ hw]

/-- In a rung without registers the request comes through whoever sent it. -/
theorem State.viewReq_of_rung {s : State} (hrung : s.rungOk = false) (hcfg : s.configured = true ∨ s.sys.phase = .recovery)
    (hvaux : s.sys.vauxDown = false) (cnt mode : Bool) : s.viewReq cnt mode = s.viewGo cnt mode := by
  rcases hcfg with hcfg | hcfg <;> simp [State.viewReq, hrung, hcfg, hvaux]

theorem State.viewGo_of_accepted {s : State} {mode : Bool} (h : s.viewRefusal mode = 0) (cnt : Bool) :
    s.viewGo cnt mode = s.viewAccept (if mode then s.sys.viewAt else s.now + 16) cnt false := by
  simp [State.viewGo, h]

theorem State.viewGo_of_refused {s : State} {mode : Bool} {k : Nat} (h : s.viewRefusal mode = k + 1) (cnt : Bool) :
    s.viewGo cnt mode = { s with sys := { s.sys with viewCode := k + 1, irq := Irq.set s.sys.irq 1 } } := by
  simp [State.viewGo, h]

/-- Settles O15. -/
theorem viewRequestCodes : Obligations.ViewRequestCodes := by
  unfold Obligations.ViewRequestCodes
  refine ⟨fun s l cnt hw hbusy hrung => ?_, fun s l cnt hw hbusy hrung => ?_, fun s cnt hbusy hrung hcfg hvaux => ?_⟩
  · have hok : s.viewRefusal false = 0 := by simp [State.viewRefusal, hbusy, hrung]
    exact ⟨_, congrArg Host.Outcome.next ((State.viewReq_of_writer hw hrung cnt false).trans (State.viewGo_of_accepted hok cnt)),
      rfl, rfl⟩
  · have hone (mode : Bool) : s.viewRefusal mode = 0 + 1 := by simp [State.viewRefusal, hbusy]
    exact ⟨congrArg Host.Outcome.next ((State.viewReq_of_writer hw hrung cnt _).trans (State.viewGo_of_refused (hone _) cnt)),
      congrArg Host.Outcome.next ((State.viewReq_of_writer hw hrung cnt _).trans (State.viewGo_of_refused (hone _) cnt))⟩
  · have hfour (mode : Bool) : s.viewRefusal mode = 3 + 1 := by simp [State.viewRefusal, hbusy, hrung]
    exact ⟨congrArg Host.Outcome.next ((State.viewReq_of_rung hrung hcfg hvaux cnt _).trans (State.viewGo_of_refused (hfour _) cnt)),
      congrArg Host.Outcome.next ((State.viewReq_of_rung hrung hcfg hvaux cnt _).trans (State.viewGo_of_refused (hfour _) cnt))⟩

/-! ## The watchdog's refusals by mode -/

/-- A stopped watchdog has no period that could end. -/
theorem State.wdgCatch_of_stopped {s : State} (h : s.wdg.run = false) : s.wdgCatch = s := by
  simp [State.wdgCatch, State.wdgDue, State.wdgLive, h, dueAt]

/-- A stopped watchdog waits for no second key. -/
theorem State.keyEnds_of_stopped {s : State} (h : s.wdg.run = false) : s.keyEnds = s := by
  unfold State.keyEnds
  split <;> simp [State.wdgLive, h]

theorem Wdg.gate_of_stopped {w : Wdg} (h : w.run = false) (qa : Bool) (now : Nat) : w.gate qa now = 0xC := by
  simp [Wdg.gate, h]

theorem Wdg.gate_of_mode {w : Wdg} {qa : Bool} {now : Nat} (hrun : w.run = true) (hexp : w.expAt ≠ some now) (hqa : w.qa = !qa) :
    w.gate qa now = 7 := by
  cases qa <;> simp [Wdg.gate, hrun, hexp, hqa]

theorem State.wdgAns_of_gate {s : State} {k : Nat} (hcatch : s.wdgCatch = s) (h : s.wdg.gate true s.now = k + 1) (i a : Nat) :
    s.wdgAns i a = s.wdgRefuse (k + 1) := by
  simp only [State.wdgAns, hcatch, h]

theorem State.wdgSvc_of_gate {s : State} {k : Nat} (hcatch : s.wdgCatch = s) (h : s.wdg.gate true s.now = k + 1) (v : Nat) :
    s.wdgSvc v = s.wdgRefuse (k + 1) := by
  simp only [State.wdgSvc, hcatch, h]

theorem State.wdgKey_of_gate {s : State} {k : Nat} (hcatch : s.wdgCatch = s) (hends : s.keyEnds = s)
    (h : s.wdg.gate false s.now = k + 1) (v : Nat) : s.wdgKey v = s.wdgRefuse (k + 1) := by
  simp only [State.wdgKey, hcatch, hends, h]

/-- Settles O17. -/
theorem watchdogModeRefusals : Obligations.WatchdogModeRefusals := by
  unfold Obligations.WatchdogModeRefusals
  refine ⟨fun s l i a v k hans hsvc hkey hrun => ?_, fun s l i a hans hcatch hexp hrun hqa => ?_,
    fun s l v hsvc hcatch hexp hrun hqa => ?_, fun s l k hkey hcatch hends hexp hrun hqa => ?_⟩
  · have hcatch := State.wdgCatch_of_stopped hrun
    have hgate (qa : Bool) := Wdg.gate_of_stopped hrun qa s.now
    exact ⟨congrArg Host.Outcome.next ((State.byHost_of_writer _ hans).trans (State.wdgAns_of_gate hcatch (hgate _) _ _)),
      congrArg Host.Outcome.next ((State.byHost_of_writer _ hsvc).trans (State.wdgSvc_of_gate hcatch (hgate _) _)),
      congrArg Host.Outcome.next ((State.byHost_of_writer _ hkey).trans
        (State.wdgKey_of_gate hcatch (State.keyEnds_of_stopped hrun) (hgate _) _))⟩
  · exact congrArg Host.Outcome.next ((State.byHost_of_writer _ hans).trans
      (State.wdgAns_of_gate hcatch (Wdg.gate_of_mode hrun hexp hqa) _ _))
  · exact congrArg Host.Outcome.next ((State.byHost_of_writer _ hsvc).trans
      (State.wdgSvc_of_gate hcatch (Wdg.gate_of_mode hrun hexp hqa) _))
  · exact congrArg Host.Outcome.next ((State.byHost_of_writer _ hkey).trans
      (State.wdgKey_of_gate hcatch hends (Wdg.gate_of_mode hrun hexp hqa) _))

/-! ## The checks of a rung request -/

/-- Each of the four commands is the request of its rung. -/
theorem exec_rungRequest {s : State} {l : Level} {r : Rung} {c : Instr}
    (hc : (r = .summer ∧ c = .pwrToSummer) ∨ (r = .autumn ∧ c = .pwrToAutumn) ∨ (r = .winter ∧ c = .pwrToWinter)
      ∨ (r = .midwinter ∧ c = .pwrToMidwinter)) (hw : s.writer 0x1004 .user = some l) : exec c s = .next (s.pwrReq r l) := by
  rcases hc with ⟨rfl, rfl⟩ | ⟨rfl, rfl⟩ | ⟨rfl, rfl⟩ | ⟨rfl, rfl⟩ <;>
    exact congrArg Host.Outcome.next (State.byHost_of_writer _ hw)

/-- Settles O18. -/
theorem powerRequestChecks : Obligations.PowerRequestChecks := by
  unfold Obligations.PowerRequestChecks
  intro s l r c hc hw
  rw [exec_rungRequest hc hw]
  refine ⟨fun hl => ?_, fun hl hr => ?_, fun hl hr hbusy => ?_, fun hl hr hentry hexit hsleep hcan => ?_,
    fun k => ⟨rfl, rfl, rfl, rfl⟩⟩
  · simp [State.pwrReq, hl]
  · simp [State.pwrReq, hl, hr]
  · rcases hbusy with hbusy | hbusy <;> simp [State.pwrReq, hl, hr, hbusy]
  · rcases hsleep with rfl | rfl <;> simp [State.pwrReq, hl, hr, hentry, hexit, hcan]

/-! ## The state at reset -/

/-- Settles O23. -/
theorem stateAtReset : Obligations.StateAtReset := by
  unfold Obligations.StateAtReset
  refine ⟨rfl, rfl, rfl, rfl, rfl, rfl, rfl, rfl, rfl, rfl, rfl, rfl, rfl, rfl, rfl, rfl, rfl, _, rfl, rfl, rfl, rfl⟩

end Sys2Proof.Machine
end

section
/-! PROOFS. Start-up and device resets: each stage and each reset on its event, in its phase. -/

open Sys2Proof

namespace Sys2Proof.Machine

/-! ## The stages of start-up -/

/-- The state in which S1 ends: what the fuse fields give is taken, S2 or HALT begins. -/
def State.fusesTaken (s : State) (badA badB : BitVec 8) (strap : Bool) : State :=
  { s with
    sys := { s.sys with
      phase := if (s.hw.fuses.taken badA badB).all Option.isSome then .s2 else .halt
      taken := takenOf (s.hw.fuses.taken badA badB) badA.toNat
      fuseDis := !decide (badA ^^^ badB = 0)
      haltHold := s.sys.haltHold || !(s.hw.fuses.taken badA badB).all Option.isSome
      strap := strap }
    cas := if strap then { s.cas with st := .leader, addr := 0, depth := 0, path := 0 } else s.cas }

theorem exec_fuseReadDone {s : State} (hphase : s.sys.phase = .s1) (hvaux : s.sys.vauxDown = false) (badA badB : BitVec 8)
    (strap : Bool) : exec (.fuseReadDone badA badB strap) s = .next (s.fusesTaken badA badB strap) :=
  congrArg Host.Outcome.next (if_pos (by simp [hphase, hvaux]))

/-- The state in which S2 ends, without the tamper event that has waited. -/
def State.s2Ended (s : State) (vio33 : Bool) : State :=
  let d := (s.draw 2).2.rcEdge
  let q := leNat (s.draw 2).1
  let w := { d.wdg with q := if q = 0 then 1 else q, armed := true }
  { d with
    pwr := { d.pwr with tamperWake := none }
    sys := { d.sys with phase := if d.sys.phase == .halt then .halt else .s3, mainClock := true, vio33 := vio33 }
    wdg := if d.sys.taken.hwStart then { w with run := true }.period d.now else w
    cas := if d.sys.phase == .halt then d.cas else if d.sys.strap then { d.cas with enumDone := true } else d.cas.train 0 }

theorem exec_bootS2Done {s : State} (hphase : s.sys.phase = .s2 ∨ s.sys.phase = .halt) (hdone : s.s2Done = false)
    (hvaux : s.sys.vauxDown = false) (vio33 : Bool) :
    exec (.bootS2Done vio33) s = .next (match s.pwr.tamperWake with
      | some u => ((s.s2Ended vio33).safeEnter 2047 u).settle (s.s2Ended vio33).now
      | none => s.s2Ended vio33) := by
  have hcond : ((s.sys.phase == .s2 || s.sys.phase == .halt) && !s.s2Done && !s.sys.vauxDown) = true := by
    rcases hphase with h | h <;> simp [h, hdone, hvaux]
  show Host.Outcome.next (s.s2Ends vio33) = _
  unfold State.s2Ends
  rw [if_pos hcond]
  rfl

theorem State.s2Ended_wdg (s : State) (vio33 : Bool) :
    (s.s2Ended vio33).wdg.run = (s.wdg.run || s.sys.taken.hwStart) ∧ (s.s2Ended vio33).wdg.armed = true := by
  cases h : s.sys.taken.hwStart <;> simp [State.s2Ended, State.draw, State.rcEdge, h, Wdg.period]

theorem State.s2Ended_phase (s : State) (vio33 : Bool) :
    (s.s2Ended vio33).sys.phase = if s.sys.phase = .halt then .halt else .s3 := by
  simp [State.s2Ended, State.draw, State.rcEdge]

theorem State.s2Ended_tb (s : State) (vio33 : Bool) : (s.s2Ended vio33).sys.tb = s.sys.tb + (rcStep s.sys.rcAcc).1 := by
  simp [State.s2Ended, State.draw, State.rcEdge]

theorem State.s2Ended_env (s : State) (vio33 : Bool) : (s.s2Ended vio33).env = s.env := by
  simp [State.s2Ended, State.draw, State.rcEdge]

/-- Settles O24. -/
theorem startUpStagesComplete : Obligations.StartUpStagesComplete := by
  unfold Obligations.StartUpStagesComplete
  refine ⟨fun s h => ?_, fun s badA badB strap hphase hvaux => ?_, fun s vio33 hphase hdone hvaux => ?_,
    fun s f hphase hclock hvaux => ?_, fun s f hphase hreload hctrl => ?_, fun s hphase hreload hctrl hsampled => ?_⟩
  · exact ⟨_, exec_powerOnResetRelease_of_down h, rfl, rfl, rfl, rfl, rfl, rfl, rfl⟩
  · exact ⟨_, exec_fuseReadDone hphase hvaux badA badB strap, rfl, rfl, rfl, rfl, rfl, rfl, rfl⟩
  · exact ⟨_, exec_bootS2Done hphase hdone hvaux vio33, rfl, s.s2Ended_phase vio33, s.s2Ended_tb vio33, rfl, rfl,
      (s.s2Ended_wdg vio33).1, (s.s2Ended_wdg vio33).2, s.s2Ended_env vio33⟩
  · exact ⟨_, _, rfl, rfl, congrArg Host.Outcome.next (if_pos (by simp [hphase, hclock, hvaux]))⟩
  · have hcond : (s.sys.phase == .s4 && !s.reloading && s.ctrlUp) = true := by simp [hphase, hreload, hctrl]
    refine ⟨_, congrArg Host.Outcome.next (if_pos hcond), fun r k hr => ?_, fun r hr => ?_⟩
    · rw [hr]; exact ⟨rfl, rfl, rfl, rfl⟩
    · rw [hr]
  · refine ⟨_, rfl, ?_⟩
    show Host.Outcome.next (if s.reloading then s.reloadReady else s.s5Ends) = _
    rw [if_neg (by simp [hreload]), State.s5Ends, if_pos (by simp [hphase, hreload, hctrl, hsampled])]

/-! ## Device resets -/

/-- Outside the power-on reset and with VAUX up, what a cause of an orderly reset finds is `orderly`'s second branch. -/
theorem State.powered_cond {s : State} (hpor : s.sys.phase ≠ .por) (hvaux : s.sys.vauxDown = false) :
    ¬ (s.sys.phase == .por || s.sys.vauxDown) = true := by
  simp [hpor, hvaux]

theorem State.vauxFalls_of_powered {s : State} (hpor : s.sys.phase ≠ .por) (hvaux : s.sys.vauxDown = false) :
    s.vauxFalls = ({ s.release with sys := { s.release.sys with
      vauxDown := true, mainClock := false, rstCause := Nat.lor s.release.sys.rstCause 2 } }).privEvent 4 s.release.now :=
  if_neg (State.powered_cond hpor hvaux)

theorem State.orderly_of_none {s : State} (hpor : s.sys.phase ≠ .por) (hvaux : s.sys.vauxDown = false) (hpend : s.sys.pend = none)
    (cause : Nat) {u : State} (hu : u = { s with sys := { s.sys with pend := some { cause := cause, since := s.now } } }) :
    s.orderly cause = if s.running = true ∧ s.railsOff = false then
      (((u.setCause fun c => { c with reset := true }).admission s.now []).drainStart 4 s.now).settle s.now else u := by
  subst hu
  unfold State.orderly
  rw [if_neg (State.powered_cond hpor hvaux)]
  simp only [hpend, Option.isNone_none, Bool.and_true, Bool.and_eq_true, Bool.not_eq_true']

theorem State.orderly_of_some {s : State} {p : ResetPend} (hpor : s.sys.phase ≠ .por) (hvaux : s.sys.vauxDown = false)
    (hpend : s.sys.pend = some p) (cause : Nat) :
    s.orderly cause = { s with sys := { s.sys with pend := some { p with cause := Nat.lor p.cause cause } } } := by
  unfold State.orderly
  rw [if_neg (State.powered_cond hpor hvaux)]
  simp [hpend]

theorem State.softReq_of_accepted {s : State} {l : Level} (hl : l.ge .owner = true) (hoff : s.railsOff = true) :
    s.softReq l 0x5D1E = { s with sys := { s.sys with rstCode := 0, softAt := some (s.now + 100 * tUs) } } := by
  simp [State.softReq, hl, hoff]

theorem State.devReset_chan (s : State) (cause n : Nat) :
    (s.devReset cause).chan n = { sense := { pgPin := (s.chan n).sense.pgPin } } :=
  tget_tmap ({} : Chan) (fun _ c => c.survive) s.chans n rfl

/-- Settles O25. -/
theorem deviceResetsComplete : Obligations.DeviceResetsComplete := by
  unfold Obligations.DeviceResetsComplete
  refine ⟨fun s hpor hvaux => ?_, fun s => exec_vauxRecover, fun s => exec_mainClockRestart, fun s u hpor hvaux hpend hu => ?_,
    fun s p hpor hvaux hpend => ?_, fun s p => exec_orderlyResetComplete, fun s l hw hl hoff => ?_,
    fun s csRise t hs hdue hwaits => ?_, fun s cause => ⟨rfl, rfl, rfl, rfl, rfl, rfl, s.devReset_chan cause, rfl, rfl⟩⟩
  · exact ⟨_, congrArg Host.Outcome.next (State.vauxFalls_of_powered hpor hvaux), rfl⟩
  · exact congrArg Host.Outcome.next (State.orderly_of_none hpor hvaux hpend 8 hu)
  · exact congrArg Host.Outcome.next (State.orderly_of_some hpor hvaux hpend 8)
  · exact ⟨_, congrArg Host.Outcome.next ((State.byHost_of_writer _ hw).trans (State.softReq_of_accepted hl hoff)),
      rfl, rfl, rfl, rfl, rfl⟩
  · refine ⟨_, exec_softResetTakeEffect hs hdue hwaits, rfl, rfl, ?_, rfl⟩
    exact State.softPending_rstCause hs
end Sys2Proof.Machine
end

section
/-! PROOFS. The coherent view and the islands: accepted requests, capture, delivery, and the loss of an island. -/

open Sys2Proof

namespace Sys2Proof.Machine

/-! ## Islands -/

/-- An accepted request needs a rung with registers. -/
theorem State.rungOk_of_writer {s : State} {a : Nat} {min l : Level} (hw : s.writer a min = some l) : s.rungOk = true := by
  unfold State.writer at hw
  split at hw
  · cases hw
  · next l' _ =>
    by_cases hc : (l'.ge min && s.hmpUp && !s.notReady a true && s.rungOk && !s.islLost (islServing a)) = true
    · simp only [Bool.and_eq_true] at hc
      exact hc.1.2
    · rw [if_neg hc] at hw
      cases hw

/-- The lost bit of an island stands once it is set. -/
theorem testBit_lor_two_pow (n i : Nat) : (Nat.lor n (2 ^ i)).testBit i = true := by
  show (n ||| 2 ^ i).testBit i = true
  simp [Nat.testBit_or]

theorem Irq.set_getLsbD {x : Irq} {i : Nat} (h : i < 32) : (x.set i).st.getLsbD i = true := by
  have hbit : (w32 (2 ^ i)).getLsbD i = true := by rw [w32, BitVec.getLsbD_ofNat]; simp [h]
  simp only [Irq.set, wset, BitVec.getLsbD_or, hbit, Bool.or_true]

/-! ## The coherent view -/

/-- A view is taken where its tick has come, unless it is an equinox view of a follower without the domain's timebase. -/
theorem exec_viewCapture {s u : State} {r : ViewReq} (hr : s.sys.viewReq = some r) (hat : r.at_ ≤ s.now) (hup : s.ctrlUp = true)
    (hrung : s.rungOk = true) (heqx : r.eqx = false ∨ s.sys.strap = true ∨ s.lockedNow = true)
    (hu : u = { s with sys := { s.sys with viewReq := none, shadow := some (r, s.viewWords) } }) :
    exec .viewCapture s = .next (if r.cnt then u.cntDeliver.cntCapture (if r.eqx then 2 else 1) r.at_ else u) := by
  subst hu
  have hdue : (decide (r.at_ ≤ s.now) && s.ctrlUp && s.rungOk) = true := by simp [hat, hup, hrung]
  have htaken : ¬ (r.eqx && !(s.sys.strap || s.lockedNow)) = true := by
    rcases heqx with h | h | h <;> simp [h]
  show Host.Outcome.next (s.viewTakeBy s.now) = _
  simp only [State.viewTakeBy, hr]
  rw [if_pos hdue, if_neg htaken]

theorem exec_viewCapture_of_unlocked {s u : State} {r : ViewReq} (hr : s.sys.viewReq = some r) (hat : r.at_ ≤ s.now)
    (hup : s.ctrlUp = true) (hrung : s.rungOk = true) (heqx : r.eqx = true) (hstrap : s.sys.strap = false)
    (hlock : s.lockedNow = false)
    (hu : u = { s with sys := { s.sys with viewReq := none, viewCode := 5, irq := Irq.set s.sys.irq 1 } }) :
    exec .viewCapture s = .next (u.casUp (.eqxRep u.cas.addr false 1)) := by
  subst hu
  have hdue : (decide (r.at_ ≤ s.now) && s.ctrlUp && s.rungOk) = true := by simp [hat, hup, hrung]
  show Host.Outcome.next (s.viewTakeBy s.now) = _
  simp only [State.viewTakeBy, hr]
  rw [if_pos hdue, if_pos (by simp [heqx, hstrap, hlock])]
  simp [State.eqxReply, hstrap]

/-- The state in which a view is delivered, without the counters and the reply of an equinox view. -/
def State.viewShown (s : State) (r : ViewReq) (ws : Tab Word) : State :=
  { s with sys := { s.sys with
    shadow := none, view := s.viewHeld ws, viewMiss := s.viewMissed, viewTick := r.at_, viewDone := true, viewSrc := r.eqx
    irq := Irq.set s.sys.irq 0 } }

theorem State.viewEnd_of_settled {s : State} {r : ViewReq} {ws : Tab Word} (hs : s.sys.shadow = some (r, ws))
    (hset : s.settledBy r.at_ = true) :
    s.viewEnd = if r.eqx then (if r.cnt then (s.viewShown r ws).cntDeliver else s.viewShown r ws).eqxReply true 0
      else if r.cnt then (s.viewShown r ws).cntDeliver else s.viewShown r ws := by
  simp only [State.viewEnd, hs]
  rw [if_pos hset]
  rfl

/-- The counters of a view change no register of the system block. -/
theorem State.cntDeliver_sys (s : State) : s.cntDeliver.sys = s.sys := by
  unfold State.cntDeliver
  split <;> rfl

/-- The counters of a view depend on the islands and the counters alone. -/
theorem State.viewShown_cntDeliver_cnt (s : State) (r : ViewReq) (ws : Tab Word) :
    (s.viewShown r ws).cntDeliver.cnt = s.cntDeliver.cnt := by
  have hlost (us : Tab Word) : (s.viewShown r ws).snapLost us = s.snapLost us := rfl
  have hcnt : (s.viewShown r ws).cnt = s.cnt := rfl
  simp only [State.cntDeliver, hcnt, hlost]
  split <;> rfl

theorem State.eqxReply_sys_cnt (s : State) (ok : Bool) (why : Nat) :
    (s.eqxReply ok why).sys = s.sys ∧ (s.eqxReply ok why).cnt = s.cnt := by
  unfold State.eqxReply
  split <;> exact ⟨rfl, rfl⟩

/-- A delivered view shows its words; its counters come with it where they were asked for. -/
theorem State.viewEnd_sys_cnt {s : State} {r : ViewReq} {ws : Tab Word} (hs : s.sys.shadow = some (r, ws))
    (hset : s.settledBy r.at_ = true) :
    s.viewEnd.sys = (s.viewShown r ws).sys ∧ s.viewEnd.cnt = if r.cnt then s.cntDeliver.cnt else s.cnt := by
  rw [State.viewEnd_of_settled hs hset]
  cases r.eqx <;> cases r.cnt <;>
    simp [State.eqxReply_sys_cnt, State.cntDeliver_sys, State.viewShown_cntDeliver_cnt] <;> rfl

/-- Settles O26. -/
theorem viewAndIslandsComplete : Obligations.ViewAndIslandsComplete := by
  unfold Obligations.ViewAndIslandsComplete
  refine ⟨fun s l cnt hw hok => ?_, fun s l cnt hw hok => ?_, fun s u r hr hat hup hrung heqx hu => ?_,
    fun s u r hr hat hup hrung heqx hstrap hlock hu => ?_, fun s r ws hs hset => ?_, fun s i hisl hlost hup hrung => ?_,
    fun s i slip hstrobe hisl hlost hup hrung => ?_⟩
  · exact ⟨_, congrArg Host.Outcome.next ((State.viewReq_of_writer hw (State.rungOk_of_writer hw) cnt false).trans
      (State.viewGo_of_accepted hok cnt)), rfl, rfl, rfl, rfl, rfl⟩
  · exact ⟨_, congrArg Host.Outcome.next ((State.viewReq_of_writer hw (State.rungOk_of_writer hw) cnt true).trans
      (State.viewGo_of_accepted hok cnt)), rfl, rfl, rfl, rfl, rfl⟩
  · exact exec_viewCapture hr hat hup hrung heqx hu
  · exact exec_viewCapture_of_unlocked hr hat hup hrung heqx hstrap hlock hu
  · obtain ⟨hsys, hcnt⟩ := State.viewEnd_sys_cnt hs hset
    refine ⟨_, rfl, ?_⟩
    rw [hsys, hcnt]
    exact ⟨rfl, rfl, rfl, rfl, rfl, rfl, Irq.set_getLsbD (by decide), fun h => if_pos h, fun h => if_neg (by simp [h])⟩
  · exact ⟨_, rfl, testBit_lor_two_pow _ i, congrArg Host.Outcome.next (if_pos (by simp [hisl, hlost, hup, hrung]))⟩
  · show Host.Outcome.next (s.fullValue i slip) = _
    by_cases hslip : slip = 0 <;> simp [State.fullValue, hstrobe, hisl, hlost, hup, hrung, hslip]

end Sys2Proof.Machine
end

section
/-! PROOFS. Comparators, samples and pins of a rail channel. -/

open Sys2Proof

namespace Sys2Proof.Machine

/-! ## The items of the timetable -/

/-- An item that has come is carried out after everything before it, if it still stands then. -/
theorem State.rowEnds_of_due {s u : State} {k : SeqItem} {r t : Nat} (hat : s.itemAt k r = some t) (hlast : s.lastOf t = true)
    (hu : u = s.upTo t k.rank) (hstill : u.itemAt k r = some t) : s.rowEnds k r = u.runItem k r t := by
  subst hu
  simp only [State.rowEnds, hat, hlast, hstill, if_true]

/-- Items before the reactions leave the settled tick to the tick's end. -/
theorem State.runItem_of_early {s : State} {k : SeqItem} (hk : k.rank < SeqItem.react.rank) (r t : Nat) :
    s.runItem k r t = s.doItem k r t := by
  rw [State.runItem, if_neg (Nat.not_le.mpr hk)]

/-- The reactions and what comes after them settle their tick. -/
theorem State.runItem_of_late {s : State} {k : SeqItem} (hk : SeqItem.react.rank ≤ k.rank) (r t : Nat) :
    s.runItem k r t = (s.settleTo t).doItem k r t := by
  rw [State.runItem, if_pos hk]

/-! ## Comparators -/

/-- The comparator `k` of channel `n` takes the state `x`. -/
def State.putCmp (s : State) (n : Nat) (k : Cmp) (x : CmpSt) : State :=
  s.modChan n fun c => { c with sense := c.sense.setCmp k x }

theorem State.putCmp_cmp (s : State) (n : Nat) (k : Cmp) (x : CmpSt) : ((s.putCmp n k x).chan n).sense.cmp k = x := by
  simp [State.putCmp]

/-- What a trip finds once its channel's arming has been carried out. -/
theorem State.cmpTrip_of_beyond {s p : State} {n level held : Nat} {k : Cmp} (hruns : s.chanRuns n = true)
    (hp : p = s.prior.armDue n) (hpruns : p.chanRuns n = true) (hlive : ((p.chan n).sense.cmp k).live = false)
    (hbeyond : ((p.chan n).sense.thrOn p.now).beyond k level = true)
    (hheld : fld (((p.chan n).sense.thrOn p.now).cmp k) 16 4 + 1 ≤ held) (free : Bool)
    (hfree : (((p.chan n).sense.cmp k).holdEnd.isNone || (p.chan n).sense.was.any fun w => decide (w.1 = p.now)) = free)
    {u : State} (hu : u = p.putCmp n k { (p.chan n).sense.cmp k with live := true, out := free || ((p.chan n).sense.cmp k).out }) :
    s.cmpTrip n k level held =
      if (free && (p.chan n).armed p.now k) = true then (u.cmpEvent n k u.now).settle u.now else u := by
  subst hu hfree hp
  have hcond : (State.chanRuns (s.prior.armDue n) n && !(((s.prior.armDue n).chan n).sense.cmp k).live
      && (((s.prior.armDue n).chan n).sense.thrOn (s.prior.armDue n).now).beyond k level
      && decide (fld ((((s.prior.armDue n).chan n).sense.thrOn (s.prior.armDue n).now).cmp k) 16 4 + 1 ≤ held)) = true := by
    simp [hpruns, hlive, hbeyond, hheld]
  simp only [State.cmpTrip, hruns, if_true]
  rw [if_pos hcond]
  rfl

theorem State.cmpRelease_of_back {s : State} {n level : Nat} {k : Cmp} (hruns : s.chanRuns n = true)
    (hlive : ((s.chan n).sense.cmp k).live = true) (hback : (s.chan n).sense.act.back k level = true) :
    s.cmpRelease n k level = s.putCmp n k
      { (s.chan n).sense.cmp k with
        live := false, out := ((s.chan n).sense.cmp k).out && ((s.chan n).sense.cmp k).holdEnd.isSome } := by
  rw [State.cmpRelease]
  exact if_pos (by simp [hruns, hlive, hback])

/-- The end of a hold that finds nothing beyond the threshold clears the output and raises no event. -/
theorem State.holdEnds_of_back {s : State} {n e : Nat} {k : Cmp} (hend : ((s.chan n).sense.cmp k).holdEnd = some e) (he : e ≤ s.now)
    (hlive : ((s.chan n).sense.cmp k).live = false) :
    s.holdEnds n k = s.putCmp n k { (s.chan n).sense.cmp k with out := false, holdEnd := none } := by
  simp [State.holdEnds, State.putCmp, hend, dueAt_some he, hlive]

/-! ## Samples -/

theorem Sense.sample_v_i (c : Sense) (now strobe v i : Nat) :
    (c.sample now strobe v i).v = min 4095 v ∧ (c.sample now strobe v i).i = min 4095 i := ⟨rfl, rfl⟩

theorem Sense.disUpd_v_i (c : Sense) (t : Nat) (want : Bool) : (c.disUpd t want).v = c.v ∧ (c.disUpd t want).i = c.i := by
  unfold Sense.disUpd
  split <;> exact ⟨rfl, rfl⟩

/-- A sample sets the channel's codes, leaves its rail and touches no other channel. -/
theorem State.takeSample_chan (s : State) (n v i : Nat) :
    ((s.takeSample n v i).chan n).sense.v = min 4095 v ∧ ((s.takeSample n v i).chan n).sense.i = min 4095 i
      ∧ ((s.takeSample n v i).chan n).rail = (s.chan n).rail ∧ ∀ m, m ≠ n → (s.takeSample n v i).chan m = s.chan m := by
  refine ⟨?_, ?_, ?_, fun m hm => ?_⟩
  · simp [State.takeSample, State.chan, Sense.disUpd_v_i, Sense.sample]
  · simp [State.takeSample, State.chan, Sense.disUpd_v_i, Sense.sample]
  · simp [State.takeSample, State.chan]
  · have hother (f : Chan → Chan) : tget {} (tmod {} s.chans n f) m = tget {} s.chans m := tget_tmod_ne _ _ f hm
    simp only [State.takeSample, State.chan, hother]

theorem State.running_of_chanRuns {s : State} {n : Nat} (h : s.chanRuns n = true) : s.running = true := by
  simp only [State.chanRuns, Bool.and_eq_true] at h
  exact h.1.1

theorem State.chanSample_of_runs {s p : State} {n v i : Nat} (hslot : s.slotDue n = true) (hruns : s.chanRuns n = true)
    (hp : p = ((s.prior.takeSample n v i).goodUpd n s.now).bandCheck n (min 4095 v) s.now) :
    s.chanSample n v i = ((p.belowDis n s.now).stopPass s.now).settle s.now := by
  subst hp
  have hcond : ¬ ((s.sys.phase == .s5 || s.reloading) && !s.running && s.ctrlUp && s.inUse n && !s.islLost (islOf n)) = true := by
    simp [State.running_of_chanRuns hruns]
  rw [State.chanSample, if_neg (by simp [hslot]), if_neg hcond, if_pos hruns]

/-- While the channels are being brought up a sample is taken and nothing acts on it. -/
theorem State.chanSample_of_loading {s : State} {n v i : Nat} (hslot : s.slotDue n = true)
    (hphase : s.sys.phase = .s5 ∨ s.reloading = true) (hrun : s.running = false) (hup : s.ctrlUp = true) (huse : s.inUse n = true)
    (hlost : s.islLost (islOf n) = false) :
    s.chanSample n v i = s.modChan n fun c => { c with sense := c.sense.sample s.now s.sys.strobe v i } := by
  have hcond : ((s.sys.phase == .s5 || s.reloading) && !s.running && s.ctrlUp && s.inUse n && !s.islLost (islOf n)) = true := by
    rcases hphase with h | h <;> simp [h, hrun, hup, huse, hlost]
  rw [State.chanSample, if_neg (by simp [hslot]), if_pos hcond]

/-- Settles O27. -/
theorem channelSensingCompletes : Obligations.ChannelSensingCompletes := by
  unfold Obligations.ChannelSensingCompletes
  refine ⟨fun s p u n level held k hruns hp hpruns hlive hbeyond hheld hnone hu => ?_,
    fun s p n level held e k hruns hp hpruns hlive hbeyond hheld hend hwas => ?_, fun s n level k hruns hlive hback => ?_,
    fun s n v i hslot hphase hrun hup huse hlost => ?_,
    fun s p n v i hslot hruns hp => congrArg Host.Outcome.next (State.chanSample_of_runs hslot hruns hp), State.takeSample_chan,
    fun s n v i hslot => congrArg Host.Outcome.next (if_pos (by simp [hslot])), fun s u n level hn hu => ?_,
    fun s u n e hat hlast hu hstill => ?_, fun s n e k hend he hlive => ?_, fun s p n e hat hlast hp hstill => ⟨_, rfl, ?_⟩⟩
  · exact congrArg Host.Outcome.next (State.cmpTrip_of_beyond hruns hp hpruns hlive hbeyond hheld true (by simp [hnone]) hu)
  · refine ⟨_, congrArg Host.Outcome.next (State.cmpTrip_of_beyond hruns hp hpruns hlive hbeyond hheld false
      (by simp [hend, hwas]) rfl), ?_⟩
    simp only [Bool.false_and, Bool.false_eq_true, if_false, State.putCmp_cmp, Bool.false_or, true_and]
    exact ⟨rfl, rfl, trivial⟩
  · refine ⟨_, congrArg Host.Outcome.next (State.cmpRelease_of_back hruns hlive hback), ?_⟩
    rw [State.putCmp_cmp]
    exact ⟨rfl, rfl, fun hend => by simp [hend]⟩
  · refine ⟨_, congrArg Host.Outcome.next (State.chanSample_of_loading hslot hphase hrun hup huse hlost), ?_⟩
    simp [Sense.sample_v_i]
  · subst hu
    exact congrArg Host.Outcome.next (if_pos hn)
  · exact congrArg Host.Outcome.next ((State.rowEnds_of_due hat hlast hu hstill).trans (State.runItem_of_early (by decide) n e))
  · rw [State.holdEnds_of_back hend he hlive, State.putCmp_cmp]
    exact ⟨rfl, rfl, rfl⟩
  · exact congrArg Host.Outcome.next ((State.rowEnds_of_due hat hlast hp hstill).trans (State.runItem_of_early (by decide) n e))

end Sys2Proof.Machine
end

section
/-! PROOFS. Threshold sets of a channel and its lock. -/

open Sys2Proof

namespace Sys2Proof.Machine

/-! ## Commands of a channel -/

/-- A command of a channel in use acts on the state in which a waiting lock key is forgotten. -/
theorem State.chHost_of_writer {s : State} {n ofs : Nat} {min l : Level} (f : State → Level → State)
    (hw : s.writer (chReg n ofs) min = some l) (huse : s.inUse n = true) : s.chHost n ofs min f = f (s.chTouch n) l :=
  (State.byHost_of_writer _ hw).trans (if_pos huse)

theorem State.chTouch_chan (s : State) (n : Nat) :
    (s.chTouch n).chan n = { s.chan n with sense := { (s.chan n).sense with lockAt := none } } :=
  State.modChan_chan s n _

/-! ## Taking a staged set -/

theorem Sense.disUpd_thr (c : Sense) (t : Nat) (want : Bool) :
    (c.disUpd t want).act = c.act ∧ (c.disUpd t want).stg = c.stg ∧ (c.disUpd t want).applyCode = c.applyCode := by
  unfold Sense.disUpd
  split <;> exact ⟨rfl, rfl, rfl⟩

theorem Rail.sampled_state (x : Rail) (below : Bool) (stamp : Nat) : (x.sampled below stamp).state = x.state := by
  unfold Rail.sampled
  (repeat' split) <;> rfl

theorem Chan.retarget_sense_rail (c : Chan) : c.retarget.sense = c.sense ∧ c.retarget.rail = c.rail := by
  unfold Chan.retarget
  (repeat' split) <;> exact ⟨rfl, rfl⟩

/-- An applied set is both the active and the staged one, and the rail stays in its state. -/
theorem Chan.applyThr_thr (c : Chan) (t : Thr) (now : Nat) (safe : Bool) :
    (c.applyThr t now safe).sense.act = t ∧ (c.applyThr t now safe).sense.stg = t
      ∧ (c.applyThr t now safe).rail.state = c.rail.state := by
  simp only [Chan.applyThr, Chan.retarget_sense_rail, Sense.disUpd_thr, Rail.sampled_state, and_self]

theorem State.chApply_chan_of_ok {s : State} {n : Nat} (hstg : (s.chan n).sense.stg ≠ (s.chan n).sense.act)
    (hok : (s.chan n).applyCheck = 0) :
    ((s.chApply n).chan n).sense.act = (s.chan n).sense.stg ∧ ((s.chApply n).chan n).sense.stg = (s.chan n).sense.stg
      ∧ ((s.chApply n).chan n).sense.applyCode = 0 ∧ ((s.chApply n).chan n).rail.state = (s.chan n).rail.state := by
  simp only [State.chApply, State.modChan_chan, hstg, if_false, hok]
  simp [Chan.applyThr_thr]

theorem State.chApply_chan_of_refused {s : State} {n : Nat} (hstg : (s.chan n).sense.stg ≠ (s.chan n).sense.act)
    (hbad : (s.chan n).applyCheck ≠ 0) :
    ((s.chApply n).chan n).sense.act = (s.chan n).sense.act
      ∧ ((s.chApply n).chan n).sense.applyCode = (s.chan n).applyCheck
      ∧ ((s.chApply n).chan n).rail = (s.chan n).rail := by
  obtain ⟨k, hk⟩ := Nat.exists_eq_succ_of_ne_zero hbad
  simp only [State.chApply, State.modChan_chan, hstg, if_false, hk, and_self]

/-! ## The lock -/

/-- The first key of the pair waits for the second. -/
theorem Sense.lockKey_first {c : Sense} (h : c.lockAt = none) (now : Nat) : c.lockKey 0x3A61 now = { c with lockAt := some now } := by
  simp [Sense.lockKey, h]

/-- The second key locks within 10 µs of the first, and ends the pair in any case. -/
theorem Sense.lockKey_second {c : Sense} {a : Nat} (h : c.lockAt = some a) (now : Nat) :
    (c.lockKey 0x613A now).lockAt = none ∧ (c.lockKey 0x613A now).locked = (c.locked || decide (now < a + 1000)) := by
  by_cases hin : now < a + 1000 <;> simp [Sense.lockKey, h, tUs, hin]

/-- Settles O28. -/
theorem thresholdCommandsComplete : Obligations.ThresholdCommandsComplete := by
  unfold Obligations.ThresholdCommandsComplete
  refine ⟨fun s l n reg w hreg hw huse hlock => ?_, fun s l n hw huse => ?_, fun s n hstg hok => ?_, fun s n hstg hbad => ?_,
    fun s l n hw huse => ?_, fun s l n hw huse hnone => ?_, fun s l n a hw huse hat => ?_, fun s n a hat hlate => ?_⟩
  · refine ⟨_, congrArg Host.Outcome.next ((if_pos hreg).trans (State.chHost_of_writer _ hw huse)), ?_⟩
    simp [State.stageThr, State.chTouch_chan, hlock]
  · exact congrArg Host.Outcome.next (State.chHost_of_writer _ hw huse)
  · obtain ⟨hact, hkept, hcode, hrail⟩ := State.chApply_chan_of_ok hstg hok
    exact ⟨hact, hkept, hcode, hrail, rfl, rfl, fun m hm => State.modChan_chan_ne s _ hm⟩
  · obtain ⟨hact, hcode, hrail⟩ := State.chApply_chan_of_refused hstg hbad
    exact ⟨hact, hcode, hrail, rfl⟩
  · refine ⟨_, congrArg Host.Outcome.next (State.chHost_of_writer _ hw huse), ?_⟩
    simp [State.chDiscard, State.chTouch_chan]
  · refine ⟨_, congrArg Host.Outcome.next ((State.byHost_of_writer _ hw).trans (if_pos huse)), ?_⟩
    simp [State.chLock, Sense.lockKey_first hnone]
  · refine ⟨_, congrArg Host.Outcome.next ((State.byHost_of_writer _ hw).trans (if_pos huse)), ?_⟩
    simpa [State.chLock] using Sense.lockKey_second hat s.now
  · refine ⟨_, rfl, ?_⟩
    simp [hat, Option.filter, tUs, Nat.not_lt.mpr hlate]

end Sys2Proof.Machine
end

section
/-! PROOFS. Channel HS, the HVS inputs and the input-loss comparator; requests of the sequencer. -/

open Sys2Proof

namespace Sys2Proof.Machine

/-! ## HVS inputs -/

/-- A sample of an HVS input sets its code and its two sides, and keeps its thresholds and the other inputs. -/
theorem Hs.hvsTake_hvs (h : Hs) (k code : Nat) :
    (tget {} (h.hvsTake k code).hvs k).code = code ∧ (tget {} (h.hvsTake k code).hvs k).thr = (tget {} h.hvs k).thr
      ∧ (tget {} (h.hvsTake k code).hvs k).beyondLo = decide (code < fld (tget {} h.hvs k).thr 0 12)
      ∧ (tget {} (h.hvsTake k code).hvs k).beyondHi = decide (fld (tget {} h.hvs k).thr 16 12 < code)
      ∧ ∀ m, m ≠ k → tget {} (h.hvsTake k code).hvs m = tget {} h.hvs m := by
  refine ⟨?_, ?_, ?_, ?_, fun m hm => tget_tset_ne _ _ _ hm⟩ <;> simp [Hs.hvsTake]

/-- The state in which a sample of HVS input `k` has been taken: its sides, and for the input of VIN the row of good samples. -/
def State.hvsTaken (p : State) (k code : Nat) : State :=
  { p with
    hs := p.hs.hvsTake k code
    hld := if k = 0 then { p.hld with vinOk := if fld p.hld.volt 16 12 ≤ code then incTo 100 p.hld.vinOk else 0 } else p.hld }

/-- The two updates of a sample one after the other, as the model makes them. -/
theorem State.hvsTaken_eq (p : State) (k code : Nat) :
    (if k = 0 then { { p with hs := p.hs.hvsTake k code } with
        hld := { p.hld with vinOk := if fld p.hld.volt 16 12 ≤ code then incTo 100 p.hld.vinOk else 0 } }
      else { p with hs := p.hs.hvsTake k code }) = p.hvsTaken k code := by
  unfold State.hvsTaken
  split <;> rfl

/-- What the input of the hold-up store's capacitors brings with its sample. -/
def State.holdupSampled (r : State) (k code : Nat) : State :=
  if k = r.holdupIdx then
    ((({ r with hs := { r.hs with holdOk := decide (fld r.hs.goodThr 0 12 ≤ code) } }).capSample code r.now).energy code).floorCheck code
  else r

theorem State.hvsSample_of_running {s : State} {k : Nat} (hs : s.samples = true) (hrun : s.running = true)
    (hk : k < nHvs s.hw.variant) (code : Nat) {u r w : State} (hu : u = s.prior.hvsTaken k (min 4095 code))
    (hr : r = u.reports (s.prior.hs.hvsEvents u.hs k) u.now) (hw : w = r.holdupSampled k (min 4095 code)) :
    s.hvsSample k code = w.settle w.now := by
  subst hw hr hu
  have hgo : ¬ (!s.samples || decide (nHvs s.hw.variant ≤ k)) = true := by simp [hs, hk]
  unfold State.hvsSample
  rw [if_neg hgo, if_neg (by simp [hrun])]
  rw [← State.hvsTaken_eq]
  rfl

theorem State.hvsSample_of_stopped {s : State} {k : Nat} (hs : s.samples = true) (hrun : s.running = false)
    (hk : k < nHvs s.hw.variant) (code : Nat) :
    s.hvsSample k code = { s with hs := { s.hs with hvs := tmod {} s.hs.hvs k fun x => { x with code := min 4095 code } } } := by
  unfold State.hvsSample
  rw [if_neg (by simp [hs, hk]), if_pos (by simp [hrun])]

/-! ## The gate of channel HS and the input-loss comparator -/

theorem State.brkRise_of_held {s u : State} {held : Nat} (hrun : s.running = true) (hout : s.hs.brkOut = false)
    (hheld : fld s.hs.brk 16 4 + 1 ≤ held) (hu : u = { s.prior with hs := { s.prior.hs with brkOut := true } }) :
    s.brkRise held = if u.hsGate then (u.hsTrip u.now).settle u.now else u := by
  subst hu
  exact if_pos (by simp [hrun, hout, hheld])

/-- The gate that comes on ends a ride-through that has waited for it. -/
theorem State.gateUp_of_gate {s u : State} (hrun : s.running = true) (hgate : s.hsGate = true)
    (hu : u = { s.prior with
      hs := { s.prior.hs with gateOn := true }
      hld := if s.prior.hld.rideWait then
          { s.prior.hld with rideWait := false, isolated := false, cause := { s.prior.hld.cause with loss := false } }
        else s.prior.hld }) : s.gateUp = u.settle u.now := by
  subst hu
  unfold State.gateUp
  rw [if_pos (by simp [hrun, hgate])]
  cases hride : s.prior.hld.rideWait
  · simp only [hride, Bool.false_eq_true, if_false]
  · simp only [hride, if_true]

theorem State.vinLost_of_in {s p u w : State} (hcfg : s.configured = true) (hin : s.pwr.vinLoss = false) (hthr : s.vinThr ≠ 0)
    (hp : p = s.prior)
    (hu : u = { p with
      pwr := { p.pwr with vinLoss := true, lossAt := p.now, lossEnd := 0 }
      bbx := p.bbx.lossCut p.hw.variant p.now })
    (hw : w = (({ u with
      hld := { u.hld with cause := { u.hld.cause with loss := true }, isolated := true, rideWait := false }
      hs := { u.hs with gateOn := false } }).bbxTrigger 5 0xFFFF u.now).admission u.now []) :
    s.vinLost = if u.railsOff then u.settle u.now else (w.drainStart 1 w.now).settle w.now := by
  subst hw hu hp
  unfold State.vinLost
  exact if_neg (by simp [hcfg, hin, hthr])

/-- Settles O29. -/
theorem hotSwapCompletes : Obligations.HotSwapCompletes := by
  unfold Obligations.HotSwapCompletes
  refine ⟨fun s p u r w k code hs hrun hk hp hu hr hw => ?_, fun h k code _ => h.hvsTake_hvs k code, fun s k code hs hrun hk => ?_,
    fun s code hs => ?_, fun s u held hrun hout hheld hu => congrArg Host.Outcome.next (State.brkRise_of_held hrun hout hheld hu),
    fun s u t hat hlast hu hstill => ?_, fun s u hrun hgate hu => ?_,
    fun s p u w hcfg hin hthr hp hu hw => congrArg Host.Outcome.next (State.vinLost_of_in hcfg hin hthr hp hu hw),
    fun s u hloss hu => ?_, fun s hin => congrArg Host.Outcome.next (if_neg (by simp [hin]))⟩
  · subst hp
    exact congrArg Host.Outcome.next (State.hvsSample_of_running hs hrun hk code hu hr hw)
  · refine ⟨_, congrArg Host.Outcome.next (State.hvsSample_of_stopped hs hrun hk code), ?_, rfl, rfl⟩
    simp
  · exact ⟨_, congrArg Host.Outcome.next (if_pos hs), rfl, rfl, rfl, rfl, rfl⟩
  · exact congrArg Host.Outcome.next ((State.rowEnds_of_due hat hlast hu hstill).trans (State.runItem_of_early (by decide) HS t))
  · have hup := State.gateUp_of_gate hrun hgate hu
    exact ⟨congrArg Host.Outcome.next hup, by rw [← hup]; rfl⟩
  · subst hu
    exact congrArg Host.Outcome.next (if_pos hloss)

/-! ## Requests of the sequencer -/

/-- A request that is held is refused with BARRED; a latched one stays unless on requests are barred altogether. -/
theorem State.onReq_of_held {s : State} {src : Nat} (h : s.onHeld src = true) (stamp : Nat) (latched : Bool) :
    s.onReq src stamp latched = { s with seq := { s.seq with
      code := 3, onLatch := if s.onBarred then none else s.seq.onLatch, irq := Irq.set s.seq.irq 5 } } := by
  rw [State.onReq, if_pos h, State.onJudge, if_pos h]

theorem State.onReq_of_falling {s : State} {src stamp : Nat} (h : s.onHeld src = false) (hoff : s.offDue stamp = false)
    (hfall : s.falling = true) :
    (s.onReq src stamp).seq.code = 2 ∧ (s.onReq src stamp).seq.onLatch = some (s.seq.onLatch.getD src)
      ∧ (s.onReq src stamp).chans = s.chans := by
  simp [State.onReq, State.onJudge, State.onTake, h, hoff, hfall]

theorem State.onReq_of_offDue {s : State} {src stamp : Nat} (h : s.onHeld src = false) (hoff : s.offDue stamp = true) :
    s.onReq src stamp = { s with seq := { s.seq with onWait := s.seq.onWait ++ [(src, stamp)] } } := by
  simp [State.onReq, h, hoff]

theorem State.latchedOn_some {s : State} {src : Nat} (h : s.seq.onLatch = some src) (t : Nat) :
    s.latchedOn t = ({ s with seq := { s.seq with onLatch := none } }.onReq src t true).settle t := by
  simp only [State.latchedOn, h]

theorem State.seqCtl_of_low {s : State} {l : Level} (h : l.ge .operator = false) (on off : Bool) :
    s.seqCtl l on off = { s with seq := { s.seq with code := 4, irq := Irq.set s.seq.irq 5 } } :=
  if_pos (by simp [h])

theorem State.seqCtl_on {s : State} {l : Level} (h : l.ge .operator = true) :
    s.seqCtl l true false = (s.prior.onReq 0 s.now).settle s.now := by
  simp [State.seqCtl, h]

theorem State.seqCtl_off {s : State} {l : Level} (h : l.ge .operator = true) :
    s.seqCtl l false true =
      (({ s.prior with seq := { s.prior.seq with hostOffAt := some s.now } }).shutDown none 0 0 s.now []).settle s.now := by
  simp [State.seqCtl, h]

/-- Settles O30. -/
theorem sequencerRequestsComplete : Obligations.SequencerRequestsComplete := by
  unfold Obligations.SequencerRequestsComplete
  refine ⟨fun s l hw hl => congrArg Host.Outcome.next ((State.byHost_of_writer _ hw).trans (State.seqCtl_on hl)),
    fun s l hw hl => congrArg Host.Outcome.next ((State.byHost_of_writer _ hw).trans (State.seqCtl_off hl)),
    fun s l hw hl => ⟨congrArg Host.Outcome.next ((State.byHost_of_writer _ hw).trans (State.seqCtl_of_low hl _ _)),
      congrArg Host.Outcome.next ((State.byHost_of_writer _ hw).trans (State.seqCtl_of_low hl _ _))⟩,
    fun s src stamp latched h => ?_, fun s src stamp h hoff hfall => State.onReq_of_falling h hoff hfall,
    fun s src stamp h hoff => State.onReq_of_offDue h hoff, fun s p u t src hat hlast hp hstill hu hlatch => ?_,
    fun s l e r hses hup hready hrung hisl hlog => ?_, fun s l hw => ⟨_, exec_seqTlogClr_of_writer hw, rfl, rfl, rfl, rfl⟩,
    fun s l dis hw => ⟨_, congrArg Host.Outcome.next (State.byHost_of_writer _ hw), rfl, rfl, rfl⟩⟩
  · rw [State.onReq_of_held h]
    exact ⟨rfl, rfl, rfl, rfl⟩
  · subst hu
    exact congrArg Host.Outcome.next (((State.rowEnds_of_due hat hlast hp hstill).trans
      (State.runItem_of_late (by decide) HS t)).trans (State.latchedOn_some hlatch t))
  · exact ⟨_, exec_seqTlogRead_cons (by rw [hses]; rfl) hup hready hrung hisl hlog, rfl, rfl, rfl, rfl⟩

end Sys2Proof.Machine
end

section
/-! PROOFS. Timers of the sequencer; the PMBus host. -/

open Sys2Proof

namespace Sys2Proof.Machine

/-! ## Timers of the sequencer -/

/-- An item that has not come, or that something of its tick still goes before, is left. -/
theorem State.rowEnds_of_not_due {s : State} {k : SeqItem} {r : Nat} (h : ∀ t, s.itemAt k r = some t → s.lastOf t = false) :
    s.rowEnds k r = s := by
  unfold State.rowEnds
  split
  · rfl
  · next t ht => exact if_neg (by simp [h t ht])

/-- A due item that comes before the reactions: its own effect on the state that goes before it. -/
theorem State.rowEnds_of_early {s u : State} {k : SeqItem} {r t : Nat} (hk : k.rank < SeqItem.react.rank)
    (hat : s.itemAt k r = some t) (hlast : s.lastOf t = true) (hu : u = s.upTo t k.rank) (hstill : u.itemAt k r = some t) :
    s.rowEnds k r = u.doItem k r t :=
  (State.rowEnds_of_due hat hlast hu hstill).trans (State.runItem_of_early hk r t)

/-- A due item that does not come before the reactions: its tick is settled first. -/
theorem State.rowEnds_of_late {s p u : State} {k : SeqItem} {r t : Nat} (hk : SeqItem.react.rank ≤ k.rank)
    (hat : s.itemAt k r = some t) (hlast : s.lastOf t = true) (hp : p = s.upTo t k.rank) (hstill : p.itemAt k r = some t)
    (hu : u = p.settleTo t) : s.rowEnds k r = u.doItem k r t := by
  subst hu
  exact (State.rowEnds_of_due hat hlast hp hstill).trans (State.runItem_of_late hk r t)

/-- The end of a discharge that has timed out, told apart by the rail's retry. -/
theorem State.disEnds_eq (u : State) (n t : Nat) {v : State} (hv : v = (u.moveRail n .dischargeTimeout 7 t).chanEvent (8 * n + 5) t) :
    u.disEnds n t = (if (u.chan n).rail.retried then (v.retryFails n t).stopPass t else v.stopPass t).settle t := by
  subst hv
  cases h : (u.chan n).rail.retried <;> simp only [State.disEnds, h, if_true, Bool.false_eq_true, if_false]

/-- Settles O31. -/
theorem sequencerTimersComplete : Obligations.SequencerTimersComplete := by
  unfold Obligations.SequencerTimersComplete
  refine ⟨fun s p u r t hat hlast hp hstill hu => ?_, fun s p u r t hat hlast hp hstill hu => ?_,
    fun s u v r t hat hlast hu hstill hv => ?_, fun s u n t hat hlast hu hstill => ?_, fun s u v n t hat hlast hu hstill hv => ?_,
    fun s p u v n t hat hlast hp hstill hu hv => ?_, fun s p u n t hat hlast hp hstill hu => ?_, fun s r => ?_⟩
  · exact congrArg Host.Outcome.next (State.rowEnds_of_late (by decide) hat hlast hp hstill hu)
  · exact congrArg Host.Outcome.next (State.rowEnds_of_late (by decide) hat hlast hp hstill hu)
  · subst hv
    exact congrArg Host.Outcome.next (State.rowEnds_of_early (by decide) hat hlast hu hstill)
  · exact congrArg Host.Outcome.next (State.rowEnds_of_early (by decide) hat hlast hu hstill)
  · exact congrArg Host.Outcome.next ((State.rowEnds_of_early (by decide) hat hlast hu hstill).trans (State.disEnds_eq u n t hv))
  · subst hv
    exact congrArg Host.Outcome.next (State.rowEnds_of_late (by decide) hat hlast hp hstill hu)
  · exact congrArg Host.Outcome.next (State.rowEnds_of_late (by decide) hat hlast hp hstill hu)
  · exact ⟨fun h => congrArg Host.Outcome.next (State.rowEnds_of_not_due h),
      fun h => congrArg Host.Outcome.next (State.rowEnds_of_not_due h), fun h => congrArg Host.Outcome.next (State.rowEnds_of_not_due h),
      fun h => congrArg Host.Outcome.next (State.rowEnds_of_not_due h), fun h => congrArg Host.Outcome.next (State.rowEnds_of_not_due h),
      fun h => congrArg Host.Outcome.next (State.rowEnds_of_not_due h), fun h => congrArg Host.Outcome.next (State.rowEnds_of_not_due h)⟩

/-! ## The PMBus host -/

/-- The poll that follows one at `t`. -/
def Chan.pollAfter (c : Chan) (t : Nat) : Option Nat := some (t + fld c.ch.pmb 16 8 * tMs)

section
variable {s : State} {n t : Nat} (hrun : s.running = true) (hready : s.sys.phase = .ready) (huse : s.inUse n = true)
  (hnext : (s.chan n).sense.pollNext = some t) (ht : t ≤ s.now) (hdev : wbit (s.chan n).ch.cfg 11 = true)
  (hpoll : fld (s.chan n).ch.pmb 16 8 ≠ 0)
include hrun hready huse hnext ht hdev hpoll

/-- A poll whose channel has had its last one answered queues its four readings. -/
theorem State.pmbPoll_of_idle (hidle : (s.chan n).sense.polling = false) :
    s.pmbPoll n = { s.modChan n (fun c => { c with sense := { c.sense with pollNext := (s.chan n).pollAfter t, polling := true } }) with
      pmb := s.pmb.push ((List.range 4).map fun k => (s.chan n).pmbTxn (pmbReads.getD k 0) none (.poll n k)) s.now } := by
  simp only [State.pmbPoll, hnext, dueAt_some ht]
  rw [if_pos (by simp [hrun, hready, huse, hdev, hpoll]), if_neg (by simp [hidle])]
  rfl

/-- A poll whose channel still waits for its last one is skipped. -/
theorem State.pmbPoll_of_polling (hbusy : (s.chan n).sense.polling = true) :
    s.pmbPoll n = { s.modChan n (fun c => { c with sense := { c.sense with pollNext := (s.chan n).pollAfter t } }) with
      pmb := { s.pmb with skip := incTo 0xFF s.pmb.skip } } := by
  simp only [State.pmbPoll, hnext, dueAt_some ht]
  rw [if_pos (by simp [hrun, hready, huse, hdev, hpoll]), if_pos hbusy]
  rfl
end

theorem State.pmbPoll_of_off {s : State} {n : Nat} (h : fld (s.chan n).ch.pmb 16 8 = 0 ∨ wbit (s.chan n).ch.cfg 11 = false) :
    s.pmbPoll n = s := by
  unfold State.pmbPoll
  dsimp only
  split
  · exact if_neg (by rcases h with h | h <;> simp [h])
  · rfl

/-- Every failing end of a transaction is a failure of its kind. -/
theorem State.pmbEnds_of_fail {s : State} {x : PmbTxn} {e : PmbEnd} (he : e ≠ .ok) (hrun : s.running = true)
    (hcur : s.pmb.cur = some x) (hretry : s.pmb.retryAt = none) (data : Nat) : s.pmbEnds e data = s.pmbFail (pmbWhy e) := by
  cases e <;> simp_all [State.pmbEnds]

theorem State.pmbEnds_of_ok {s : State} {x : PmbTxn} (hrun : s.running = true) (hcur : s.pmb.cur = some x)
    (hretry : s.pmb.retryAt = none) (data : Nat) :
    s.pmbEnds .ok data = { s.pmbOk x data with pmb := (s.pmbOk x data).pmb.start (s.pmbOk x data).now } := by
  simp only [State.pmbEnds, hcur]
  exact if_neg (by simp [hretry, hrun])

/-- The first failure of a transaction has it tried again after 100 µs. -/
theorem State.pmbFail_of_first {s : State} {x : PmbTxn} (hcur : s.pmb.cur = some x) (hfirst : s.pmb.retried = false) (why : Nat) :
    s.pmbFail why = { s.tpAdd 2 0 0 1 with
      pmb := { s.pmb with cur := some x, nFail := incTo 0xFFFF s.pmb.nFail, retryAt := some (s.now + 100 * tUs) } } := by
  have hkept : (s.tpAdd 2 0 0 1).pmb.retried = false := hfirst
  simp only [State.pmbFail, hcur]
  rw [if_neg (by rw [hkept]; decide)]
  simp only [State.tpAdd, hcur, State.now]

/-- The second failure of a transaction gives it up. -/
theorem State.pmbFail_of_second {s u : State} {x : PmbTxn} (hcur : s.pmb.cur = some x) (hsecond : s.pmb.retried = true) {why : Nat}
    (hu : u = ({ s.tpAdd 2 0 0 1 with pmb := { s.pmb with nFail := incTo 0xFFFF s.pmb.nFail } }).pmbGiveUp x why) :
    s.pmbFail why = { u with pmb := u.pmb.start u.now } := by
  subst hu
  simp only [State.pmbFail, hcur]
  exact if_pos hsecond

theorem State.pmbAgain_of_due {s : State} {t : Nat} (hrun : s.running = true) (hretry : s.pmb.retryAt = some t) (ht : t ≤ s.now) :
    s.pmbAgain = { s with pmb := { s.pmb with retryAt := none, retried := true, startedAt := t } } := by
  simp only [State.pmbAgain, hretry, dueAt_some ht]
  exact if_pos hrun

/-- The transaction of a pass-through; only VOUT_COMMAND carries data. -/
def Pmb.passTxn (p : Pmb) (dev cmd : Nat) : PmbTxn :=
  { dev := dev, page := Config.passPage dev, cmd := cmd, data := if cmd = pmbVout then some p.data else none, use := .pass }

/-- A pass-through that the host may send is queued for its device. -/
theorem State.pmbGo_of_accepted {s : State} {l : Level} {dev cmd : Nat} (hl : l.ge .owner = true) (hbusy : s.pmb.busy = false)
    (hdev : dev < s.pmb.nDev)
    (hcmd : (pmbPassReads.contains cmd || cmd == pmbClear || (cmd == pmbVout && s.pmbQuiet dev)) = true) :
    s.pmbGo l dev cmd = { s with pmb := Pmb.push { s.pmb with code := 0, busy := true } [s.pmb.passTxn dev cmd] s.now } := by
  have hkind : (pmbPassReads.contains cmd || cmd == pmbClear || cmd == pmbVout) = true := by
    simp only [Bool.or_eq_true, Bool.and_eq_true] at hcmd ⊢
    exact hcmd.imp_right And.left
  have hquiet : ¬ (cmd = pmbVout ∧ (!s.pmbQuiet dev) = true) := by
    rintro ⟨rfl, hloud⟩
    have hread : pmbPassReads.contains pmbVout = false := by decide
    have hclear : (pmbVout == pmbClear) = false := by decide
    rw [hread, hclear, Bool.false_or, Bool.false_or, beq_self_eq_true, Bool.true_and] at hcmd
    rw [hcmd] at hloud
    cases hloud
  unfold State.pmbGo
  rw [if_neg (by simp [hl]), if_neg (by simp [hbusy]), if_neg (Nat.not_le.mpr hdev), if_neg (by rw [hkind]; decide), if_neg hquiet]
  rfl

/-- A pass-through that is refused records its code. -/
theorem State.pmbGo_of_refused {s : State} {l : Level} {dev cmd c : Nat}
    (hc : c = (if !l.ge .owner then 1 else if s.pmb.busy then 2 else if s.pmb.nDev ≤ dev then 4
      else if !(pmbPassReads.contains cmd || cmd == pmbClear || cmd == pmbVout) then 3
      else if cmd = pmbVout ∧ !s.pmbQuiet dev then 5 else 0)) (h0 : c ≠ 0) :
    s.pmbGo l dev cmd = { s with pmb := { s.pmb with code := c } } := by
  subst hc
  unfold State.pmbGo
  (repeat' split) <;> simp_all

/-- Settles O32. -/
theorem pmbusCompletes : Obligations.PmbusCompletes := by
  unfold Obligations.PmbusCompletes
  refine ⟨fun s n t hrun hready huse hnext ht hdev hpoll hidle => ?_, fun s n h => congrArg Host.Outcome.next (State.pmbPoll_of_off h),
    fun s n t hrun hready huse hnext ht hdev hpoll hbusy => ?_, fun s u x data hrun hcur hretry hu => ?_,
    fun s x e data he hrun hcur hretry hfirst => ?_, fun s u x e data he hrun hcur hretry hsecond hu => ?_,
    fun s t hrun hretry ht => ⟨_, congrArg Host.Outcome.next (State.pmbAgain_of_due hrun hretry ht), rfl, rfl, rfl, rfl, rfl⟩,
    fun s hrun hretry hcur hlate => congrArg Host.Outcome.next (if_pos (by simp [hrun, hretry, hcur, tMs, hlate])),
    fun s l dev cmd hw hl hbusy hdev hcmd => ?_, fun s l dev cmd c hw hc h0 => ?_⟩
  · refine ⟨_, congrArg Host.Outcome.next (State.pmbPoll_of_idle hrun hready huse hnext ht hdev hpoll hidle), ?_, ?_, ?_, rfl, rfl⟩
    all_goals simp [State.chan, State.modChan, Chan.pollAfter]
  · refine ⟨_, congrArg Host.Outcome.next (State.pmbPoll_of_polling hrun hready huse hnext ht hdev hpoll hbusy), ?_, rfl, rfl⟩
    simpa [State.chan, State.modChan] using hbusy
  · subst hu
    exact congrArg Host.Outcome.next (State.pmbEnds_of_ok hrun hcur hretry data.toNat)
  · exact ⟨_, congrArg Host.Outcome.next ((State.pmbEnds_of_fail he hrun hcur hretry _).trans (State.pmbFail_of_first hcur hfirst _)),
      rfl, rfl, rfl, rfl⟩
  · exact congrArg Host.Outcome.next ((State.pmbEnds_of_fail he hrun hcur hretry _).trans (State.pmbFail_of_second hcur hsecond hu))
  · exact ⟨_, congrArg Host.Outcome.next ((State.byHost_of_writer _ hw).trans (State.pmbGo_of_accepted hl hbusy hdev hcmd)),
      rfl, rfl, rfl⟩
  · exact congrArg Host.Outcome.next ((State.byHost_of_writer _ hw).trans (State.pmbGo_of_refused hc h0))

end Sys2Proof.Machine
end

section
/-! PROOFS. Margin requests: each command of CH_MGN_CTRL, accepted and refused. -/

open Sys2Proof

namespace Sys2Proof.Machine

/-! ## What an accepted request does to its channel -/

theorem State.count_chan (s : State) (n e m : Nat) : (s.count n e).chan m = s.chan m := rfl

/-- A channel that returns keeps its rail. -/
theorem Chan.toReturn_mgn (c : Chan) (code stamp : Nat) :
    (c.toReturn code stamp).rail = c.rail ∧ (c.toReturn code stamp).mgn.code = code
      ∧ (c.toReturn code stamp).mgn.st = if c.mode ≠ 3 ∧ c.sense.trim = 0 then .nominal else .returning := by
  unfold Chan.toReturn
  split <;> exact ⟨rfl, rfl, rfl⟩

/-- The walk of OLCODE has its end within CODE_MAX, at the requested code where that lies within. -/
theorem Chan.walkTo_goal (c : Chan) (code : Int) (stamp : Nat) :
    ((c.walkTo code stamp).mgn.goal.natAbs : Int) ≤ c.codeMax
      ∧ ((code.natAbs : Int) ≤ c.codeMax → (c.walkTo code stamp).mgn.goal = code) := by
  have hmax : 0 ≤ c.codeMax := Int.natCast_nonneg _
  simp only [Chan.walkTo]
  constructor
  · split <;> [skip; split] <;> omega
  · intro hin
    split <;> [skip; split] <;> omega

theorem State.mgnReturn_chan (s : State) (n code stamp : Nat) : (s.mgnReturn n code stamp).chan n = (s.chan n).toReturn code stamp := by
  unfold State.mgnReturn
  dsimp only
  split
  · exact State.modChan_chan s n fun c => c.toReturn code stamp
  · exact State.modChan_chan s n fun c => c.toReturn code stamp

theorem State.mgnReturn_flt_seq (s : State) (n code stamp : Nat) :
    (s.mgnReturn n code stamp).flt = s.flt ∧ (s.mgnReturn n code stamp).seq = s.seq := by
  unfold State.mgnReturn
  dsimp only
  split <;> exact ⟨rfl, rfl⟩

/-- A move to a target: the channel takes it, and in PMBUS mode the bus carries it. -/
theorem State.mgnAct_move {cmd : Nat} (h0 : cmd ≠ 0) (h4 : cmd ≠ 4) (s : State) (n : Nat) (pct code : Int) (stamp : Nat) :
    (s.mgnAct n cmd pct code stamp).chan n = (s.chan n).moveTo pct stamp
      ∧ (s.mgnAct n cmd pct code stamp).flt = s.flt ∧ (s.mgnAct n cmd pct code stamp).seq = s.seq := by
  unfold State.mgnAct
  split
  · contradiction
  · contradiction
  · dsimp only
    split
    · exact ⟨State.modChan_chan s n fun c => c.moveTo pct stamp, rfl, rfl⟩
    · exact ⟨State.modChan_chan s n fun c => c.moveTo pct stamp, rfl, rfl⟩

/-- What a request that R191 accepts does to its channel, apart from its own marks. -/
theorem State.mgnReq_of_accepted {s : State} {n cmd : Nat} {l : Level} (huse : s.inUse n = true)
    (hok : s.mgnRefusal n cmd l false = 0) (pct code : Int) {a t : State} (ha : a = s.mgnAct n cmd pct code s.now)
    (ht : t = s.mgnReq n cmd pct code l) :
    (t.chan n).mgn = { (a.chan n).mgn with reqAt := if cmd = 0 then (a.chan n).mgn.reqAt else some s.now }
      ∧ (t.chan n).sense = (a.chan n).sense ∧ (t.chan n).rail = (a.chan n).rail ∧ t.flt = a.flt ∧ t.seq = a.seq := by
  subst ha ht
  have hreq : s.mgnReq n cmd pct code l = (s.mgnAct n cmd pct code s.now).modChan n fun c => { c with
      mgn := { c.mgn with reqAt := if cmd = 0 then c.mgn.reqAt else some s.now }
      prb := if (s.chan n).prb.phase == .baseline && !(c.mgn.st == .nominal) then { c.prb with phase := .idle, outcome := 8 }
        else c.prb } := by
    unfold State.mgnReq
    rw [if_neg (by simp [huse]), hok]
    rfl
  rw [hreq, State.modChan_chan]
  exact ⟨rfl, rfl, rfl, rfl, rfl⟩

/-- A request that R191 refuses leaves its code and moves nothing. -/
theorem State.mgnReq_of_refused {s : State} {n cmd r : Nat} {l : Level} (huse : s.inUse n = true)
    (hr : s.mgnRefusal n cmd l false = r) (h0 : r ≠ 0) (pct code : Int) :
    s.mgnReq n cmd pct code l =
      s.modChan n fun c => { c with mgn := { c.mgn with code := r, irq := Irq.set c.mgn.irq 2 } } := by
  obtain ⟨k, rfl⟩ := Nat.exists_eq_succ_of_ne_zero h0
  unfold State.mgnReq
  rw [if_neg (by simp [huse]), hr]
  rfl

/-- The write of CH_MGN_CTRL by a session on a channel in use. -/
theorem State.mgnWrite_of_writer {s : State} {l : Level} {n : Nat} (hw : s.writer (chReg n 0x88) .user = some l)
    (huse : s.inUse n = true) (cmd : Nat) (pct code : Int) : s.mgnWrite n cmd pct code = (s.chTouch n).mgnReq n cmd pct code l :=
  State.chHost_of_writer _ hw huse

theorem State.chTouch_inUse {s : State} {n : Nat} (huse : s.inUse n = true) : (s.chTouch n).inUse n = true := by
  rw [State.inUse, State.chTouch_chan]
  exact huse

/-- HIGH, LOW and TARGET: the channel moves to the clamped code of the percentage. -/
theorem State.mgnWrite_move {s : State} {l : Level} {n cmd : Nat} (h0 : cmd ≠ 0) (h4 : cmd ≠ 4)
    (hw : s.writer (chReg n 0x88) .user = some l) (huse : s.inUse n = true) (hok : (s.chTouch n).mgnRefusal n cmd l false = 0)
    (pct code : Int) {t : State} (ht : t = s.mgnWrite n cmd pct code) :
    (t.chan n).mgn.st = .moving ∧ (t.chan n).mgn.code = 0
      ∧ (t.chan n).mgn.target = ((s.chan n).clampCode ((s.chan n).pctCode pct)).1.toNat
      ∧ (t.chan n).rail = (s.chan n).rail ∧ t.flt = s.flt ∧ t.seq = s.seq := by
  rw [State.mgnWrite_of_writer hw huse] at ht
  obtain ⟨hmgn, -, hrail, hflt, hseq⟩ := State.mgnReq_of_accepted (State.chTouch_inUse huse) hok pct code rfl ht
  obtain ⟨hchan, haflt, haseq⟩ := State.mgnAct_move h0 h4 (s.chTouch n) n pct code (s.chTouch n).now
  rw [hmgn, hrail, hflt, hseq, hchan, haflt, haseq, State.chTouch_chan]
  exact ⟨rfl, rfl, rfl, rfl, rfl, rfl⟩

/-- NOMINAL: the channel returns unless MARGIN_LIMIT comes on its tick. -/
theorem State.mgnAct_nominal (s : State) (n : Nat) (pct code : Int) (stamp : Nat) :
    s.mgnAct n 0 pct code stamp = if s.limitNow n then s
      else if (s.chan n).mgn.st == .nominal then s.modChan n fun c => { c with mgn := { c.mgn with code := 0 } }
      else s.mgnReturn n 0 stamp := rfl

theorem State.mgnAct_nominal_frame (s : State) (n : Nat) (pct code : Int) (stamp : Nat) :
    ((s.mgnAct n 0 pct code stamp).chan n).rail = (s.chan n).rail ∧ (s.mgnAct n 0 pct code stamp).flt = s.flt
      ∧ (s.mgnAct n 0 pct code stamp).seq = s.seq := by
  rw [State.mgnAct_nominal]
  split <;> [skip; split] <;> simp [State.mgnReturn_chan, Chan.toReturn_mgn, State.mgnReturn_flt_seq]

/-- The state NOMINAL leaves its channel in. -/
theorem State.mgnAct_nominal_mgn {s : State} {n : Nat} (hlimit : s.limitNow n = false) (pct code : Int) (stamp : Nat) :
    ((s.mgnAct n 0 pct code stamp).chan n).mgn.code = 0
      ∧ ((s.chan n).mgn.st = .nominal → ((s.mgnAct n 0 pct code stamp).chan n).mgn.st = .nominal)
      ∧ ((s.chan n).mgn.st ≠ .nominal → ((s.mgnAct n 0 pct code stamp).chan n).mgn.st =
          if (s.chan n).mode ≠ 3 ∧ (s.chan n).sense.trim = 0 then .nominal else .returning) := by
  rw [State.mgnAct_nominal, if_neg (by simp [hlimit])]
  by_cases hst : (s.chan n).mgn.st = .nominal
  · rw [if_pos (by simp [hst])]
    simp [hst]
  · rw [if_neg (by simp [hst]), State.mgnReturn_chan]
    exact ⟨(Chan.toReturn_mgn _ 0 stamp).2.1, fun h => absurd h hst, fun _ => (Chan.toReturn_mgn _ 0 stamp).2.2⟩

/-- Settles O33. -/
theorem marginRequestsComplete : Obligations.MarginRequestsComplete := by
  unfold Obligations.MarginRequestsComplete
  refine ⟨fun s l n hw huse hok => ?_, fun s l n hw huse hok => ?_, fun s l n hw huse hok => ?_, fun s l n pct hw huse hok => ?_,
    fun s l n code hw huse hok => ?_, fun s t l n cmd r pct code hw huse hcmd hr h0 ht => ?_⟩
  · refine ⟨_, congrArg Host.Outcome.next (State.mgnWrite_of_writer hw huse 0 0 0), ?_⟩
    obtain ⟨hmgn, -, hrail, hflt, hseq⟩ := State.mgnReq_of_accepted (State.chTouch_inUse huse) hok 0 0 rfl rfl
    obtain ⟨harail, haflt, haseq⟩ := State.mgnAct_nominal_frame (s.chTouch n) n 0 0 (s.chTouch n).now
    rw [hmgn, hrail, hflt, hseq, harail, haflt, haseq]
    refine ⟨by rw [State.chTouch_chan], rfl, rfl, fun hlimit => ?_, fun hlimit => ?_⟩
    · rw [State.mgnAct_nominal, if_pos hlimit, State.chTouch_chan]
      rfl
    · have hmoved := State.mgnAct_nominal_mgn hlimit 0 0 (s.chTouch n).now
      simp only [State.chTouch_chan] at hmoved
      exact hmoved
  · exact ⟨_, rfl, State.mgnWrite_move (by decide) (by decide) hw huse hok _ _ rfl⟩
  · exact ⟨_, rfl, State.mgnWrite_move (by decide) (by decide) hw huse hok _ _ rfl⟩
  · exact ⟨_, rfl, State.mgnWrite_move (by decide) (by decide) hw huse hok _ _ rfl⟩
  · refine ⟨_, congrArg Host.Outcome.next (State.mgnWrite_of_writer hw huse 4 0 _), ?_⟩
    obtain ⟨hmgn, hsense, hrail, hflt, hseq⟩ :=
      State.mgnReq_of_accepted (State.chTouch_inUse huse) hok 0 (sgn 10 code.toNat) rfl rfl
    have hchan : ((s.chTouch n).mgnAct n 4 0 (sgn 10 code.toNat) (s.chTouch n).now).chan n
        = ((s.chTouch n).chan n).walkTo (sgn 10 code.toNat) (s.chTouch n).now :=
      State.modChan_chan (s.chTouch n) n fun c => c.walkTo (sgn 10 code.toNat) (s.chTouch n).now
    rw [hmgn, hsense, hrail, hflt, hseq, hchan, State.chTouch_chan]
    obtain ⟨hmax, hgoal⟩ := (s.chan n).walkTo_goal (sgn 10 code.toNat) s.now
    exact ⟨rfl, rfl, hmax, hgoal, rfl, rfl, rfl⟩
  · have hreq (pct code : Int) := State.mgnReq_of_refused (State.chTouch_inUse huse) hr h0 pct code
    have hwrite (pct code : Int) := (State.mgnWrite_of_writer hw huse cmd pct code).trans (hreq pct code)
    have hnext : t = (s.chTouch n).modChan n fun c => { c with mgn := { c.mgn with code := r, irq := Irq.set c.mgn.irq 2 } } := by
      match cmd, hcmd, hwrite, ht with
      | 0, _, hwrite, ht => exact (Host.Outcome.next.inj ht).symm.trans (hwrite _ _)
      | 1, _, hwrite, ht => exact (Host.Outcome.next.inj ht).symm.trans (hwrite _ _)
      | 2, _, hwrite, ht => exact (Host.Outcome.next.inj ht).symm.trans (hwrite _ _)
      | 3, _, hwrite, ht => exact (Host.Outcome.next.inj ht).symm.trans (hwrite _ _)
      | 4, _, hwrite, ht => exact (Host.Outcome.next.inj ht).symm.trans (hwrite _ _)
    rw [hnext, State.modChan_chan, State.chTouch_chan]
    exact ⟨rfl, rfl, rfl, rfl, rfl⟩

end Sys2Proof.Machine
end

section
/-! PROOFS. The engines of margining: servo, walk, campaign. -/

open Sys2Proof

namespace Sys2Proof.Machine

/-! ## Servo and walk -/

theorem State.servoDue_of_due {s : State} {n : Nat} (hruns : s.chanRuns n = true) (hmode : (s.chan n).mode = 2)
    (hst : (s.chan n).mgn.st = .moving ∨ (s.chan n).mgn.st = .held) (hat : (s.chan n).mgn.nextAt ≤ s.now) :
    s.servoDue n = (s.servo n (s.chan n).mgn.nextAt).settle (s.chan n).mgn.nextAt :=
  if_pos (by rcases hst with h | h <;> simp [hruns, hmode, h, hat])

/-- A walk back to 0 takes a step; at 0 TRIM is released and the margin and the probe go on. -/
theorem State.walkDue_back {s : State} {n : Nat} (hruns : s.chanRuns n = true) (hat : (s.chan n).mgn.nextAt ≤ s.now)
    (hback : ((s.chan n).mgn.st = .returning ∧ (s.chan n).mode ≠ 3) ∨ (s.chan n).prb.phase = .ret) :
    s.walkDue n = s.modChan n fun c => c.walkBack (s.chan n).mgn.nextAt := by
  unfold State.walkDue
  rw [if_pos (by simp [hruns, hat])]
  exact if_pos (by simpa using hback)

/-- The walk of OLCODE takes a step. -/
theorem State.walkDue_on {s : State} {n : Nat} (hruns : s.chanRuns n = true) (hat : (s.chan n).mgn.nextAt ≤ s.now)
    (hst : (s.chan n).mgn.st = .moving) (hmode : (s.chan n).mode = 1) (hprb : (s.chan n).prb.phase ≠ .ret) :
    s.walkDue n = s.modChan n fun c => c.walkOn (s.chan n).mgn.nextAt := by
  unfold State.walkDue
  rw [if_pos (by simp [hruns, hat]), if_neg (by simp [hst, hprb])]
  exact if_pos (by simp [hst, hmode])

/-! ## The campaign -/

/-- The campaign that a host's request begins. -/
def Camp.issued (c : Camp) (corner : Nat) (abort : Bool) : Camp :=
  { c with
    code := 0, busy := true, done := false, corner := corner, aborted := false, abort := abort
    nPass := 0, nFail := 0, counted := [], first := 0 }

theorem State.campGo_of_accepted {s : State} {corner : Nat} (h3 : corner ≠ 3) (hstrap : s.sys.strap = true)
    (hbusy : s.camp.isBusy = false) (hlate : s.now + 500 ≤ s.camp.at_) (hfar : s.camp.at_ ≤ s.now + 0x1000000) (abort : Bool) :
    s.campGo corner abort = { s with camp := s.camp.issued corner abort }.campIssue corner s.camp.at_ abort := by
  unfold State.campGo
  rw [if_neg (by simp [hstrap]), if_neg (by simp [hbusy]), if_neg (Nat.not_lt.mpr hlate), if_neg (Nat.not_lt.mpr hfar), if_neg h3]
  rfl

theorem State.campGo_of_refused {s : State} {c : Nat}
    (hc : c = (if s.sys.strap = false then 4 else if s.camp.isBusy then 1 else if s.camp.at_ < s.now + 500 then 2
      else if s.now + 0x1000000 < s.camp.at_ then 3 else 0)) (h0 : c ≠ 0) (corner : Nat) (abort : Bool) :
    s.campGo corner abort = { s with camp := { s.camp with code := c } } := by
  subst hc
  unfold State.campGo
  cases hstrap : s.sys.strap
  · rfl
  · simp only [hstrap, Bool.true_eq_false, if_false] at h0 ⊢
    (repeat' split) <;> simp_all

theorem State.cornerTick_of_due {s u : State} {t corner : Nat} (hdue : s.camp.cornerDue s.now = some (t, corner))
    (hrun : s.running = true) (hu : u = { s with camp := { s.camp with
      pendAt := s.camp.pendAt.erase (t, corner), reportAt := s.camp.reportAt ++ [t + 200000] } }) :
    s.cornerTick = (u.members.foldl (fun v n => v.cornerOn corner t n) u).settle t := by
  subst hu
  simp only [State.cornerTick, hdue]
  exact if_pos hrun

theorem State.campReport_of_due {s w : State} {t : Nat} {bad : List Nat}
    (hdue : (s.camp.reportAt.find? fun t => decide (t ≤ s.now)) = some t) (hrun : s.running = true)
    (hbad : bad = s.members.filter fun n => decide ((s.chan n).mgn.why ≠ 0))
    (hw : w = { s with camp := { s.camp with
      reportAt := s.camp.reportAt.erase t, nMember := s.members.length, nmPass := s.members.length - bad.length
      nmFail := bad.length } }) :
    s.campReport = if s.sys.strap then
        w.campCount 0 (!bad.isEmpty) (bad.headD 0) (if bad.isEmpty then 0 else (s.chan (bad.headD 0)).mgn.why) t
      else w.casUp (.mgnRep s.cas.addr s.members.length (s.members.length - bad.length) bad.length (bad.headD 0)
        (if bad.isEmpty then 0 else (s.chan (bad.headD 0)).mgn.why)) := by
  subst hw hbad
  simp only [State.campReport, hdue]
  exact if_neg (by simp [hrun])

/-- Settles O34. -/
theorem marginEnginesComplete : Obligations.MarginEnginesComplete := by
  unfold Obligations.MarginEnginesComplete
  refine ⟨fun s n hruns hmode hst hat => ?_, fun s n x hruns hat hback hx => ?_, fun s n x hruns hat hst hmode hprb hx => ?_,
    fun s l corner abort hw h3 hstrap hbusy hlate hfar => ?_, fun s l corner abort c hw hc h0 => ?_,
    fun s u t corner hdue hrun hu => congrArg Host.Outcome.next (State.cornerTick_of_due hdue hrun hu),
    fun s w t bad hdone hdue hrun hbad hw => ?_, fun s hdone => congrArg Host.Outcome.next (if_neg (by simp [hdone]))⟩
  · show Host.Outcome.next (if s.applyQueued n then s else s.servoDue n) = _
    rw [State.servoDue_of_due hruns hmode hst hat]
  · refine ⟨_, congrArg Host.Outcome.next (State.walkDue_back hruns hat hback), ?_⟩
    subst hx
    simp [Chan.walkBack, and_assoc]
  · refine ⟨_, congrArg Host.Outcome.next (State.walkDue_on hruns hat hst hmode hprb), ?_⟩
    subst hx
    simp [Chan.walkOn]
  · have hcorner : corner.toNat ≠ 3 := fun h => h3 (BitVec.eq_of_toNat_eq h)
    exact ⟨_, congrArg Host.Outcome.next ((State.byHost_of_writer _ hw).trans
      (State.campGo_of_accepted hcorner hstrap hbusy hlate hfar abort)), rfl, rfl, rfl, rfl, rfl, rfl, rfl, rfl⟩
  · exact congrArg Host.Outcome.next ((State.byHost_of_writer _ hw).trans (State.campGo_of_refused hc h0 _ _))
  · exact congrArg Host.Outcome.next ((if_pos hdone).trans (State.campReport_of_due hdue hrun hbad hw))

end Sys2Proof.Machine
end

section
/-! PROOFS. The probe: requests, phases and the fit. -/

open Sys2Proof

namespace Sys2Proof.Machine

/-! ## Requests and phases -/

theorem State.modPrb_chan (s : State) (n : Nat) (f : Probe → Probe) :
    (s.modPrb n f).chan n = { s.chan n with prb := f (s.chan n).prb } := State.modChan_chan s n _

theorem State.record_chan (s : State) (cls typ arg stamp : Nat) (parts : List (Nat × List Byte)) (m : Nat) :
    (s.record cls typ arg stamp parts).chan m = s.chan m := by
  rw [State.chan, State.chan, (s.record_tabs cls typ arg stamp parts).1]

/-- GO of a channel whose probe is idle: the probe is queued, or refused with its code. -/
theorem State.prbReq_of_idle {s : State} {n : Nat} {l : Level} (hl : l.ge .operator = true) (huse : s.inUse n = true)
    (hidle : (s.chan n).prb.phase = .idle) :
    s.prbReq n l = s.modPrb n fun p =>
      { p with phase := if s.prbRefusal n = 0 then .queued else p.phase, outcome := s.prbRefusal n } := by
  unfold State.prbReq
  rw [if_neg (by simp [huse]), if_neg (by simp [hl]), if_neg (by simp [hidle])]
  cases hr : s.prbRefusal n
  · rfl
  · rfl

theorem State.prbReq_of_low {s : State} {n : Nat} {l : Level} (hl : l.ge .operator = false) (huse : s.inUse n = true) :
    s.prbReq n l = s.modPrb n fun p => { p with outcome := 9 } := by
  unfold State.prbReq
  rw [if_neg (by simp [huse]), if_pos (by simp [hl])]

theorem State.prbReset_of_owner {s : State} {n : Nat} (huse : s.inUse n = true) :
    s.prbReset n .owner = (s.modPrb n fun p => { p with base := [] }).record 2 0x0B n s.now [(16, leBytes 4 s.env.hours)] := by
  unfold State.prbReset
  rw [if_neg (by simp [huse])]
  rfl

theorem State.prbReset_of_other {s : State} {n : Nat} {l : Level} (hl : l ≠ .owner) (huse : s.inUse n = true) :
    s.prbReset n l = s.modPrb n fun p => { p with outcome := 9 } := by
  unfold State.prbReset
  rw [if_neg (by simp [huse]), if_pos (by simp [hl])]

/-- The lowest queued probe begins its baseline, or is refused with its code. -/
theorem State.prbStart_of_queued {s : State} {n : Nat} (hrun : s.running = true) (hbusy : s.prbBusy = false)
    (hfirst : (s.rails.find? fun m => s.inUse m && (s.chan m).prb.phase == .queued) = some n) :
    (s.prbRefusal n = 0 → s.prbStart = s.modPrb n fun p => { p with
        phase := .baseline, phaseEnd := s.now + 256 * tUs, baseV := [], baseI := [], recV := [], recI := [], aborting := false }) ∧
      (s.prbRefusal n ≠ 0 → s.prbStart = s.modPrb n fun p => { p with phase := .idle, outcome := s.prbRefusal n }) := by
  unfold State.prbStart
  rw [if_neg (by simp [hrun, hbusy])]
  simp only [hfirst]
  cases hr : s.prbRefusal n
  · exact ⟨fun _ => rfl, fun h => absurd rfl h⟩
  · exact ⟨nofun, fun _ => rfl⟩

theorem State.prbStep_of_end {s : State} {n : Nat} (hin : s.prbIn .baseline = some n) (hat : (s.chan n).prb.phaseEnd ≤ s.now)
    (hrun : s.running = true) :
    s.prbStep = s.modChan n fun c => { c with
      sense := { c.sense with trim := c.prbCode, trimOn := true }
      prb := { c.prb with phase := .step, phaseEnd := (s.chan n).prb.phaseEnd + 2000 * tUs } } := by
  simp only [State.prbStep, hin]
  exact if_pos ⟨hat, hrun⟩

theorem State.prbReturn_of_end {s : State} {n : Nat} (hin : s.prbIn .step = some n) (hat : (s.chan n).prb.phaseEnd ≤ s.now)
    (hrun : s.running = true) :
    s.prbReturn = s.modChan n fun c => { c with
      prb := { c.prb with phase := .ret, deltaV := (meanOf 256 c.prb.recV : Int) - (meanOf 256 c.prb.baseV : Int) }
      mgn := { c.mgn with nextAt := (s.chan n).prb.phaseEnd + c.walk } } := by
  simp only [State.prbReturn, hin]
  exact if_pos ⟨hat, hrun⟩

/-! ## The fit -/

/-- The result of a fit: the crossover, the impedance, the phase margin and the quality, each brought to its range. -/
structure FitResult where
  fc : Nat
  zout : Nat
  pm : Nat
  quality : Nat

/-- The result from the crossover and the quality brought to their ranges. -/
def Chan.fitResult (c : Chan) (fc zeta qeff fq : Nat) : FitResult :=
  { fc := fc, zout := c.loopZ fc qeff, pm := loopMargin zeta, quality := fq }

/-- A fit that stands against a full baseline and lies outside its limits. -/
def Chan.fitFails (c : Chan) (x : FitResult) : Bool :=
  decide (c.prb.base.length = 4) && c.prbFails x.zout x.fc x.pm

/-- The row of anomalies after a fit. -/
def Chan.fitAnom (c : Chan) (x : FitResult) : Nat :=
  if c.prbOutcome x.quality ≠ 1 ∨ !decide (c.prb.base.length = 4) then c.prb.anom
  else if c.fitFails x then incTo 7 c.prb.anom else 0

/-- A fit completes a row of ANOM_N anomalies. -/
def Chan.fitRaised (c : Chan) (x : FitResult) : Bool :=
  decide (c.prbOutcome x.quality = 1) && c.fitFails x && decide (fld c.ch.prbCfg 10 3 ≠ 0)
    && decide (fld c.ch.prbCfg 10 3 ≤ c.fitAnom x)

/-- The probe after a fit, on the hour `hours`. -/
def Chan.fitPrb (c : Chan) (x : FitResult) (hours : Nat) : Probe :=
  { c.prb with
    phase := .idle, outcome := c.prbOutcome x.quality, fc := x.fc, pm := x.pm, zout := x.zout, fitQ := x.quality
    dv := c.prb.deltaV.natAbs
    anom := if c.fitRaised x then 0 else c.fitAnom x
    nqual := if c.prbOutcome x.quality = 1 then incTo 0xFFFF c.prb.nqual else c.prb.nqual
    base := if c.prbOutcome x.quality = 1 ∧ !decide (c.prb.base.length = 4) then c.prb.base ++ [(x.zout, x.fc, x.pm)] else c.prb.base
    lastHours := if c.prbOutcome x.quality = 1 then hours else c.prb.lastHours
    baseV := [], baseI := [], recV := [], recI := [] }

/-- The state in which a fit ends, without the event of a completed row of anomalies. -/
def State.fitEnded (s : State) (n : Nat) (x : FitResult) : State :=
  let p := (s.chan n).fitPrb x s.env.hours
  let irq := Irq.set (if (s.chan n).fitRaised x then Irq.set (s.chan n).mgn.irq 5 else (s.chan n).mgn.irq) 3
  let t := s.modChan n fun c => { c with prb := p, mgn := { c.mgn with irq := irq } }
  if (s.chan n).prbOutcome x.quality = 1 then (t.count n 0x31).record 2 0x09 n t.now (t.trendParts p) else t

theorem State.fitEnded_chan (s : State) (n : Nat) (x : FitResult) :
    ((s.fitEnded n x).chan n).prb = (s.chan n).fitPrb x s.env.hours ∧ ((s.fitEnded n x).chan n).rail = (s.chan n).rail := by
  unfold State.fitEnded
  dsimp only
  split
  · rw [State.record_chan, State.count_chan, State.modChan_chan]
    exact ⟨rfl, rfl⟩
  · rw [State.modChan_chan]
    exact ⟨rfl, rfl⟩

/-- The fit of channel `n`: its result is stored, and a completed row of anomalies raises the channel's event. -/
theorem State.prbFit_eq {s : State} {n wn zeta qeff fitQ fc fq : Nat} (hin : s.prbIn .fit = some n)
    (hfc : fc = if loopCross wn zeta < 100 then 100 else if 10000 < loopCross wn zeta then 10000 else loopCross wn zeta)
    (hfq : fq = if fc = loopCross wn zeta then min 255 fitQ else min 63 fitQ) {x : FitResult}
    (hx : x = (s.chan n).fitResult fc zeta qeff fq) {u : State}
    (hu : u = s.fitEnded n x) :
    s.prbFit wn zeta qeff fitQ =
      if (s.chan n).fitRaised x then (u.chanEvent (8 * n + 7) u.now).settle u.now else u := by
  subst hu hx hfq hfc
  simp only [State.prbFit, hin]
  rfl

theorem exec_probeFitDone {s : State} (hrun : s.running = true) (wn zeta qeff fitQ : Nat) :
    exec (.probeFitDone wn zeta qeff fitQ) s = .next (s.prior.prbFit wn zeta qeff fitQ) :=
  congrArg Host.Outcome.next (if_pos hrun)

/-- A fit without a full baseline, or without success, completes no row of anomalies. -/
theorem Chan.fitRaised_of_untested {c : Chan} {x : FitResult} (h : c.prb.base.length ≠ 4 ∨ c.prbOutcome x.quality ≠ 1) :
    c.fitRaised x = false := by
  rcases h with h | h <;> simp [Chan.fitRaised, Chan.fitFails, h]

/-- A successful fit joins a baseline that is not full. -/
theorem Chan.fitPrb_base_of_untested {c : Chan} {x : FitResult} (h : c.prb.base.length ≠ 4 ∨ c.prbOutcome x.quality ≠ 1)
    (hours : Nat) : (c.fitPrb x hours).base =
      if c.prbOutcome x.quality = 1 then c.prb.base ++ [(x.zout, x.fc, x.pm)] else c.prb.base := by
  rcases h with h | h <;> simp [Chan.fitPrb, h]

section
variable {c : Chan} {x : FitResult} (hfull : c.prb.base.length = 4) (hout : c.prbOutcome x.quality = 1)
include hfull hout

/-- A fit within its limits ends the row of anomalies. -/
theorem Chan.fitPrb_of_within (hin : c.prbFails x.zout x.fc x.pm = false) (hours : Nat) :
    (c.fitPrb x hours).anom = 0 ∧ c.fitRaised x = false := by
  simp [Chan.fitPrb, Chan.fitRaised, Chan.fitAnom, Chan.fitFails, hfull, hout, hin]

/-- The anomaly that completes the row of ANOM_N raises and begins the row anew. -/
theorem Chan.fitPrb_of_row (hfail : c.prbFails x.zout x.fc x.pm = true) (hn : fld c.ch.prbCfg 10 3 ≠ 0)
    (hrow : fld c.ch.prbCfg 10 3 ≤ incTo 7 c.prb.anom) (hours : Nat) :
    (c.fitPrb x hours).anom = 0 ∧ c.fitRaised x = true := by
  simp [Chan.fitPrb, Chan.fitRaised, Chan.fitAnom, Chan.fitFails, hfull, hout, hfail, hn, hrow]

/-- An anomaly that completes no row is counted. -/
theorem Chan.fitPrb_of_counted (hfail : c.prbFails x.zout x.fc x.pm = true)
    (hrow : fld c.ch.prbCfg 10 3 = 0 ∨ incTo 7 c.prb.anom < fld c.ch.prbCfg 10 3) (hours : Nat) :
    (c.fitPrb x hours).anom = incTo 7 c.prb.anom ∧ c.fitRaised x = false := by
  rcases hrow with hrow | hrow <;>
    simp [Chan.fitPrb, Chan.fitRaised, Chan.fitAnom, Chan.fitFails, hfull, hout, hfail, hrow]
end

/-- Settles O35. -/
theorem probeCompletes : Obligations.ProbeCompletes := by
  unfold Obligations.ProbeCompletes
  refine ⟨fun s l n hw hl huse hidle => ?_, fun s l n hw hl huse => ?_, fun s u n hw huse hu => ?_, fun s l n hw hl huse => ?_,
    fun s n hrun huse hper hdue hidle hok => ?_, fun s n hrun hbusy hfirst => ?_, fun s n hin hat hrun => ?_,
    fun s n hin hat hrun => ?_, fun s p n wn zeta qeff fitQ fc fq hrun hp hin hfc hfq huntested => ?_,
    fun s p n wn zeta qeff fitQ fc fq hrun hp hin hfc hfq hfull hout => ?_⟩
  · have hidle' : ((s.chTouch n).chan n).prb.phase = .idle := by rw [State.chTouch_chan]; exact hidle
    refine ⟨_, congrArg Host.Outcome.next ((State.chHost_of_writer _ hw huse).trans
      (State.prbReq_of_idle hl (State.chTouch_inUse huse) hidle')), ?_⟩
    rw [State.modPrb_chan, State.chTouch_chan, hidle]
    exact ⟨rfl, rfl, rfl, rfl⟩
  · refine ⟨_, congrArg Host.Outcome.next ((State.chHost_of_writer _ hw huse).trans
      (State.prbReq_of_low hl (State.chTouch_inUse huse))), ?_⟩
    rw [State.modPrb_chan, State.chTouch_chan]
    exact ⟨rfl, rfl⟩
  · subst hu
    exact congrArg Host.Outcome.next ((State.chHost_of_writer _ hw huse).trans (State.prbReset_of_owner (State.chTouch_inUse huse)))
  · refine ⟨_, congrArg Host.Outcome.next ((State.chHost_of_writer _ hw huse).trans
      (State.prbReset_of_other hl (State.chTouch_inUse huse))), ?_⟩
    rw [State.modPrb_chan, State.chTouch_chan]
    exact ⟨rfl, rfl⟩
  · refine ⟨_, congrArg Host.Outcome.next (if_pos (by simp [hrun, huse, hper, hdue, hidle, hok])), ?_⟩
    rw [State.modPrb_chan]
    exact ⟨rfl, rfl, rfl⟩
  · obtain ⟨hstart, hrefused⟩ := State.prbStart_of_queued hrun hbusy hfirst
    refine ⟨_, rfl, ?_⟩
    by_cases hr : s.prbRefusal n = 0
    · rw [hstart hr, State.modPrb_chan]
      exact ⟨rfl, rfl, fun _ => ⟨rfl, rfl, rfl⟩, fun h => absurd hr h⟩
    · rw [hrefused hr, State.modPrb_chan]
      exact ⟨rfl, rfl, fun h => absurd h hr, fun _ => ⟨rfl, rfl⟩⟩
  · refine ⟨_, congrArg Host.Outcome.next (State.prbStep_of_end hin hat hrun), ?_⟩
    rw [State.modChan_chan]
    exact ⟨rfl, rfl, rfl, rfl, rfl, rfl⟩
  · refine ⟨_, congrArg Host.Outcome.next (State.prbReturn_of_end hin hat hrun), ?_⟩
    rw [State.modChan_chan]
    exact ⟨rfl, rfl, rfl, rfl⟩
  · subst hp
    have hfit := State.prbFit_eq (qeff := qeff) (fitQ := fitQ) hin hfc hfq rfl rfl
    rw [Chan.fitRaised_of_untested huntested, if_neg Bool.false_ne_true] at hfit
    obtain ⟨hprb, hrail⟩ := s.prior.fitEnded_chan n ((s.prior.chan n).fitResult fc zeta qeff fq)
    refine ⟨_, (exec_probeFitDone hrun wn zeta qeff fitQ).trans (congrArg Host.Outcome.next hfit), ?_⟩
    rw [hprb, hrail, Chan.fitPrb_base_of_untested huntested]
    exact ⟨rfl, rfl, rfl, rfl, rfl, rfl, rfl, rfl, rfl⟩
  · subst hp
    have hfit := (exec_probeFitDone hrun wn zeta qeff fitQ).trans
      (congrArg Host.Outcome.next (State.prbFit_eq (qeff := qeff) (fitQ := fitQ) hin hfc hfq rfl rfl))
    obtain ⟨hprb, hrail⟩ := s.prior.fitEnded_chan n ((s.prior.chan n).fitResult fc zeta qeff fq)
    refine ⟨_, ?_, ?_, hrail, fun hwithin => ?_, fun hfail hn hrow => ?_, fun hfail hrow => ?_⟩
    · rw [hprb]; rfl
    · rw [hprb]; exact if_pos hout
    · obtain ⟨hanom, hraised⟩ := Chan.fitPrb_of_within (x := (s.prior.chan n).fitResult fc zeta qeff fq)
        hfull hout hwithin s.prior.env.hours
      exact ⟨hprb ▸ hanom, hfit.trans (by rw [hraised]; rfl)⟩
    · obtain ⟨hanom, hraised⟩ := Chan.fitPrb_of_row (x := (s.prior.chan n).fitResult fc zeta qeff fq)
        hfull hout hfail hn hrow s.prior.env.hours
      exact ⟨hprb ▸ hanom, hfit.trans (by rw [hraised]; rfl)⟩
    · obtain ⟨hanom, hraised⟩ := Chan.fitPrb_of_counted (x := (s.prior.chan n).fitResult fc zeta qeff fq)
        hfull hout hfail hrow s.prior.env.hours
      exact ⟨hprb ▸ hanom, hfit.trans (by rw [hraised]; rfl)⟩

end Sys2Proof.Machine
end

section
/-! PROOFS. Ledger events, their verdicts and the MCP link. -/

open Sys2Proof

namespace Sys2Proof.Machine

/-! ## Frames of a block -/

/-- A block that stands still is dropped first, and one whose successor arrives is complete. -/
def State.beforeFrame (s : State) (blk : Nat) : State := (s.blockTimeout s.mcp.rxCur).blockOver blk

/-- `len` bytes of the expected block are counted. -/
def State.frameIn (p : State) (blk len : Nat) : State :=
  { p with mcp := { p.mcp with
    rxBytes := tset 0 p.mcp.rxBytes blk (tget 0 p.mcp.rxBytes blk + len), rxSkip := false, rxCut := none, blkAt := p.now
    heard := p.now } }.tpAdd 1 (framesIn (tget 0 p.mcp.rxBytes blk) len) 0 0

theorem State.frameIn_rxBytes (p : State) (blk len : Nat) :
    tget 0 (p.frameIn blk len).mcp.rxBytes blk = tget 0 p.mcp.rxBytes blk + len :=
  tget_tset_self (0 : Nat) p.mcp.rxBytes blk _

/-- What is not expected is counted as received, and asked for again unless that has been done. -/
def State.frameAstray (p : State) (blk len : Nat) : State :=
  if p.mcp.resumes blk p.now || p.mcp.rxSkip then p.stray len
  else (({ p with mcp := p.mcp.nak p.mcp.rxCur }.stray len).tpAdd 1 0 0 1).nakCheck p.now

/-- A frame of the expected block has its event's effect. -/
theorem State.arrive_of_expected {s p : State} {blk len : Nat} (hp : p = s.beforeFrame blk) (hup : p.mcp.up = true)
    (hnew : p.mcp.resumes blk p.now = false) (hblk : blk = p.mcp.rxCur) (hfit : tget 0 p.mcp.rxBytes blk + len ≤ 512)
    (f : State → State) : s.arrive blk len f = f (p.frameIn blk len) := by
  subst hp
  unfold State.arrive
  rw [if_neg (by simpa [State.beforeFrame] using hup), if_neg (by simpa [State.beforeFrame] using hnew)]
  exact (if_pos hblk).trans (if_pos hfit)

/-- A frame that is not expected has no event. -/
theorem State.arrive_of_astray {s p : State} {blk : Nat} (hp : p = s.beforeFrame blk) (hup : p.mcp.up = true)
    (hother : blk ≠ p.mcp.rxCur ∨ p.mcp.resumes blk p.now = true) (len : Nat) (f : State → State) :
    s.arrive blk len f = p.frameAstray blk len := by
  subst hp
  unfold State.arrive
  rw [if_neg (by simpa [State.beforeFrame] using hup)]
  unfold State.frameAstray
  cases hres : (s.beforeFrame blk).mcp.resumes blk (s.beforeFrame blk).now with
  | true =>
    rw [Bool.true_or, if_pos rfl]
    exact if_pos hres
  | false =>
    have hblk : blk ≠ (s.beforeFrame blk).mcp.rxCur := hother.resolve_right (by simp [hres])
    rw [Bool.false_or, if_neg (by simpa [State.beforeFrame] using hres)]
    exact if_neg hblk

/-! ## Events -/

theorem State.ledgerOpen_eq {s p u : State} {blk bytes group epoch : Nat}
    (hp : p = if s.hld.openCheck (nLedger s.hw.variant) bytes group epoch = 6 then s.verdictsFirst blk else s)
    (hu : u = { p with hld := { p.hld with
      entries := p.hld.entries ++ [{ group := group, epoch := epoch, bytes := bytes, openBlk := some blk }] } }) :
    s.ledgerOpen blk bytes group epoch = if p.hld.openCheck (nLedger s.hw.variant) bytes group epoch = 0 then u.settle u.now
      else p.ledgerReject (p.hld.openCheck (nLedger s.hw.variant) bytes group epoch) group true := by
  subst hu
  unfold State.ledgerOpen
  dsimp only
  rw [← hp]
  generalize p.hld.openCheck (nLedger s.hw.variant) bytes group epoch = c
  cases c with
  | zero => exact (if_pos rfl).symm
  | succ k => exact (if_neg (Nat.succ_ne_zero k)).symm

theorem State.ledgerReject_eq {s u : State} {code group : Nat} {named : Bool}
    (hu : u = { s with hld := { s.hld with
      errCode := code, errCount := incTo 0xFFFF s.hld.errCount, errGrp := group, irq := Irq.set s.hld.irq 6 } }) :
    s.ledgerReject code group named = ((u.report (if code = 6 then 1041 else 1042) s.now).admission
      (u.report (if code = 6 then 1041 else 1042) s.now).now (if named then [group] else [])).settle
        (u.report (if code = 6 then 1041 else 1042) s.now).now := by
  subst hu
  rfl

/-! ## Verdicts -/

/-- The state a passing verdict leaves before it settles. -/
def State.macPassed (s : State) (blk undef : Nat) : State :=
  let u := { s with
    hld := s.hld.confirm blk s.now
    mcp := { s.mcp.passed blk with eType := min 0xFF (s.mcp.eType + undef), okAt := some (blk, s.now) } }.tpAdd 1 (s.mcp.rest blk) 8 0
  { u with hld := { u.hld with durable := durableOf u.hld.sealed_ u.hld.entries } }

/-- The state a failing verdict leaves before it is reported. -/
def State.macFailed (s : State) (blk : Nat) : State :=
  { s with
    hld := { s.hld.revert s.mcp.fromBlk with nBad := incTo 0xFFFF (s.hld.revert s.mcp.fromBlk).nBad }
    mcp := s.mcp.failed blk }.tpAdd 1 (s.mcp.rest blk) 0 1

theorem exec_macVerifyPass {s : State} {blk : Nat} (hdue : s.mcp.due blk s.now = true) (undef : Nat) :
    exec (.macVerifyPass blk undef) s = .next ((s.macPassed blk undef).settle s.now) :=
  congrArg Host.Outcome.next (if_pos hdue)

theorem exec_macVerifyFail {s : State} {blk : Nat} (hdue : s.mcp.due blk s.now = true) :
    exec (.macVerifyFail blk) s = .next ((((s.macFailed blk).report 1044 s.now).settle s.now).nakCheck s.now) :=
  congrArg Host.Outcome.next (if_pos hdue)

/-- A confirmed block's opens lose their mark, and what it closed is gone. -/
theorem Hld.mem_confirm {h : Hld} {blk now : Nat} {e : LEntry} (he : e ∈ (h.confirm blk now).entries) :
    e.openBlk ≠ some blk ∧ e.closeBlk ≠ some blk ∧ (e ∈ h.entries ∨ { e with openBlk := some blk } ∈ h.entries) := by
  simp only [Hld.confirm, List.mem_map, List.mem_filter, decide_eq_true_eq] at he
  obtain ⟨d, ⟨hd, hclose⟩, rfl⟩ := he
  by_cases hopen : d.openBlk = some blk
  · rw [if_pos hopen]
    refine ⟨nofun, hclose, .inr ?_⟩
    rw [← hopen]
    exact hd
  · rw [if_neg hopen]
    exact ⟨hopen, hclose, .inl hd⟩

/-- Settles O36. -/
theorem ledgerEventsComplete : Obligations.LedgerEventsComplete := by
  unfold Obligations.LedgerEventsComplete
  refine ⟨fun s p q blk n bytes kind group epoch hp hup hnew hblk hn hfit hq => ?_,
    fun s p blk bytes kind group epoch w hp hup hother hw => ?_, fun s p u blk bytes group epoch hp hu => State.ledgerOpen_eq hp hu,
    fun s blk group epoch => ⟨fun h => if_pos h, fun h => if_neg (by simp [h]), fun h => if_neg (by simp [h]), fun h => if_pos h⟩,
    fun s u code group named hu => State.ledgerReject_eq hu, fun s blk undef hdue => ?_, fun h blk now e he => Hld.mem_confirm he,
    fun s blk hdue => ?_, fun s blk undef hdue => ?_⟩
  · subst hn hq
    have harrive (f : State → State) := State.arrive_of_expected hp hup hnew hblk hfit f
    exact ⟨congrArg Host.Outcome.next (harrive _), congrArg Host.Outcome.next (harrive _), congrArg Host.Outcome.next (harrive _),
      congrArg Host.Outcome.next (harrive _), congrArg Host.Outcome.next (harrive _)⟩
  · have hstray (len : Nat) (f : State → State) := (State.arrive_of_astray hp hup hother len f).trans (hw len).symm
    exact ⟨congrArg Host.Outcome.next (hstray 32 _), congrArg Host.Outcome.next (hstray 32 _),
      congrArg Host.Outcome.next (hstray 32 _), congrArg Host.Outcome.next (hstray 32 _), congrArg Host.Outcome.next (hstray 32 _),
      congrArg Host.Outcome.next (hstray 64 _)⟩
  · exact ⟨s.macPassed blk undef, rfl, rfl, rfl, rfl, rfl, exec_macVerifyPass hdue undef⟩
  · exact ⟨s.macFailed blk, rfl, rfl, rfl, rfl, rfl, exec_macVerifyFail hdue⟩
  · exact ⟨congrArg Host.Outcome.next (if_neg (by simp [hdue])), congrArg Host.Outcome.next (if_neg (by simp [hdue]))⟩

/-! ## Lanes -/

/-- A lane enters service on a link that can be run. -/
def State.laneJoined (s : State) (lane : Nat) : State :=
  { s with mcp := { s.mcp with lanes := Nat.lor s.mcp.lanes (2 ^ lane), heard := s.now, irq := Irq.set s.mcp.irq 2 } }

section
variable {s : State} {lane : Nat} (hrun : s.running = true) (hprep : s.pwr.prepared = false) (hlane : lane < nLane s.hw.variant)
  (hmode : (tget {} s.lt lane).mode = 0) (hout : s.mcp.lanes.testBit lane = false) (hisl : s.islLost 17 = false)
include hrun hprep hlane hmode hout hisl

/-- The first lane of a link that is down begins key establishment, or loses the link where no key can come. -/
theorem State.laneUp_of_down (hlink : s.mcp.link = .down) {u : State} (hu : u = s.laneJoined lane) :
    s.laneUp lane =
      if s.noKeyPath then (({ u with mcp := { u.mcp with link := .training } }.mcpLost 5 s.now).settle s.now)
      else { (u.draw 32).2 with mcp := { u.mcp with
        link := .training, nonceS := (u.draw 32).1, kxKey := u.pairKey, keyEnd := some (u.now + 100 * tUs)
        unacked := [{ n := 0, frames := .kx (u.draw 32).1 :: List.replicate 7 .fill, sentAt := u.now }], txNext := 1, rxNext := 0 } } := by
  subst hu
  unfold State.laneUp
  rw [if_neg (by simp [hrun, hprep, Nat.not_le.mpr hlane, hmode, hout, hisl])]
  simp only [hlink]
  rfl

theorem State.laneUp_of_training (hlink : s.mcp.link = .training) : s.laneUp lane = s.laneJoined lane := by
  unfold State.laneUp
  rw [if_neg (by simp [hrun, hprep, Nat.not_le.mpr hlane, hmode, hout, hisl])]
  simp only [State.laneJoined, hlink]

theorem State.laneUp_of_up (hup : s.mcp.up = true) {u : State} (hu : u = s.laneJoined lane) :
    s.laneUp lane = { u with mcp := { u.mcp with link := linkOf s.hw.variant u.mcp.lanes } } := by
  subst hu
  unfold State.laneUp
  rw [if_neg (by simp [hrun, hprep, Nat.not_le.mpr hlane, hmode, hout, hisl])]
  have hlink : s.mcp.link = .up ∨ s.mcp.link = .degraded := by simpa [Mcp.up] using hup
  rcases hlink with hlink | hlink <;> simp only [State.laneJoined, hlink]
end

theorem State.laneDown_of_in {s p u : State} {lane hdr : Nat} (hin : s.mcp.lanes.testBit lane = true) (hp : p = s.lanesFirst lane)
    (hu : u = { p with mcp := { p.mcp with hdrErr := tset 0 p.mcp.hdrErr lane (min 0xFFFF (tget 0 p.mcp.hdrErr lane + hdr)) } }) :
    s.laneDown lane hdr = if u.mcp.lanes - 2 ^ lane = 0 then (u.failsFirst.mcpLost 1 u.now).settle u.now
      else { u with mcp := { u.mcp with
        lanes := u.mcp.lanes - 2 ^ lane, irq := Irq.set u.mcp.irq 2
        link := if u.mcp.up then linkOf u.hw.variant (u.mcp.lanes - 2 ^ lane) else u.mcp.link } } := by
  subst hu hp
  exact if_neg (by simp [hin])

/-! ## Key establishment, acknowledgements and losses -/

/-- The state in which key establishment has succeeded. -/
def State.keyed (s : State) (nonce : List Byte) : State :=
  { s with mcp := { s.mcp with
    key := s.linkKey nonce, keyed := true, keyEnd := none, link := linkOf s.hw.variant s.mcp.lanes
    rxNext := 1, rxBytes := [], rxSkip := false, rxOld := [], rxLate := none, admDue := true
    lctl := [(true, 0)], irq := Irq.set s.mcp.irq 0 } }.tpAdd 1 512 8 0

theorem exec_mcpKx {s : State} (hlink : s.mcp.link = .training) (htime : runsPast s.mcp.keyEnd s.now = true)
    (nonce : List (BitVec 8)) : exec (.mcpKx 0 nonce) s = .next ((s.keyed nonce).settle s.now) :=
  congrArg Host.Outcome.next (if_pos (by simp [hlink, htime]))

theorem State.ackTimeout_of_late {s : State} (hlink : s.mcp.link ≠ .down)
    (hlate : (s.mcp.unacked.any fun b => decide (b.sentAt + 2000 ≤ s.now)) = true) :
    s.ackTimeout = (s.failsFirst.mcpLost 3 s.now).settle s.now :=
  if_pos (by rw [Bool.and_eq_true]; exact ⟨by simp [hlink], hlate⟩)

theorem State.lctlAck_of_late {s : State} (hlink : s.mcp.link ≠ .down)
    (hlate : (s.mcp.unacked.any fun b => decide (b.sentAt + 2000 ≤ s.now)) = true) (n : Nat) : s.lctlAck n = s.ackTimeout := by
  unfold State.lctlAck
  rw [if_neg (by simp [hlink])]
  exact if_pos hlate

theorem State.lctlAck_of_timely {s : State} (hlink : s.mcp.link ≠ .down)
    (hlate : (s.mcp.unacked.any fun b => decide (b.sentAt + 2000 ≤ s.now)) = false) (n : Nat) :
    s.lctlAck n = { s with mcp := s.mcp.acked n s.now } := by
  unfold State.lctlAck
  rw [if_neg (by simp [hlink])]
  exact if_neg (Bool.eq_false_iff.mp hlate)

theorem State.lctlNak_of_sent {s u : State} {n : Nat} (hlink : s.mcp.link ≠ .down)
    (hsent : (s.mcp.unacked.map (·.n)).contains n = true)
    (hu : u = if 4 ≤ (s.mcp.naked n s.now).txNakRow then s.failsFirst else s) :
    s.lctlNak n = if u.mcp.link = .down then u else ({ u with mcp := u.mcp.naked n u.now }.nakCheck u.now).settle u.now := by
  subst hu
  unfold State.lctlNak
  rw [if_pos (by rw [Bool.and_eq_true]; exact ⟨by simp [hlink], hsent⟩)]
  simp only [beq_iff_eq]

theorem State.blockTimeout_of_still {s u : State} {blk : Nat} (hup : s.mcp.up = true) (hopen : s.mcp.openBlk blk = true)
    (hlate : s.mcp.blkAt + 100 ≤ s.now)
    (hu : u = { s with
      hld := s.hld.revert (fun b => b == blk)
      mcp := { s.mcp with
        rxBytes := tset 0 s.mcp.rxBytes blk 0, eTout := incTo 0xFF s.mcp.eTout
        rxCut := some (s.now, 512 - tget 0 s.mcp.rxBytes blk, false) }.nak blk }) :
    s.blockTimeout blk = ((u.tpAdd 1 0 0 1).settle s.now).nakCheck s.now := by
  subst hu
  exact if_pos (by simp [hup, hopen, hlate])

/-- Settles O37. -/
theorem mcpLinkCompletes : Obligations.McpLinkCompletes := by
  unfold Obligations.McpLinkCompletes
  refine ⟨fun s lane hrun hprep hlane hmode hout hisl hlink hpath => ?_, fun s u lane hrun hprep hlane hmode hout hisl hu => ?_,
    fun s p u lane hdr hin hp hu => congrArg Host.Outcome.next (State.laneDown_of_in hin hp hu), fun s nonce hlink htime => ?_,
    fun s t hend ht => ?_, fun s u blk i hver hu => ?_, fun s blk hver => congrArg Host.Outcome.next (if_pos hver),
    fun s blk i hver => ⟨congrArg Host.Outcome.next (if_neg (by simp [hver])), congrArg Host.Outcome.next (if_neg (by simp [hver]))⟩,
    fun s p blk n hp hup hnew hblk hn hfit => ?_,
    fun s n hlink hlate => congrArg Host.Outcome.next (State.lctlAck_of_timely hlink hlate n), fun s n hlink hlate => ?_,
    fun s u n hlink hsent hu => congrArg Host.Outcome.next (State.lctlNak_of_sent hlink hsent hu),
    fun s u blk hup hopen hlate hu => congrArg Host.Outcome.next (State.blockTimeout_of_still hup hopen hlate hu),
    fun s hlink hlate => congrArg Host.Outcome.next (if_pos (by simp [hlink, hlate, tUs]))⟩
  · have hup := State.laneUp_of_down hrun hprep hlane hmode hout hisl hlink rfl
    rw [if_neg (by simp [hpath])] at hup
    exact ⟨_, congrArg Host.Outcome.next hup, rfl, testBit_lor_two_pow _ lane, rfl, rfl, rfl, rfl, rfl⟩
  · subst hu
    refine ⟨fun hlink hpath => ?_,
      fun hlink => congrArg Host.Outcome.next (State.laneUp_of_training hrun hprep hlane hmode hout hisl hlink),
      fun hup => congrArg Host.Outcome.next (State.laneUp_of_up hrun hprep hlane hmode hout hisl hup rfl)⟩
    exact congrArg Host.Outcome.next ((State.laneUp_of_down hrun hprep hlane hmode hout hisl hlink rfl).trans (if_pos hpath))
  · exact ⟨s.keyed nonce, rfl, rfl, rfl, rfl, rfl, rfl, rfl, exec_mcpKx hlink htime nonce⟩
  · show Host.Outcome.next s.keyTimeout = _
    simp only [State.keyTimeout, hend, dueAt_some ht]
  · subst hu
    exact congrArg Host.Outcome.next (if_pos hver)
  · subst hn
    exact ⟨_, congrArg Host.Outcome.next (State.arrive_of_expected hp hup hnew hblk hfit _), rfl, rfl, p.frameIn_rxBytes blk 64, rfl⟩
  · have hlost := State.ackTimeout_of_late hlink hlate
    exact ⟨congrArg Host.Outcome.next hlost, congrArg Host.Outcome.next ((State.lctlAck_of_late hlink hlate n).trans hlost)⟩

end Sys2Proof.Machine
end

section
/-! PROOFS. HLD_CTRL and the epoch records; FLT_CMD and the pins FAULT_N and ALERT_N. -/

open Sys2Proof

namespace Sys2Proof.Machine

/-! ## HLD_CTRL -/

/-- The command leaves `code` in HLD_CTRL and holds, or no longer holds, by the host's word. -/
def State.hostHold (s : State) (host : Bool) : State :=
  { s with hld := { s.hld with code := 0, cause := { s.hld.cause with host := host } } }

theorem State.hldCtl_hold {s : State} {l : Level} (hl : l.ge .operator = true) :
    s.hldCtl l true false false = ((s.hostHold true).admission s.now []).settle ((s.hostHold true).admission s.now []).now := by
  simp [State.hldCtl, hl, State.hostHold, State.now]

theorem State.hldCtl_release {s : State} {l : Level} (hl : l.ge .operator = true) :
    s.hldCtl l false true false = ((s.hostHold false).admission s.now []).settle ((s.hostHold false).admission s.now []).now := by
  simp [State.hldCtl, hl, State.hostHold, State.now]

/-- The drain that stands is of a loss of this tick, which a drain request may join. -/
def Hld.drainFree (h : Hld) (now : Nat) : Bool := h.drain.all fun d => d.loss && decide (d.began = now)

theorem Hld.drain_any_not (h : Hld) (now : Nat) :
    (h.drain.any fun d => !(d.loss && decide (d.began = now))) = !h.drainFree now := by
  cases hd : h.drain <;> simp [Hld.drainFree, hd]

theorem State.hldCtl_drain {s v : State} {l : Level} (hl : l.ge .operator = true) (hfree : s.hld.drainFree s.now = true)
    (hup : s.mcp.up = true) (hgood : s.rst HS = .good)
    (hv : v = ((s.hostHold true).admission s.now []).drainStart 2 ((s.hostHold true).admission s.now []).now) :
    s.hldCtl l false false true = v.settle ((s.hostHold true).admission s.now []).now := by
  subst hv
  unfold State.hldCtl
  simp only [Hld.drain_any_not, hl, hfree, hup, hgood, Bool.not_true, Bool.false_eq_true, if_false, Bool.and_false, bne_self_eq_false,
    Bool.or_false, Bool.or_true, if_true]
  rfl

theorem State.hldCtl_drain_refused {s : State} {l : Level} {c : Nat}
    (hc : c = (if !l.ge .operator then 1 else if s.hld.drainFree s.now = false then 3
      else if s.mcp.up = false ∨ s.rst HS ≠ .good then 4 else 0)) (h0 : c ≠ 0) :
    s.hldCtl l false false true = { s with hld := { s.hld with code := c } } := by
  subst hc
  unfold State.hldCtl
  simp only [Hld.drain_any_not]
  (repeat' split) <;> simp_all

theorem State.hldCtl_of_low {s : State} {l : Level} (hl : l.ge .operator = false) (hold release drain : Bool) :
    s.hldCtl l hold release drain = { s with hld := { s.hld with code := 1 } } :=
  if_pos (by simp [hl])

theorem State.epochPeriod_of_over {s u : State} {t : Nat} (hrun : s.running = true) (hnext : s.hld.epochNext = some t)
    (ht : t < s.now) (hper : fld s.hld.cfg 24 8 ≠ 0)
    (hu : u = { s with hld := { s.hld with epochNext := some (t + fld s.hld.cfg 24 8 * 10000000) } }) :
    s.epochPeriod = if epochLater s.hld.epochDur s.hld.lastEpochRec then
        ({ u with hld := { u.hld with lastEpochRec := s.hld.epochDur } }).record 1 0x02 0 t [(16, leBytes 4 s.hld.epochDur)]
      else u := by
  subst hu
  have hticks : fld s.hld.cfg 24 8 * 100 * tMs = fld s.hld.cfg 24 8 * 10000000 := Nat.mul_assoc _ 100 tMs
  simp only [State.epochPeriod, hnext]
  rw [if_neg (by simp [hrun, hper, ht]), hticks]

/-- Settles O38. -/
theorem holdCommandsComplete : Obligations.HoldCommandsComplete := by
  unfold Obligations.HoldCommandsComplete
  refine ⟨fun s u l hw hl hu => ?_, fun s u l hw hl hu => ?_, fun s u v l hw hl hfree hup hgood hu hv => ?_, fun s l c hw hc h0 => ?_,
    fun s l hw hl => ?_, fun s u t hrun hnext ht hper hu => congrArg Host.Outcome.next (State.epochPeriod_of_over hrun hnext ht hper hu)⟩
  · subst hu
    exact congrArg Host.Outcome.next ((State.byHost_of_writer _ hw).trans (State.hldCtl_hold hl))
  · subst hu
    exact congrArg Host.Outcome.next ((State.byHost_of_writer _ hw).trans (State.hldCtl_release hl))
  · subst hu
    exact congrArg Host.Outcome.next ((State.byHost_of_writer _ hw).trans (State.hldCtl_drain hl hfree hup hgood hv))
  · exact congrArg Host.Outcome.next ((State.byHost_of_writer _ hw).trans (State.hldCtl_drain_refused hc h0))
  · exact ⟨congrArg Host.Outcome.next ((State.byHost_of_writer _ hw).trans (State.hldCtl_of_low hl _ _ _)),
      congrArg Host.Outcome.next ((State.byHost_of_writer _ hw).trans (State.hldCtl_of_low hl _ _ _))⟩

/-! ## FLT_CMD -/

theorem Flt.answer_src (f : Flt) (i : Nat) (x : Src) (kind t : Nat) :
    (f.answer i x kind t).src i = x ∧ (f.answer i x kind t).cmdCode = 0 := by
  have hsrcs : (f.answer i x kind t).srcs = tset {} f.srcs i x ∧ (f.answer i x kind t).cmdCode = 0 := by
    simp only [Flt.answer, Flt.logAdd]
    (repeat' split) <;> exact ⟨rfl, rfl⟩
  exact ⟨by rw [Flt.src, hsrcs.1, tget_tset_self], hsrcs.2⟩

/-- A grace timer has something to acknowledge exactly where it runs past the present tick. -/
theorem Src.grace_eq_graceLeft_iff (x : Src) (now : Nat) :
    x.grace = x.graceLeft now ↔ x.grace.all (fun g => decide (g ≤ now)) = true := by
  cases hg : x.grace with
  | none => simp [Src.graceLeft, hg]
  | some g => by_cases hle : g ≤ now <;> simp [Src.graceLeft, hg, hle, Option.filter]

section
variable {s : State} {l : Level}

theorem State.fltCmd_ack (hl : l.ge .operator = true) (i : Nat) : s.fltCmd l true false false false i = s.cmdAck i := by
  simp [State.fltCmd, b2n, hl]

theorem State.fltCmd_clr (hl : l.ge .operator = true) (i : Nat) : s.fltCmd l false true false false i = s.cmdClr i := by
  simp [State.fltCmd, b2n, hl]

theorem State.fltCmd_rearm (hl : l.ge .operator = true) : s.fltCmd l false false false true 0 = s.cmdRearm := by
  simp [State.fltCmd, b2n, hl]

theorem State.fltCmd_safeClr (i : Nat) :
    s.fltCmd l false false true false i = if l.ge .owner then s.cmdSafeClr else s.cmdRefuse 1 := by
  simp [State.fltCmd, b2n]

/-- A session below OPERATOR is refused with SESSION. -/
theorem State.fltCmd_of_low (hl : l.ge .operator = false) {ack clr rearm : Bool} (hcmd : (ack || clr || rearm) = true) (i : Nat) :
    s.fltCmd l ack clr false rearm i = s.cmdRefuse 1 := by
  have hone : b2n ack + b2n clr + b2n false + b2n rearm ≠ 0 := by
    cases ack <;> cases clr <;> cases rearm <;> simp_all [b2n]
  unfold State.fltCmd
  rw [if_neg hone, if_pos (by rw [hcmd, hl]; rfl)]
end

theorem State.cmdAck_of_running {s : State} {i g : Nat} (hname : srcNamed s.hw.variant i = true)
    (hg : (s.flt.src i).grace = some g) (hlater : s.now < g) :
    s.cmdAck i = { s with flt := s.flt.answer i { s.flt.src i with grace := none, ack := true } 6 s.now } := by
  have hruns : ¬ (s.flt.src i).grace = (s.flt.src i).graceLeft s.now := by
    rw [Src.grace_eq_graceLeft_iff]
    simp [hg, hlater]
  unfold State.cmdAck
  rw [if_neg (by simp [hname]), if_neg hruns]

theorem State.cmdAck_of_refused {s : State} {i c : Nat} (hc : c = (if !srcNamed s.hw.variant i then 2
      else if (s.flt.src i).grace.all (fun g => decide (g ≤ s.now)) then 4 else 0)) (h0 : c ≠ 0) : s.cmdAck i = s.cmdRefuse c := by
  subst hc
  unfold State.cmdAck
  simp only [Src.grace_eq_graceLeft_iff]
  (repeat' split) <;> simp_all

theorem State.cmdClr_of_over {s : State} {i : Nat} (hname : srcNamed s.hw.variant i = true) (hpend : (s.flt.src i).pend = true)
    (hcause : s.causePresent i = false) :
    s.cmdClr i = { s with flt := s.flt.answer i ((s.flt.src i).clearAt s.now) 5 s.now } := by
  unfold State.cmdClr
  rw [if_neg (by simp [hname]), if_neg (by simp [hpend]), if_neg (by simp [hcause])]

theorem State.cmdClr_of_refused {s : State} {i c : Nat} (hc : c = (if !srcNamed s.hw.variant i then 2
      else if !(s.flt.src i).pend then 4 else if s.causePresent i then 3 else 0)) (h0 : c ≠ 0) : s.cmdClr i = s.cmdRefuse c := by
  subst hc
  unfold State.cmdClr
  (repeat' split) <;> simp_all

theorem State.cmdSafeClr_of_refused {s : State} {c : Nat}
    (hc : c = (if s.flt.safe.all (fun x => decide (x.step ≠ 7)) then 6 else if s.unclear then 5 else 0)) (h0 : c ≠ 0) :
    s.cmdSafeClr = s.cmdRefuse c := by
  subst hc
  unfold State.cmdSafeClr
  cases hsafe : s.flt.safe with
  | none => rfl
  | some x => by_cases hstep : x.step = 7 <;> simp_all

theorem State.safeLeave_of_clear {s u : State} (hreq : s.flt.safeReq = true) (hclear : s.unclear = false)
    (hu : u = { s with flt := { s.flt with safeReq := false, safe := none }
                       hld := { s.hld with cause := { s.hld.cause with safe := false } } }) :
    s.safeLeave = (u.disAll s.now).settle s.now := by
  subst hu
  unfold State.safeLeave
  rw [if_pos hreq]
  exact if_neg (Bool.eq_false_iff.mp hclear)

/-! ## The pins -/

theorem State.faultLow_iff {s : State} (hvaux : s.sys.vauxDown = false) :
    s.faultLow = true ↔ (∃ e ∈ s.flt.srcs, e.2.pend = true) ∨ s.flt.priv ≠ 0 ∨ s.flt.safe.isSome = true ∨ s.configured = false
      ∨ s.sys.haltHold = true := by
  simp [State.faultLow, Flt.anyPend, State.safeNow, hvaux, or_assoc]

theorem State.alertLow_iff (s : State) :
    s.alertLow = true ↔ s.flt.priv ≠ 0 ∨ s.configured = true ∧ s.rungOk = true ∧ s.irqAny = true := by
  simp [State.alertLow, or_comm, and_assoc]

/-- A set bit is enabled. -/
theorem irqHit_iff (x : Irq) (en : Word) : irqHit x en = true ↔ ∃ i, i < 32 ∧ wbit x.st i = true ∧ wbit en i = true := by
  have hzero : x.st &&& en = 0 ↔ ∀ i, i < 32 → ¬ (wbit x.st i = true ∧ wbit en i = true) := by
    constructor
    · intro h i _ hbits
      have hbit : (x.st &&& en).getLsbD i = true := by rw [BitVec.getLsbD_and, Bool.and_eq_true]; exact hbits
      rw [h] at hbit
      simp at hbit
    · intro h
      refine BitVec.eq_of_getLsbD_eq fun i hi => ?_
      have hbits := h i hi
      rw [BitVec.getLsbD_and]
      simpa [wbit] using hbits
  simp only [irqHit, Bool.not_eq_true', decide_eq_false_iff_not, hzero]
  push Not
  rfl

/-- The interrupt blocks that are not a channel's. -/
def State.irqBlocks (s : State) : List (Irq × Word) :=
  [(s.sys.irq, s.sys.irqEn), (s.pwr.irq, s.pwr.irqEn), (s.seq.irq, s.seq.irqEn), (s.seq.springIrq, s.seq.springIrqEn),
    (s.flt.irq, s.flt.irqEn), (s.wdg.irq, s.wdg.irqEn), (s.gpio.irq, s.gpio.irqEn), (s.gpio.intStat, w32 s.gpio.intEn),
    (s.cnt.irq, s.cnt.irqEn), (s.hld.irq, s.hld.irqEn), (s.sec.irq, s.sec.irqEn), (s.env.irq, s.env.irqEn),
    (s.cfg.irq, s.cfg.irqEn), (s.cas.irq, s.cas.irqEn), (s.mcp.irq, s.mcp.irqEn), (s.bbx.irq, s.bbx.irqEn)]

theorem State.irqAny_iff (s : State) :
    s.irqAny = true ↔ (∃ e ∈ s.irqBlocks, irqHit e.1 e.2 = true)
      ∨ ∃ c ∈ s.chans, irqHit c.2.sense.irq c.2.sense.irqEn = true ∨ irqHit c.2.mgn.irq c.2.mgn.irqEn = true := by
  simp only [State.irqAny, State.irqBlocks, List.exists_mem_cons_iff, List.not_mem_nil, false_and, exists_false, or_false,
    Bool.or_eq_true, List.any_eq_true]
  ac_nf

/-- Settles O39. -/
theorem faultCommandsComplete : Obligations.FaultCommandsComplete := by
  unfold Obligations.FaultCommandsComplete
  refine ⟨fun s l i g hw hl hname hg hlater => ?_, fun s l i c hw hc h0 => ?_, fun s l i hw hl hname hpend hcause => ?_,
    fun s l i c hw hc h0 => ?_, fun s l x hw hl hsafe hstep hclear => ?_, fun s l c hw hc h0 => ?_,
    fun s u hreq hclear hu => State.safeLeave_of_clear hreq hclear hu, fun s l hw hl hclear => ?_, fun s l c hw hc h0 => ?_,
    fun s c => ⟨rfl, rfl, rfl, rfl⟩, fun s u l bits hw hu => ?_, fun s hvaux hpor hscan => ⟨?_, State.faultLow_iff hvaux⟩,
    fun s hscan => ⟨by simp [State.alertPin, hscan], s.alertLow_iff⟩, fun s => ?_⟩
  · refine ⟨_, congrArg Host.Outcome.next ((State.byHost_of_writer _ hw).trans ((State.fltCmd_ack hl _).trans
      (State.cmdAck_of_running hname hg hlater))), ?_⟩
    simp [Flt.answer_src]
  · refine congrArg Host.Outcome.next ((State.byHost_of_writer _ hw).trans ?_)
    by_cases hl : l.ge .operator = true
    · rw [State.fltCmd_ack hl]
      exact State.cmdAck_of_refused (by simpa [hl] using hc) h0
    · rw [State.fltCmd_of_low (by simpa using hl) rfl, hc]
      simp [hl]
  · refine ⟨_, congrArg Host.Outcome.next ((State.byHost_of_writer _ hw).trans ((State.fltCmd_clr hl _).trans
      (State.cmdClr_of_over hname hpend hcause))), ?_⟩
    simp +contextual [Flt.answer_src, Src.clearAt, Option.filter]
  · refine congrArg Host.Outcome.next ((State.byHost_of_writer _ hw).trans ?_)
    by_cases hl : l.ge .operator = true
    · rw [State.fltCmd_clr hl]
      exact State.cmdClr_of_refused (by simpa [hl] using hc) h0
    · rw [State.fltCmd_of_low (by simpa using hl) rfl, hc]
      simp [hl]
  · refine congrArg Host.Outcome.next ((State.byHost_of_writer _ hw).trans ?_)
    simp [State.fltCmd_safeClr, hl, State.cmdSafeClr, hsafe, hstep, hclear]
  · refine congrArg Host.Outcome.next ((State.byHost_of_writer _ hw).trans ?_)
    rw [State.fltCmd_safeClr]
    by_cases hl : l.ge .owner = true
    · rw [if_pos hl]
      exact State.cmdSafeClr_of_refused (by simpa [hl] using hc) h0
    · rw [if_neg hl, hc]
      simp [hl]
  · refine ⟨_, congrArg Host.Outcome.next ((State.byHost_of_writer _ hw).trans ((State.fltCmd_rearm hl).trans
      (if_neg (by simp [hclear])))), rfl, rfl, rfl, rfl, rfl, rfl, fun e he => ?_⟩
    simpa using List.mem_filter.mp he
  · refine congrArg Host.Outcome.next ((State.byHost_of_writer _ hw).trans ?_)
    by_cases hl : l.ge .operator = true
    · rw [State.fltCmd_rearm hl]
      by_cases hbefore : s.unclearBefore = true <;> simp_all [State.cmdRearm]
    · rw [State.fltCmd_of_low (by simpa using hl) rfl, hc]
      simp [hl]
  · subst hu
    exact congrArg Host.Outcome.next (State.byHost_of_writer _ hw)
  · cases hlow : s.faultLow <;> simp [State.faultPin, hvaux, hpor, hscan, hlow, Drive.ofLevel]
  · simp only [State.irqAny_iff, irqHit_iff]
    constructor
    · rintro (⟨e, he, hbit⟩ | ⟨c, hc, hbit | hbit⟩)
      · exact ⟨e, hbit, .inl he⟩
      · exact ⟨_, hbit, .inr ⟨c, hc, .inl rfl⟩⟩
      · exact ⟨_, hbit, .inr ⟨c, hc, .inr rfl⟩⟩
    · rintro ⟨e, hbit, he | ⟨c, hc, rfl | rfl⟩⟩
      · exact .inl ⟨e, he, hbit⟩
      · exact .inr ⟨c, hc, .inl hbit⟩
      · exact .inr ⟨c, hc, .inr hbit⟩

end Sys2Proof.Machine
end

section
/-! PROOFS. The fault collector. -/

open Sys2Proof

namespace Sys2Proof.Machine

/-! ## What reports and records leave of the collector -/

/-- The first fault, the privileged bits and the expiry that resets are the same. -/
def Flt.SameMarks (g f : Flt) : Prop := g.ff = f.ff ∧ g.priv = f.priv ∧ g.expReset = f.expReset

theorem Flt.logAdd_sameMarks (f : Flt) (e : FEntry) : (f.logAdd e).SameMarks f := by
  unfold Flt.logAdd
  split <;> exact ⟨rfl, rfl, rfl⟩

theorem Flt.undo_sameMarks (f : Flt) (i stamp : Nat) : (f.undo i stamp).SameMarks f := by
  simp only [Flt.undo]
  (repeat' split) <;> exact ⟨rfl, rfl, rfl⟩

theorem Flt.raise_sameMarks (f : Flt) (x : Src) (i lev stamp kind : Nat) (wire inj react : Bool) :
    (f.raise x i lev stamp kind wire inj react).SameMarks f :=
  Flt.logAdd_sameMarks f _

theorem Flt.conseq_sameMarks (f : Flt) (i origin stamp : Nat) (inj : Bool) : (f.conseq i origin stamp inj).SameMarks f :=
  Flt.logAdd_sameMarks f _

theorem Flt.SameMarks.trans {h g f : Flt} (hg : h.SameMarks g) (hf : g.SameMarks f) : h.SameMarks f :=
  ⟨hg.1.trans hf.1, hg.2.1.trans hf.2.1, hg.2.2.trans hf.2.2⟩

theorem State.report_sameMarks (s : State) (i stamp : Nat) (inj : Bool) : (s.report i stamp inj).flt.SameMarks s.flt := by
  unfold State.report
  split
  · exact ⟨rfl, rfl, rfl⟩
  · dsimp only
    split
    · exact (Flt.conseq_sameMarks _ _ _ _ _).trans (Flt.undo_sameMarks _ _ _)
    · exact (Flt.raise_sameMarks _ _ _ _ _ _ _ _ _).trans (Flt.undo_sameMarks _ _ _)

theorem State.countSrc_sys_wdg (s : State) (i : Nat) (masked : Bool) :
    (s.countSrc i masked).sys = s.sys ∧ (s.countSrc i masked).wdg = s.wdg ∧ (s.countSrc i masked).hld = s.hld := by
  unfold State.countSrc
  dsimp only
  split <;> exact ⟨rfl, rfl, rfl⟩

/-- A report is the collector's, the counters', the black box's and the ladder's. -/
theorem State.report_sys_wdg (s : State) (i stamp : Nat) (inj : Bool) :
    (s.report i stamp inj).sys = s.sys ∧ (s.report i stamp inj).wdg = s.wdg ∧ (s.report i stamp inj).hld = s.hld := by
  unfold State.report
  split
  · exact ⟨rfl, rfl, rfl⟩
  · exact s.countSrc_sys_wdg i _

/-- A record is queued, or dropped with JRNL_FULL. -/
theorem State.record_cases (s : State) (cls typ arg stamp : Nat) (parts : List (Nat × List Byte)) :
    s.record cls typ arg stamp parts = (s.irqEnv 2).report 1051 s.now ∨ ∃ e : Env, s.record cls typ arg stamp parts = { s with env := e } := by
  unfold State.record State.recordAt State.jrnl
  dsimp only
  split
  · exact .inl rfl
  · exact .inr ⟨_, rfl⟩

theorem State.record_sameMarks (s : State) (cls typ arg stamp : Nat) (parts : List (Nat × List Byte)) :
    (s.record cls typ arg stamp parts).flt.SameMarks s.flt := by
  rcases s.record_cases cls typ arg stamp parts with h | ⟨e, h⟩
  · rw [h]
    exact State.report_sameMarks (s.irqEnv 2) _ _ _
  · rw [h]
    exact ⟨rfl, rfl, rfl⟩

theorem State.record_sys_wdg (s : State) (cls typ arg stamp : Nat) (parts : List (Nat × List Byte)) :
    (s.record cls typ arg stamp parts).sys = s.sys ∧ (s.record cls typ arg stamp parts).wdg = s.wdg
      ∧ (s.record cls typ arg stamp parts).hld = s.hld := by
  rcases s.record_cases cls typ arg stamp parts with h | ⟨e, h⟩
  · rw [h]
    exact State.report_sys_wdg (s.irqEnv 2) _ _ _
  · rw [h]
    exact ⟨rfl, rfl, rfl⟩

/-- The reaction that has come before the first fault was known is taken into it. -/
theorem State.ffEarly_of_one {s : State} {f : FirstFault} {m code t : Nat} (hff : s.flt.ff = some f)
    (hearly : s.flt.early = [(f.src, code, t)]) (hm : m ≤ t) :
    (s.ffEarly f.src m).flt.ff = some { f with react := code } ∧ (s.ffEarly f.src m).chans = s.chans := by
  have hone : s.ffEarly f.src m = { s with flt := { s.flt with early := [] } }.ffReact f.src code t := by
    simp [State.ffEarly, hearly, hm]
  rw [hone]
  unfold State.ffReact
  rw [(State.record_sameMarks _ _ _ _ _ _).1]
  exact ⟨congrArg (Option.map fun x : FirstFault => { x with react := code }) hff, (State.record_tabs _ _ _ _ _ _).1⟩

/-! ## The first fault is latched -/

theorem State.latchFirst_of_settled {s u : State} {m : Nat} {f : FirstFault} (hff : s.flt.ff = none)
    (hmin : (s.flt.elig.map (·.stamp)).min? = some m) (hset : s.settledBy m = true) (hfirst : firstOf s.flt.elig m = some f)
    (hu : u = ({ s with flt := { s.flt with ff := some f, elig := [], irq := Irq.set s.flt.irq 1 } }).record 1 0x04 0 m
      [(16, leBytes 4 f.word.toNat), (20, leBytes 4 f.coWord.toNat)]) :
    s.latchFirst = ((u.casUp (.fault u.cas.addr f.src f.level false m)).bbxTrigger 1 f.src m).ffEarly f.src m := by
  subst hu
  unfold State.latchFirst
  rw [if_neg (by simp [hff])]
  simp only [hmin]
  rw [if_neg (by simp [hset])]
  simp only [hfirst]

/-- A level that has decayed: the source is as it was, without its raised level. -/
theorem State.decay_of_due {s : State} {i a : Nat} (hpend : (s.flt.src i).pend = false) (hlast : (s.flt.src i).last = some a)
    (hdue : (s.flt.src i).decayAt ≤ s.now) (hpast : a ≠ s.now) :
    s.decay i = { s with flt := { s.flt with
      srcs := tset {} s.flt.srcs i { s.flt.src i with up := 0, fell := some (s.now, (s.flt.src i).up) } } } := by
  simp only [State.decay, hlast]
  exact if_pos (by simp [hpend, hdue, hpast])

/-! ## The safe state and a self-fault -/

section
variable {p : State} {x : Safe} (hsafe : p.flt.safe = some x)
include hsafe

theorem State.safeAdvance_drained (h2 : x.step = 2) (hdrain : p.hld.drain = none) : p.safeAdvance = p.safeStep 3 := by
  simp [State.safeAdvance, hsafe, h2, hdrain]

theorem State.safeAdvance_revoked (h3 : x.step = 3) (hpermit : p.sec.permit = 0) (hsent : p.revokesSent = true) :
    p.safeAdvance = ((p.safeStep 4).shutDown none 5 x.origin p.now []).settle p.now := by
  simp [State.safeAdvance, hsafe, h3, hpermit, hsent]

theorem State.safeAdvance_down (h4 : x.step = 4) (hdown : p.railsDown = true) : p.safeAdvance = p.safeStep 5 := by
  simp [State.safeAdvance, hsafe, h4, hdown]

theorem State.safeAdvance_record (h5 : x.step = 5) :
    p.safeAdvance = (p.safeStep 6).recordAt 1 0x06 0 x.stamp p.now p.safeParts := by
  simp [State.safeAdvance, hsafe, h5]
end

theorem State.selfFault_of_named {s u : State} {why : Nat} (h1 : 1 ≤ why) (h4 : why ≤ 4)
    (hu : u = { s with flt := { s.flt with selfWhy := why, selfEnd := s.now + Config.selfLen s.now } }) :
    s.selfFault why = ((u.privEvent 3 u.now).safeEnter 2047 u.now).settle u.now := by
  subst hu
  exact (if_neg (by omega)).trans (if_pos ⟨h1, h4⟩)

/-! ## Injection and the log -/

theorem State.inject_of_allowed {s u : State} {i : Nat} (hdbg : s.sec.dbg = .factory) (hlcs : s.lcs = .blank ∨ s.lcs = .returned)
    (hname : srcNamed s.hw.variant i = true) (hu : u = { s with flt := { s.flt with injCode := 0 } }) (wire : Bool) :
    s.inject i wire = if wire then u.wireEvent i s.now true else (u.chanEvent i s.now true).settle s.now := by
  subst hu
  have hopen : ¬ (!(s.sec.dbg == .factory && (s.lcs == .blank || s.lcs == .returned))) = true := by
    rcases hlcs with h | h <;> simp [hdbg, h]
  unfold State.inject
  rw [if_neg hopen, if_neg (by simp [hname])]

theorem State.inject_of_refused {s : State} {i c : Nat}
    (hc : c = (if s.sec.dbg ≠ .factory ∨ (s.lcs ≠ .blank ∧ s.lcs ≠ .returned) then 1
      else if !srcNamed s.hw.variant i then 2 else 0)) (h0 : c ≠ 0) (wire : Bool) :
    s.inject i wire = { s with flt := { s.flt with injCode := c } } := by
  have hcond : (!(s.sec.dbg == .factory && (s.lcs == .blank || s.lcs == .returned))) = true
      ↔ s.sec.dbg ≠ .factory ∨ (s.lcs ≠ .blank ∧ s.lcs ≠ .returned) := by
    simp only [Bool.not_eq_true', Bool.and_eq_false_iff, Bool.or_eq_false_iff, beq_eq_false_iff_ne]
  subst hc
  unfold State.inject
  simp only [hcond]
  split
  · rfl
  · next hopen =>
    rw [if_neg hopen] at h0
    split
    · rfl
    · next hname => simp [hname] at h0

theorem State.flogRead_cons {s : State} {e : FEntry} {r : List FEntry} (hlog : s.flt.log = e :: r) :
    s.flogRead = { s with flt := { s.flt with log := r, logTs := e.stamp } } := by
  simp only [State.flogRead, hlog]

/-- Settles O40. -/
theorem faultCollectorCompletes : Obligations.FaultCollectorCompletes := by
  unfold Obligations.FaultCollectorCompletes
  refine ⟨fun s t i hact ht => ?_, fun s p u m f hact hp hff hmin hset hfirst hu => ?_, fun s i a hact hpend hlast hdue hpast => ?_,
    fun s p u v w g hmin hlast hact hp hstill hu hv hw => ?_, fun s p x hact hp hsafe => ?_, fun s u why hact h1 h4 hu => ?_,
    fun s hact => congrArg Host.Outcome.next (if_pos hact), fun s u l i hw hdbg hlcs hname hu => ⟨?_, ?_⟩,
    fun s l i wire c hw hc h0 => ?_, fun s l e r hses hup hready hrung hisl hlog => ?_,
    fun s l hw => ⟨_, congrArg Host.Outcome.next (State.byHost_of_writer _ hw), rfl, rfl, rfl, rfl⟩,
    fun s f m code t hff hearly hm => State.ffEarly_of_one hff hearly hm⟩
  · subst ht
    exact congrArg Host.Outcome.next (if_pos hact)
  · subst hp
    exact congrArg Host.Outcome.next ((if_pos hact).trans (State.latchFirst_of_settled hff hmin hset hfirst hu))
  · refine ⟨_, congrArg Host.Outcome.next ((if_pos hact).trans (State.decay_of_due hpend hlast hdue hpast)), ?_⟩
    simpa [Flt.src] using hpend
  · have hat : s.itemAt .react HS = some g := (if_pos hact).trans hmin
    subst hv hw
    exact congrArg Host.Outcome.next (State.rowEnds_of_late (by decide) hat hlast hp hstill hu)
  · subst hp
    exact ⟨fun h2 hd => congrArg Host.Outcome.next ((if_pos hact).trans (State.safeAdvance_drained hsafe h2 hd)),
      fun h3 hpermit hsent => congrArg Host.Outcome.next ((if_pos hact).trans (State.safeAdvance_revoked hsafe h3 hpermit hsent)),
      fun h4 hd => congrArg Host.Outcome.next ((if_pos hact).trans (State.safeAdvance_down hsafe h4 hd)),
      fun h5 => congrArg Host.Outcome.next ((if_pos hact).trans (State.safeAdvance_record hsafe h5))⟩
  · exact congrArg Host.Outcome.next ((if_pos hact).trans (State.selfFault_of_named h1 h4 hu))
  · exact congrArg Host.Outcome.next ((State.byHost_of_writer _ hw).trans (State.inject_of_allowed hdbg hlcs hname hu false))
  · exact congrArg Host.Outcome.next ((State.byHost_of_writer _ hw).trans (State.inject_of_allowed hdbg hlcs hname hu true))
  · exact congrArg Host.Outcome.next ((State.byHost_of_writer _ hw).trans (State.inject_of_refused hc h0 wire))
  · exact ⟨_, congrArg Host.Outcome.next ((State.byReader_of_answered _ (by rw [hses]; rfl) hup hready hrung hisl).trans
      (State.flogRead_cons hlog)), rfl, rfl, rfl, rfl⟩

end Sys2Proof.Machine
end

section
/-! PROOFS. The watchdog, WDO and the clock monitor. -/

open Sys2Proof

namespace Sys2Proof.Machine

/-! ## A period begins -/

/-- A new period begins at its tick with the next question; its window is closed. -/
theorem State.wdgPeriod_new (s : State) (t : Nat) :
    (s.wdgPeriod t).start = t ∧ (s.wdgPeriod t).opened = false ∧ (s.wdgPeriod t).q = qNext s.wdg.q
      ∧ (s.wdgPeriod t).nexp = s.wdg.nexp ∧ (s.wdgPeriod t).expAt = s.wdg.expAt
      ∧ (s.wdgPeriod t).expiredSince = s.wdg.expiredSince := by
  unfold State.wdgPeriod
  split <;> exact ⟨rfl, rfl, rfl, rfl, rfl, rfl⟩

/-- A privileged event sets its bit, and its record touches neither the watchdog nor the reset by expiry. -/
theorem State.privEvent_marks (s : State) (which stamp : Nat) :
    (s.privEvent which stamp).flt.priv.testBit (privBit which) = true ∧ (s.privEvent which stamp).wdg = s.wdg
      ∧ (s.privEvent which stamp).flt.expReset = s.flt.expReset := by
  unfold State.privEvent
  dsimp only
  split
  · obtain ⟨-, hpriv, hexp⟩ := State.record_sameMarks { s with flt := s.flt.privSet which stamp } 1 0x07 0 stamp
      [(16, leBytes 1 which)]
    rw [hpriv, hexp, (State.record_sys_wdg _ _ _ _ _ _).2.1]
    exact ⟨testBit_lor_two_pow _ _, rfl, rfl⟩
  · exact ⟨testBit_lor_two_pow _ _, rfl, rfl⟩

/-- The state of an expiry before it settles: WDO, the count, bit 0 of the privileged bits, and the next period. -/
def State.wdgExpired (s : State) (t : Nat) : State :=
  let u := { s with wdg := { s.wdg.pulse t with
    nexp := incTo 255 s.wdg.nexp, irq := Irq.set s.wdg.irq 3, expAt := some t, expiredSince := true
    expEnd := t + s.wdg.wdoMs * tMs } }.privEvent 1 t
  { u with
    wdg := u.wdgPeriod t
    flt := { u.flt with expReset := if wbit s.wdg.cfg 24 && s.running then some t else u.flt.expReset } }

theorem State.wdgExpired_marks (s : State) (t : Nat) :
    (s.wdgExpired t).wdg.nexp = incTo 255 s.wdg.nexp ∧ (s.wdgExpired t).wdg.expAt = some t ∧ (s.wdgExpired t).wdg.start = t
      ∧ (s.wdgExpired t).wdg.expiredSince = true ∧ (s.wdgExpired t).flt.priv.testBit 0 = true
      ∧ (s.wdgExpired t).wdg.q = qNext s.wdg.q
      ∧ (s.wdgExpired t).flt.expReset = if wbit s.wdg.cfg 24 && s.running then some t else s.flt.expReset := by
  obtain ⟨hpriv, hwdg, hexp⟩ := State.privEvent_marks { s with wdg := { s.wdg.pulse t with
    nexp := incTo 255 s.wdg.nexp, irq := Irq.set s.wdg.irq 3, expAt := some t, expiredSince := true
    expEnd := t + s.wdg.wdoMs * tMs } } 1 t
  refine ⟨?_, ?_, ?_, ?_, hpriv, ?_, ?_⟩
  · simp only [State.wdgExpired, State.wdgPeriod_new, hwdg]
  · simp only [State.wdgExpired, State.wdgPeriod_new, hwdg]
  · simp only [State.wdgExpired, State.wdgPeriod_new]
  · simp only [State.wdgExpired, State.wdgPeriod_new, hwdg]
  · simp only [State.wdgExpired, State.wdgPeriod_new, hwdg]
    rfl
  · simp only [State.wdgExpired, hexp]

/-- The state of an accepted service before it settles. -/
def State.wdgServed (s : State) : State :=
  { s with wdg := { s.wdgPeriod s.now with code := 0, irq := Irq.set s.wdg.irq 1, expiredSince := false } }

/-! ## Start and period -/

theorem State.wdgStart_of_level {s : State} {l : Level} (hrun : s.wdg.run = false) (hl : l.ge .operator = true) :
    s.wdgStart l = { s with wdg := { s.wdgPeriod s.now with run := true, code := 0 } } := by
  simp [State.wdgStart, hrun, hl]

theorem State.wdgStart_of_low {s : State} {l : Level} (hrun : s.wdg.run = false) (hl : l.ge .operator = false) :
    s.wdgStart l = { s with wdg := { s.wdg with code := 0xB } } := by
  simp [State.wdgStart, hrun, hl]

theorem State.wdgCatch_of_over {s : State} (hlive : s.wdgLive = true) (hover : s.wdg.start + s.wdg.len ≤ s.now) :
    s.wdgCatch = (s.upTo (s.wdg.start + s.wdg.len) 0).wdgExpire (s.wdg.start + s.wdg.len) := by
  have hdue : dueAt s.wdgDue s.now = some (s.wdg.start + s.wdg.len) := by
    rw [State.wdgDue, if_pos hlive]
    exact dueAt_some hover
  simp only [State.wdgCatch, hdue]

/-! ## Check-ins and services -/

theorem State.wdgAns_of_new {s p : State} {i a : Nat} (hp : p = s.wdgCatch) (hgate : p.wdg.gate true p.now = 0)
    (hchecked : p.wdg.checked.testBit i = false) (hflag : p.wdg.flag.testBit i = false) (hdup : p.wdg.dup.testBit i = false) :
    s.wdgAns i a = if wbit (tget 0 p.wdg.tasks i) 16 ∧ a = wdgAnswer p.wdg.q (fld (tget 0 p.wdg.tasks i) 0 16) i then
        { p with wdg := { p.wdg with checked := Nat.lor p.wdg.checked (2 ^ i), code := 0 } }
      else { p with wdg := { p.wdg with flag := Nat.lor p.wdg.flag (2 ^ i) } }.wdgRefuse 4 := by
  subst hp
  unfold State.wdgAns
  dsimp only
  rw [hgate]
  rw [if_neg (by simp [hchecked, hflag, hdup])]
  have hwrong : (!wbit (tget 0 s.wdgCatch.wdg.tasks i) 16
      || decide (a ≠ wdgAnswer s.wdgCatch.wdg.q (fld (tget 0 s.wdgCatch.wdg.tasks i) 0 16) i)) = true
      ↔ ¬ (wbit (tget 0 s.wdgCatch.wdg.tasks i) 16 = true
        ∧ a = wdgAnswer s.wdgCatch.wdg.q (fld (tget 0 s.wdgCatch.wdg.tasks i) 0 16) i) := by
    rw [Bool.or_eq_true, Bool.not_eq_true', decide_eq_true_eq, ← Bool.not_eq_true, ← not_and_or]
  simp only [hwrong, ite_not]

theorem State.wdgAns_of_double {s p : State} {i : Nat} (hp : p = s.wdgCatch) (hgate : p.wdg.gate true p.now = 0)
    (hdouble : (p.wdg.checked.testBit i || p.wdg.flag.testBit i || p.wdg.dup.testBit i) = true) (a : Nat) :
    s.wdgAns i a = { p with wdg := { p.wdg with dup := Nat.lor p.wdg.dup (2 ^ i) } }.wdgRefuse 3 := by
  subst hp
  unfold State.wdgAns
  dsimp only
  rw [hgate]
  exact if_pos hdouble

theorem State.wdgSvc_of_open {s p : State} {v c : Nat} (hp : p = s.wdgCatch) (hgate : p.wdg.gate true p.now = 0)
    (hc : c = p.wdg.svcCheck v p.sys.taken.win p.now) :
    s.wdgSvc v = if c = 0 then p.wdgAccept else if c = 1 then p.wdgRaise 1 1057
      else ({ p with wdg := { p.wdg with checked := 0, flag := 0, dup := 0 } }).wdgRaise c 1056 := by
  subst hp
  unfold State.wdgSvc
  dsimp only
  rw [hgate]
  rw [← hc]
  match c with
  | 0 => rfl
  | 1 => rfl
  | k + 2 => rfl

/-- What the gate refuses is refused after the expiry that has come. -/
theorem State.wdgGate_refused {s p : State} {c : Nat} (hp : p = s.wdgCatch) (hgate : p.wdg.gate true p.now = c) (h0 : c ≠ 0) :
    (∀ i a : Nat, s.wdgAns i a = p.wdgRefuse c) ∧ ∀ v : Nat, s.wdgSvc v = p.wdgRefuse c := by
  subst hp
  obtain ⟨k, rfl⟩ := Nat.exists_eq_succ_of_ne_zero h0
  exact ⟨fun i a => by simp only [State.wdgAns, hgate], fun v => by simp only [State.wdgSvc, hgate]⟩

/-! ## The keys -/

theorem State.wdgKey_first {s p : State} {key : Nat} (hp : p = s.wdgCatch.keyEnds) (hgate : p.wdg.gate false p.now = 0)
    (hnone : p.wdg.keyAt = none) :
    s.wdgKey key = if p.wdg.failAt = some p.now then p.wdgRefuse 6
      else if key = 0xA5C3 then { p with wdg := { p.wdg with keyAt := some p.now } } else p.keyFails := by
  subst hp
  simp only [State.wdgKey, hgate, hnone]

theorem State.wdgKey_second {s p q : State} {key k : Nat} (hp : p = s.wdgCatch.keyEnds) (hgate : p.wdg.gate false p.now = 0)
    (hkey : p.wdg.keyAt = some k) (hq : q = { p with wdg := { p.wdg with keyAt := none } }) :
    s.wdgKey key = if q.leavesKey then q.wdgRefuse 7 else if key ≠ 0x3C5A then q.keyFails
      else if p.wdg.isOpen p.sys.taken.win p.now then q.wdgAccept else q.wdgRaise 1 1057 := by
  subst hq hp
  simp only [State.wdgKey, hgate, hkey, Bool.not_eq_true', ← Bool.not_eq_true, ite_not]
  rfl

theorem State.wdgKey_of_refused {s p : State} {c : Nat} (hp : p = s.wdgCatch.keyEnds) (hgate : p.wdg.gate false p.now = c)
    (h0 : c ≠ 0) (key : Nat) : s.wdgKey key = p.wdgRefuse c := by
  subst hp
  obtain ⟨k, rfl⟩ := Nat.exists_eq_succ_of_ne_zero h0
  simp only [State.wdgKey, hgate]

/-- The second key has not come within 10 µs of the first. -/
theorem State.keyEnds_of_late {s : State} {k : Nat} (hlive : s.wdgLive = true) (hkey : s.wdg.keyAt = some k) (hlate : k + 1000 ≤ s.now) :
    s.keyEnds = ((({ s with wdg := { s.wdg with keyAt := none, failAt := some (k + 1000) } }).wdgRefuse 6).report 1056
      (k + 1000)).settle (k + 1000) := by
  simp only [State.keyEnds, hkey]
  exact if_pos ⟨hlate, hlive⟩

/-! ## The clock monitor -/

theorem State.clkWindow_of_good {s : State} {n : Nat} (harmed : s.wdg.armed = true) (hlo : 800 ≤ n) (hhi : n ≤ 1200) :
    s.clkWindow n false = { s with wdg := { s.wdg with last := n, clkCause := false } } := by
  unfold State.clkWindow
  rw [if_neg (by simp [harmed])]
  exact if_neg (by simp; omega)

theorem State.clkWindow_of_bad {s : State} {n : Nat} {e : Bool} (harmed : s.wdg.armed = true) (hbad : n < 800 ∨ 1200 < n ∨ e = true) :
    s.clkWindow n e = { s with wdg := { s.wdg with last := n } }.clkLost := by
  unfold State.clkWindow
  rw [if_neg (by simp [harmed])]
  exact if_pos hbad

theorem State.clkLost_marks (s : State) :
    s.clkLost.sys.mainClock = false ∧ s.clkLost.wdg = { s.wdg.pulse s.now with clkCause := true, armed := false }
      ∧ s.clkLost.flt.priv.testBit 1 = true := by
  obtain ⟨hpriv, hwdg, -⟩ :=
    State.privEvent_marks { s with wdg := { s.wdg.pulse s.now with clkCause := true, armed := false } } 2 s.now
  exact ⟨rfl, hwdg, hpriv⟩

/-- Settles O41. -/
theorem watchdogCompletes : Obligations.WatchdogCompletes := by
  unfold Obligations.WatchdogCompletes
  refine ⟨fun s l hw hrun => ?_, fun s hlive hopen hnew => ?_,
    fun s hlive hover => congrArg Host.Outcome.next (State.wdgCatch_of_over hlive hover),
    fun s t => ⟨s.wdgExpired t, rfl, s.wdgExpired_marks t⟩, fun s p l next hw hp => ?_,
    fun s p l i a hw hp hgate hchecked hflag hdup => congrArg Host.Outcome.next ((State.byHost_of_writer _ hw).trans
      (State.wdgAns_of_new hp hgate hchecked hflag hdup)),
    fun s p l i a hw hp hgate hdouble => congrArg Host.Outcome.next ((State.byHost_of_writer _ hw).trans
      (State.wdgAns_of_double hp hgate hdouble _)), fun s p l i a v c hp hgate h0 => ?_,
    fun s p l v c hw hp hgate hc => congrArg Host.Outcome.next ((State.byHost_of_writer _ hw).trans (State.wdgSvc_of_open hp hgate hc)),
    fun s => ⟨s.wdgServed, rfl, (s.wdgPeriod_new s.now).1, rfl, (s.wdgPeriod_new s.now).2.2.1, rfl, Irq.set_getLsbD (by decide), rfl, rfl⟩,
    fun s p l key hw hp hgate hnone => ?_, fun s p q l key k hw hp hgate hkey hq => ?_,
    fun s p l key c hw hp hgate h0 => congrArg Host.Outcome.next ((State.byHost_of_writer _ hw).trans
      (State.wdgKey_of_refused hp hgate h0 _)),
    fun s k hlive hkey hlate => ⟨_, rfl, congrArg Host.Outcome.next (State.keyEnds_of_late hlive hkey hlate)⟩,
    fun s e hend he => ⟨_, rfl, by simp [hend, Option.filter, Nat.not_lt.mpr he], rfl, rfl, rfl⟩,
    fun s n harmed hlo hhi => ⟨_, congrArg Host.Outcome.next (State.clkWindow_of_good harmed hlo hhi), rfl, rfl, rfl, rfl, rfl⟩,
    fun s n e harmed hbad => ?_⟩
  · cases hl : l.ge .operator
    · exact ⟨_, congrArg Host.Outcome.next ((State.byHost_of_writer _ hw).trans (State.wdgStart_of_low hrun hl)), rfl, rfl,
        nofun, fun _ => rfl⟩
    · exact ⟨_, congrArg Host.Outcome.next ((State.byHost_of_writer _ hw).trans (State.wdgStart_of_level hrun hl)), rfl, rfl,
        fun _ => ⟨rfl, (s.wdgPeriod_new s.now).1, (s.wdgPeriod_new s.now).2.1, rfl⟩, nofun⟩
  · exact ⟨_, congrArg Host.Outcome.next (if_pos (by simp [hlive, hopen, hnew])), rfl, Irq.set_getLsbD (by decide), rfl, rfl⟩
  · subst hp
    refine congrArg Host.Outcome.next ((State.byHost_of_writer _ hw).trans ?_)
    have hzero : next = 0 ↔ next.toNat = 0 := BitVec.toNat_inj.symm
    simp only [hzero]
    rfl
  · obtain ⟨hans, hsvc⟩ := State.wdgGate_refused hp hgate h0
    exact ⟨fun hw => congrArg Host.Outcome.next ((State.byHost_of_writer _ hw).trans (hans _ _)),
      fun hw => congrArg Host.Outcome.next ((State.byHost_of_writer _ hw).trans (hsvc _))⟩
  · have hkey : key = 0xA5C3 ↔ key.toNat = 0xA5C3 := BitVec.toNat_inj.symm
    simp only [hkey]
    exact congrArg Host.Outcome.next ((State.byHost_of_writer _ hw).trans (State.wdgKey_first hp hgate hnone))
  · have hword : key ≠ 0x3C5A ↔ key.toNat ≠ 0x3C5A := not_congr BitVec.toNat_inj.symm
    simp only [hword]
    exact congrArg Host.Outcome.next ((State.byHost_of_writer _ hw).trans (State.wdgKey_second hp hgate hkey hq))
  · obtain ⟨hclock, hwdg, hpriv⟩ := State.clkLost_marks { s with wdg := { s.wdg with last := n } }
    exact ⟨_, congrArg Host.Outcome.next (State.clkWindow_of_bad harmed hbad), hclock, congrArg Wdg.armed hwdg,
      congrArg Wdg.clkCause hwdg, congrArg Wdg.wdoEnd hwdg, hpriv⟩

end Sys2Proof.Machine
end

section
/-! PROOFS. Host access to the ENV store. -/

open Sys2Proof

namespace Sys2Proof.Machine

/-! ## Reading a line -/

/-- A line that passes its check is read without a report; its bytes and its marker stay. -/
theorem State.readLine_of_good {s : State} {f : LineFlaws} {a : Nat} (h : s.env.check f a = none) :
    s.readLine f a = { s with env := s.env.note f a } := by
  simp only [State.readLine, h]

theorem Env.note_store (e : Env) (f : LineFlaws) (a : Nat) : (e.note f a).cells = e.cells ∧ (e.note f a).marked = e.marked := by
  unfold Env.note
  split <;> exact ⟨rfl, rfl⟩

/-- READ: the checked line comes into the buffer. -/
theorem State.accRead_eq {s r : State} {f : LineFlaws} (hr : r = s.readLine f s.env.accAddr) :
    s.accRead f = { r with env := { r.env with
      buf := putBytes [] 0 (if s.env.check f s.env.accAddr = some .ecc then List.replicate 64 0 else s.env.lineAt s.env.accAddr)
      accCode := if tget false s.env.marked s.env.accAddr = false then 1
        else match s.env.check f s.env.accAddr with | some .tag => 2 | some _ => 3 | none => 0
      irq := Irq.set r.env.irq 4 } } := by
  subst hr
  simp only [State.accRead, Bool.not_eq_true'] <;> rfl

/-- WRITE_FULL: the line write begins, unless the old line fails its check and the session is below OWNER. -/
theorem State.accWrite_full {s r : State} {l : Level} {f : LineFlaws} (hr : r = s.readLine f s.env.accAddr) :
    s.accWrite true l f = if s.env.check f s.env.accAddr = none ∨ l.ge .owner = true then r.accBegin s.env.bufBytes
      else { r with env := { r.env with accCode := if s.env.check f s.env.accAddr = some .tag then 2 else 3 } } := by
  subst hr
  unfold State.accWrite
  dsimp only
  generalize s.readLine f s.env.accAddr = r
  cases s.env.check f s.env.accAddr <;> simp

/-- WRITE_PART: the line write begins with the merged bytes, unless the old line fails its check. -/
theorem State.accWrite_part {s r : State} {l : Level} {f : LineFlaws} (hr : r = s.readLine f s.env.accAddr) :
    s.accWrite false l f = if s.env.check f s.env.accAddr = none then r.accBegin (s.env.merged (s.env.lineAt s.env.accAddr))
      else { r with env := { r.env with accCode := if s.env.check f s.env.accAddr = some .tag then 2 else 3 } } := by
  subst hr
  unfold State.accWrite
  dsimp only
  generalize s.readLine f s.env.accAddr = r
  cases s.env.check f s.env.accAddr <;> simp

/-! ## The command register -/

/-- The response of an access carries its code. -/
def State.accAnswer (s v : State) : State := v.answerOk s.now (if v.env.accCode = 0 then 0 else 9) v.env.accCode []

/-- An access that nothing refuses is carried out and answered. -/
theorem State.accHost_of_accepted {s u : State} {c : AccCmd} {l : Level} {f : LineFlaws} (hok : s.accRefusal c l = 0)
    (hu : u = match c with | .read => s.accRead f | .full => s.accWrite true l f | .part => s.accWrite false l f) :
    s.accHost c l f = s.accAnswer (u.settle s.now) := by
  subst hu
  cases c <;> simp only [State.accHost, State.accCmd, hok, State.accAnswer]

theorem State.accHost_of_refused {s : State} {c : AccCmd} {l : Level} {f : LineFlaws} {k : Nat} (hk : s.accRefusal c l = k)
    (h0 : k ≠ 0) : s.accHost c l f = ({ s with env := { s.env with accCode := k } }).answerOk s.now 9 k [] := by
  obtain ⟨j, rfl⟩ := Nat.exists_eq_succ_of_ne_zero h0
  simp only [State.accHost, State.accCmd, hk]
  rfl

/-- Settles O42. -/
theorem envAccessCompletes : Obligations.EnvAccessCompletes := by
  unfold Obligations.EnvAccessCompletes
  refine ⟨fun s r u v l f hw hok hr hu hv => ?_, fun s r u v l f hw hok hr hu hv => ?_, fun s r u v l f hw hok hr hu hv => ?_,
    fun s l f c k hw hk h0 => ?_, fun s f a h => ?_, fun s o g ho hg hdue hup => ⟨_, exec_envLineWriteDone ho hg hdue hup,
      rfl, rfl, rfl, rfl, rfl⟩⟩
  · subst hv
    exact congrArg Host.Outcome.next ((State.byHost_of_writer _ hw).trans
      (State.accHost_of_accepted hok (hu.trans (State.accRead_eq hr).symm)))
  · subst hv
    exact congrArg Host.Outcome.next ((State.byHost_of_writer _ hw).trans
      (State.accHost_of_accepted hok (hu.trans (State.accWrite_full hr).symm)))
  · subst hv
    exact congrArg Host.Outcome.next ((State.byHost_of_writer _ hw).trans
      (State.accHost_of_accepted hok (hu.trans (State.accWrite_part hr).symm)))
  · have hrefused := (State.byHost_of_writer (fun l => s.accHost c l f) hw).trans (State.accHost_of_refused hk h0)
    cases c <;> exact congrArg Host.Outcome.next hrefused
  · rw [State.readLine_of_good h]
    exact ⟨rfl, s.env.note_store f a⟩

end Sys2Proof.Machine
end

section
/-! PROOFS. The journal and the black box. -/

open Sys2Proof

namespace Sys2Proof.Machine

/-! ## Records and hours -/

/-- What a record's marker does to the state `p` of its tick. -/
def State.recMarked (p : State) (w : JWrite) (t : Nat) : State :=
  let l := recLine p.env.run w.seq w.rec_
  let e := p.env.putLine (logAddr p.hw.variant w.line) l
  let x := { p with env := { e with writing := none, jseq := w.seq, jline := (w.line + 1) % logLines p.hw.variant } }
  let u := (x.markRec l t).harvestAuto p.segUsed
  { u with env := (u.env.kick p.hw.variant u.storeUp t).grant p.hw.variant t }.settle t

theorem State.recAppend_eq {w : JWrite} {g : Nat} (s : State) (hw : s.env.writing = some w)
    (hfilter : (w.granted.filter fun g => s.storeUp && decide (g + lineTime ≤ s.now)) = some g) :
    s.recAppend = (s.upTo (g + lineTime) 0).recMarked w (g + lineTime) := by
  unfold State.recAppend State.recMarked
  split
  · next h => cases hw.symm.trans h
  · next d h =>
    obtain rfl : w = d := Option.some.inj (hw.symm.trans h)
    split
    · next h => cases hfilter.symm.trans h
    · next k h =>
      obtain rfl : g = k := Option.some.inj (hfilter.symm.trans h)
      rfl

theorem State.recAppend_of_due {s p e u : State} {w : JWrite} {g t : Nat} (hw : s.env.writing = some w) (hg : w.granted = some g)
    (hup : s.storeUp = true) (ht : t = g + lineTime) (hdue : t ≤ s.now) (hp : p = s.upTo t 0)
    (he : e = { p with env := { p.env.putLine (logAddr p.hw.variant w.line) (recLine p.env.run w.seq w.rec_) with
        writing := none, jseq := w.seq, jline := (w.line + 1) % logLines p.hw.variant } })
    (hu : u = (e.markRec (recLine p.env.run w.seq w.rec_) t).harvestAuto p.segUsed) :
    s.recAppend = { u with env := (u.env.kick p.hw.variant u.storeUp t).grant p.hw.variant t }.settle t := by
  subst ht
  have hfilter : (w.granted.filter fun g => s.storeUp && decide (g + lineTime ≤ s.now)) = some g := by
    simp [hg, hup, hdue, Option.filter]
  rw [s.recAppend_eq hw hfilter, ← hp, hu, he]
  rfl

theorem State.countPeriod_of_due {s u : State} {t : Nat} (hrun : s.running = true) (hnext : s.env.cntNext = some t) (ht : t ≤ s.now)
    (hper : fld s.env.jcfg 0 8 ≠ 0)
    (hu : u = { s with env := { s.env with cntNext := some (t + fld s.env.jcfg 0 8 * 60 * tSec) } }) :
    s.countPeriod = u.countRecords t := by
  subst hu
  simp only [State.countPeriod, hnext, dueAt_some ht]
  exact if_pos (by simp [hrun, hper])

/-! ## Harvest -/

theorem State.harvestReq_of_idle {s : State} {l : Level} (hl : l.ge .operator = true) (hidle : s.env.harvest = none)
    (hup : s.storeUp = true) : s.harvestReq l = { s with env := { s.env with code := 0 } }.harvestBegin := by
  unfold State.harvestReq
  rw [if_neg (by simp [hl])]
  refine if_neg ?_
  rw [hidle]
  show ¬ (false || !s.storeUp) = true
  rw [hup]
  decide

theorem State.harvestReq_of_busy {s : State} {l : Level} (hl : l.ge .operator = true)
    (hbusy : s.env.harvest.isSome = true ∨ s.storeUp = false) : s.harvestReq l = { s with env := { s.env with code := 0 } } := by
  unfold State.harvestReq
  rw [if_neg (by simp [hl])]
  refine if_pos ?_
  show (s.env.harvest.isSome || !s.storeUp) = true
  rcases hbusy with h | h <;> simp [h]

theorem State.harvestReq_of_low {s : State} {l : Level} (hl : l.ge .operator = false) :
    s.harvestReq l = { s with env := { s.env with code := 1 } } := if_pos (by simp [hl])

/-- A request leaves the queue of records. -/
theorem State.harvestReq_queue (s : State) (l : Level) :
    (s.harvestReq l).env.queue = s.env.queue ∧ (s.harvestReq l).chans = s.chans ∧ (s.harvestReq l).flt = s.flt := by
  unfold State.harvestReq
  dsimp only
  (repeat' split) <;> exact ⟨rfl, rfl, rfl⟩

theorem State.harvestEnds_of_open {s r e x u : State} {f : LineFlaws} {base run k : Nat} {recs : List (List Byte)}
    (hbase : s.env.harvest = some base) (hup : s.storeUp = true) (hk : k = 1 - s.env.ckpt)
    (hrecs : recs = ((s.env.readable s.hw.variant f).filter fun y => decide (lSeq y.2 ≤ base)).map (·.2))
    (hrun : run = ((newest recs [0x01]).map lRun).getD 0)
    (hr : r = ((s.env.held s.hw.variant).filter fun y => decide (lSeq y.2 ≤ base)).foldl (fun z y => z.readLine f y.1) s)
    (he : e = { r with env := { r.env.ckWrite s.hw.variant k (r.env.gen + 1) base (harvestPick run [] recs) with harvest := none } })
    (hx : x = (e.env.ckAddrs s.hw.variant k).foldl (fun y a => y.readLine f a) e)
    (hu : u = if x.env.ckValid s.hw.variant f k then
        { x with env := { x.env.retire s.hw.variant base with
          ckpt := k, gen := x.env.gen + 1, base := base, irq := Irq.set x.env.irq 0 } }
      else { x with env := { x.env with hfail := incTo 0xFF x.env.hfail, harvRetry := true, irq := Irq.set x.env.irq 1 } }) :
    s.harvestEnds f = u.settle u.now := by
  subst hu hx he hr hrun hrecs hk
  simp only [State.harvestEnds, hbase]
  exact if_neg (by simp [hup])

/-! ## The reader -/

/-- The store's bytes, the reader's place and the channels are the same. -/
def State.SameReader (t s : State) : Prop :=
  t.env.cells = s.env.cells ∧ t.env.jrdFrom = s.env.jrdFrom ∧ t.chans = s.chans

theorem State.SameReader.trans {a b c : State} (hab : a.SameReader b) (hbc : b.SameReader c) : a.SameReader c :=
  ⟨hab.1.trans hbc.1, hab.2.1.trans hbc.2.1, hab.2.2.trans hbc.2.2⟩

theorem Env.note_jrdFrom (e : Env) (f : LineFlaws) (a : Nat) : (e.note f a).jrdFrom = e.jrdFrom := by
  unfold Env.note
  split <;> rfl

theorem State.countSrc_sameReader (s : State) (i : Nat) (masked : Bool) : (s.countSrc i masked).SameReader s := by
  unfold State.countSrc
  dsimp only
  (repeat' split) <;> exact ⟨rfl, rfl, rfl⟩

theorem State.report_sameReader (s : State) (i stamp : Nat) (inj : Bool) : (s.report i stamp inj).SameReader s := by
  unfold State.report
  split
  · exact ⟨rfl, rfl, rfl⟩
  · exact s.countSrc_sameReader i _

theorem State.readLine_sameReader (s : State) (f : LineFlaws) (a : Nat) : (s.readLine f a).SameReader s := by
  have hnote : { s with env := s.env.note f a }.SameReader s :=
    ⟨(s.env.note_store f a).1, s.env.note_jrdFrom f a, rfl⟩
  unfold State.readLine
  dsimp only
  split
  · exact (State.report_sameReader _ _ _ _).trans hnote
  · exact hnote

theorem State.foldl_readLine_sameReader (s : State) (f : LineFlaws) (l : List (Nat × List Byte)) :
    (l.foldl (fun s x => s.readLine f x.1) s).SameReader s :=
  foldl_of State.SameReader (fun _ => ⟨rfl, rfl, rfl⟩) State.SameReader.trans _ (fun s x => s.readLine_sameReader f x.1) l s

/-- The reader's hit among the records it has not passed: the first that passes its check. -/
theorem Env.jrdHit_eq (e : Env) (v : Variant) (f : LineFlaws) :
    (((e.held v).filter fun x => decide (e.jrdFrom ≤ lSeq x.2)).find? fun x => !(e.check f x.1).isSome)
      = (e.held v).find? fun y => decide (e.jrdFrom ≤ lSeq y.2) && (e.check f y.1).isNone := by
  rw [List.find?_filter]
  congr 1
  funext x
  cases e.check f x.1 <;> simp

/-- The lines the reader reads on a load: the ones that fail their check, then its hit. -/
def State.jrdRead (s : State) (f : LineFlaws) : List (Nat × List Byte) :=
  let l := (s.env.held s.hw.variant).filter fun x => decide (s.env.jrdFrom ≤ lSeq x.2)
  (l.takeWhile fun x => (s.env.check f x.1).isSome) ++ (l.find? fun x => !(s.env.check f x.1).isSome).toList

/-- The reader's place after a load, of the state `r` that has read the lines. -/
def State.jrdAt (r : State) (from_ : Nat) : Option (Nat × List Byte) → State
  | some x => { r with env := { r.env with
      jrd := some (lSeq x.2, x.2), jrdFrom := lSeq x.2 + 1, jrdSkip := r.env.jrdSkip || decide (max 1 from_ < lSeq x.2) } }
  | none => { r with env := { r.env with jrd := none } }

theorem State.jrdLoad_eq (s : State) (f : LineFlaws) :
    s.jrdLoad f = ((s.jrdRead f).foldl (fun s x => s.readLine f x.1) s).jrdAt s.env.jrdFrom
      (((s.env.held s.hw.variant).filter fun x => decide (s.env.jrdFrom ≤ lSeq x.2)).find? fun x => !(s.env.check f x.1).isSome) := by
  unfold State.jrdLoad State.jrdAt State.jrdRead
  rfl

/-- The reader loads the next record that passes its check. -/
theorem State.jrdLoad_of_hit {s : State} {f : LineFlaws} {x : Nat × List Byte}
    (hx : ((s.env.held s.hw.variant).find? fun y => decide (s.env.jrdFrom ≤ lSeq y.2) && (s.env.check f y.1).isNone) = some x) :
    (s.jrdLoad f).env.jrd = some (lSeq x.2, x.2) ∧ (s.jrdLoad f).env.jrdFrom = lSeq x.2 + 1
      ∧ (s.jrdLoad f).env.cells = s.env.cells ∧ (s.jrdLoad f).chans = s.chans := by
  rw [← Env.jrdHit_eq] at hx
  obtain ⟨hcells, -, hchans⟩ := s.foldl_readLine_sameReader f (s.jrdRead f)
  rw [State.jrdLoad_eq, hx]
  exact ⟨rfl, rfl, hcells, hchans⟩

/-- With no record left the reader shows none and stays where it is. -/
theorem State.jrdLoad_of_none {s : State} {f : LineFlaws}
    (hx : ((s.env.held s.hw.variant).find? fun y => decide (s.env.jrdFrom ≤ lSeq y.2) && (s.env.check f y.1).isNone) = none) :
    (s.jrdLoad f).env.jrd = none ∧ (s.jrdLoad f).env.jrdFrom = s.env.jrdFrom ∧ (s.jrdLoad f).env.cells = s.env.cells := by
  rw [← Env.jrdHit_eq] at hx
  obtain ⟨hcells, hfrom, -⟩ := s.foldl_readLine_sameReader f (s.jrdRead f)
  rw [State.jrdLoad_eq, hx]
  exact ⟨rfl, hfrom, hcells⟩

/-- Settles O43. -/
theorem journalCompletes : Obligations.JournalCompletes := by
  unfold Obligations.JournalCompletes
  refine ⟨fun s p e u w g t hw hg hup ht hdue hp he hu => congrArg Host.Outcome.next (State.recAppend_of_due hw hg hup ht hdue hp he hu),
    fun s u hup hpart hu => ?_, fun s hpart => congrArg Host.Outcome.next (if_neg (by simp [Nat.not_le.mpr hpart])),
    fun s u t hrun hnext ht hper hu => congrArg Host.Outcome.next (State.countPeriod_of_due hrun hnext ht hper hu), fun s l hw => ?_,
    fun s r e x u f base run k recs hbase hup hk hrecs hrun hr he hx hu =>
      congrArg Host.Outcome.next (State.harvestEnds_of_open hbase hup hk hrecs hrun hr he hx hu),
    fun s l seq hw => congrArg Host.Outcome.next (State.byHost_of_writer _ hw),
    fun s l hw => congrArg Host.Outcome.next (State.byHost_of_writer _ hw), fun s f x hx => State.jrdLoad_of_hit hx,
    fun s f hx => State.jrdLoad_of_none hx⟩
  · subst hu
    exact congrArg Host.Outcome.next (if_pos (by simp [hup, hpart]))
  · obtain ⟨hqueue, hchans, hflt⟩ := s.harvestReq_queue l
    refine ⟨_, congrArg Host.Outcome.next (State.byHost_of_writer _ hw), hqueue, hchans, hflt, fun hl hidle hup => ?_,
      State.harvestReq_of_busy, State.harvestReq_of_low⟩
    rw [State.harvestReq_of_idle hl hidle hup]
    exact ⟨rfl, rfl⟩

/-! ## The black box -/

theorem State.bbxTrig_eq (s : State) (l : Level) :
    s.bbxTrig l = if l.ge .operator then { s with bbx := { s.bbx with code := 0 } }.bbxTrigger 4 0xFFFF s.now
      else { s with bbx := { s.bbx with code := 1 } } := by
  unfold State.bbxTrig
  cases l.ge .operator <;> rfl

theorem State.bbxRelease_of_owner {s u : State} {l : Level} (hl : l.ge .owner = true) (hprot : s.bbx.protNum ≠ 0)
    (hu : u = { s with bbx := { s.bbx with code := 0, relAt := if 90 ≤ s.segUsed then s.bbx.relAt else some s.now } }) :
    s.bbxRelease l = u.record 2 0x0E 0 s.now [(16, leBytes 4 s.bbx.protNum)] := by
  subst hu
  unfold State.bbxRelease
  rw [if_neg (by simp [hl]), if_neg hprot]

theorem State.bbxRelease_of_refused {s : State} {l : Level} (h : l.ge .owner = false ∨ s.bbx.protNum = 0) :
    s.bbxRelease l = { s with bbx := { s.bbx with code := if l.ge .owner then 2 else 1 } } := by
  unfold State.bbxRelease
  cases hl : l.ge .owner with
  | false => rfl
  | true =>
    have hprot : s.bbx.protNum = 0 := h.resolve_left (by simp [hl])
    rw [if_neg (by decide), if_pos hprot]
    rfl

/-- The record of a release ends it. -/
theorem State.markRec_release {l : List Byte} (hl : lTyp l = 0x0E) (s : State) (t : Nat) :
    s.markRec l t = { s with bbx := { s.bbx.restore l with relAt := none } } := by
  simp only [State.markRec, hl]

theorem State.captureWritten_of_ready {s u : State} {c : Capture} (hcap : s.bbx.cap = some c) (hstate : c.state = 2)
    (hrun : s.running = true)
    (hu : u = { s with
      env := s.env.putRound (bbxRegion s.hw.variant).1 (bbxRegion s.hw.variant).2 c.addr
        (linesOf ((s.bbx.image s.hw.variant c).length / 64 + 1) (s.bbx.image s.hw.variant c))
      bbx := if 90 ≤ s.segUsed then s.bbx.restart else { s.bbx with cap := some { c with state := 3 } } }) :
    s.captureWritten = u.recordAt 2 0x0D 0 c.stamp s.now [(16, leBytes 4 c.num), (20, leBytes 4 c.addr),
      (24, leBytes 4 ((s.bbx.image s.hw.variant c).length / 64)), (28, leBytes 1 c.kind),
      (29, leBytes 1 (b2n c.prot + 2 * b2n c.summ)), (30, leBytes 2 c.src)] := by
  subst hu
  unfold State.captureWritten
  split
  · next h => rw [hcap] at h; cases h
  · next d h =>
    obtain rfl : d = c := Option.some.inj (h.symm.trans hcap)
    rw [if_pos ⟨hstate, hrun⟩]
    simp only [decide_eq_true_eq] <;> rfl

/-- Settles O44. -/
theorem blackBoxCompletes : Obligations.BlackBoxCompletes := by
  unfold Obligations.BlackBoxCompletes
  refine ⟨fun s u i hi hrun hu => ?_,
    fun s l hw => congrArg Host.Outcome.next ((State.byHost_of_writer _ hw).trans (s.bbxTrig_eq l)),
    fun s u l hw hl hprot hu => congrArg Host.Outcome.next ((State.byHost_of_writer _ hw).trans (State.bbxRelease_of_owner hl hprot hu)),
    fun s l hw h => congrArg Host.Outcome.next ((State.byHost_of_writer _ hw).trans (State.bbxRelease_of_refused h)),
    fun s t l hl => ?_,
    fun s u c hcap hstate hrun hu => congrArg Host.Outcome.next (State.captureWritten_of_ready hcap hstate hrun hu)⟩
  · subst hu
    exact congrArg Host.Outcome.next ((if_pos hi).trans (congrArg (State.settle · s.now) (if_pos hrun)))
  · rw [State.markRec_release hl]
    exact ⟨rfl, rfl, rfl⟩

end Sys2Proof.Machine
end

section
/-! PROOFS. Reloads and replacements, the ports of the cascade. -/

open Sys2Proof

namespace Sys2Proof.Machine

/-! ## LOAD and APPLY -/

theorem State.loadReq_of_accepted {s : State} {l : Level} {force : Nat} {both : Bool} (h : s.loadCheck l force both = 0) :
    s.loadReq l force both = { s with
      sys := { s.sys with phase := .s4, okA := false, okB := false, errA := 0, errB := 0 }
      cfg := { s.cfg with busy := true, op := 1, force := force, fromRecovery := s.sys.phase == .recovery, code := 0 } } := by
  unfold State.loadReq
  split
  · rfl
  · next c hc => exact absurd h hc

theorem State.loadReq_of_refused {s : State} {l : Level} {force c : Nat} {both : Bool} (h : s.loadCheck l force both = c) (hc : c ≠ 0) :
    s.loadReq l force both = s.cfgRefuse c := by
  unfold State.loadReq
  split
  · next h0 => exact absurd (h.symm.trans h0) hc
  · rw [h]

theorem State.applyReq_of_accepted {s : State} {l : Level} {both : Bool} (h : s.applyCheck l both = 0) :
    s.applyReq l both = { s with cfg := { s.cfg with busy := true, op := 2, code := 0, rtBase := s.cfg.rtAddr } } := by
  unfold State.applyReq
  split
  · rfl
  · next c hc => exact absurd h hc

theorem State.applyReq_of_refused {s : State} {l : Level} {c : Nat} {both : Bool} (h : s.applyCheck l both = c) (hc : c ≠ 0) :
    s.applyReq l both = s.cfgRefuse c := by
  unfold State.applyReq
  split
  · next h0 => exact absurd (h.symm.trans h0) hc
  · rw [h]

/-! ## The end of a reload and of a verification -/

theorem State.reloadEnds_of_s4 {s r : State} {f : LineFlaws} {k : Option Nat} (hre : s.reloading = true) (hph : s.sys.phase = .s4)
    (hup : s.ctrlUp = true) (hslot : s.chooseSlot f false (match s.cfg.force with | 1 => [1] | 2 => [2] | _ => [1, 2]) = (r, k)) :
    s.reloadEnds f = match (generalizing := false) k with | some n => r.reloadS5 n | none => r.reloadFails := by
  unfold State.reloadEnds
  rw [if_pos (by simp [hre, hph, hup])]
  exact congrArg (fun x : State × Option Nat => match x.2 with | some n => x.1.reloadS5 n | none => x.1.reloadFails) hslot

theorem State.reloadReady_of_sampled {s : State} (hre : s.reloading = true) (hph : s.sys.phase = .s5) (hup : s.ctrlUp = true)
    (hsam : s.sampled = true) : s.reloadReady = s.reloadOk := if_pos (by simp [hre, hph, hup, hsam])

theorem State.reloadEnds_of_s5 {s : State} (f : LineFlaws) (hph : s.sys.phase = .s5) : s.reloadEnds f = s.reloadReady :=
  if_neg (by simp [hph])

/-- What a verification with the findings `o` does to the state `v` that has read its lines. -/
def State.rtJudged (v : State) (e : Env) : Option Rej → State
  | some y => (({ v with cfg := { v.cfg with busy := false, code := 5 } }).reject y false).settle v.now
  | none => { v with cfg := { v.cfg with rtImg := some e } }

theorem State.rtEnds_of_busy {s r : State} {f : LineFlaws} {m : Img} {x : List Nat × Option Rej} (hbusy : s.cfg.busy = true)
    (hop : s.cfg.op = 2) (himg : s.cfg.rtImg = none) (hup : s.ctrlUp = true) (hm : m = { env := s.env, base := s.cfg.rtBase })
    (hr : r = s.readLine f m.base)
    (hx : x = (match r.readHead m f true (regionEnd r.hw.variant .user - m.base) with
      | some y => ([], some y) | none => r.verify m f true)) :
    s.rtEnds f = (x.1.foldl (fun z a => z.readLine f a) r).rtJudged s.env x.2 := by
  subst hx hr hm
  unfold State.rtEnds State.rtJudged
  exact if_pos (by simp [hbusy, hop, himg, hup])

theorem State.rtTick_of_img {s : State} {e : Env} (h : s.cfg.rtImg = some e) :
    s.rtTick = (if s.anyTransitional then (({ s with cfg := { s.cfg with busy := false, rtImg := none } }).cfgRefuse 3).settle s.now
      else (s.rtTake { env := e, base := s.cfg.rtBase }).settle s.now).rails.foldl State.servoDue
        (if s.anyTransitional then (({ s with cfg := { s.cfg with busy := false, rtImg := none } }).cfgRefuse 3).settle s.now
          else (s.rtTake { env := e, base := s.cfg.rtBase }).settle s.now) := by
  unfold State.rtTick
  split
  · next h0 => cases h.symm.trans h0
  · next d h0 =>
    obtain rfl : e = d := Option.some.inj (h.symm.trans h0)
    rfl

/-- Settles O45. -/
theorem configurationCompletes : Obligations.ConfigurationCompletes := by
  unfold Obligations.ConfigurationCompletes
  refine ⟨fun s l force hw h => ?_, fun s l force c hw h hc => ?_, fun s r u f k slots hre hph hup hs hslot hu => ?_,
    fun s k => ⟨rfl, rfl, rfl⟩, fun s f hre hph hup hsam => ⟨?_, ?_⟩, fun s l hw h => ?_, fun s l c hw h hc => ?_,
    fun s r v f m x hbusy hop himg hup hm hr hx hv => ?_, fun s u e h hu => hu ▸ State.rtTick_of_img h⟩
  · exact ⟨_, congrArg Host.Outcome.next ((State.byHost_of_writer _ hw).trans (State.loadReq_of_accepted h)),
      rfl, rfl, rfl, rfl, rfl, rfl, rfl, rfl, rfl⟩
  · exact congrArg Host.Outcome.next ((State.byHost_of_writer _ hw).trans (State.loadReq_of_refused h hc))
  · subst hs hu
    refine congrArg Host.Outcome.next ((State.reloadEnds_of_s4 hre hph hup hslot).trans ?_)
    cases k <;> rfl
  · exact congrArg Host.Outcome.next ((if_pos hre).trans (State.reloadReady_of_sampled hre hph hup hsam))
  · exact congrArg Host.Outcome.next ((s.reloadEnds_of_s5 f hph).trans (State.reloadReady_of_sampled hre hph hup hsam))
  · exact ⟨_, congrArg Host.Outcome.next ((State.byHost_of_writer _ hw).trans (State.applyReq_of_accepted h)),
      rfl, rfl, rfl, rfl, rfl, rfl, rfl, rfl⟩
  · exact congrArg Host.Outcome.next ((State.byHost_of_writer _ hw).trans (State.applyReq_of_refused h hc))
  · subst hv
    have heq := State.rtEnds_of_busy hbusy hop himg hup hm hr hx
    refine ⟨fun hnone => congrArg Host.Outcome.next ?_, fun y hy => congrArg Host.Outcome.next ?_⟩
    · rw [heq, hnone]
      rfl
    · rw [heq, hy]
      rfl

/-! ## Ports of the cascade -/

/-- A port that is UP belongs to a link island that is alive. -/
theorem State.portUp_iff {s : State} {p : Nat} :
    s.portUp p = true ↔ s.casAlive = true ∧ p < nCasPort s.hw.variant ∧ (s.casPort p).link = .up := by
  unfold State.portUp
  simp [and_assoc]

theorem State.modPortC_congr {s : State} {p : Nat} {f g : CasPort → CasPort} (h : f (s.casPort p) = g (s.casPort p)) :
    s.modPortC p f = s.modPortC p g := by
  unfold State.casPort at h
  unfold State.modPortC tmod
  rw [h]

/-- Only an absent port, an up port of the leader, one that is UP or one a link test holds cannot come UP. -/
theorem State.portRises_of_up_port {s w : State} (halive : s.casAlive = true) (hstrap : s.sys.strap = false)
    (hlt : (tget {} s.lt 2).mode = 0) (hvar : 0 < nCasPort s.hw.variant) (hlink : (s.casPort 0).link = .down ∨ (s.casPort 0).link = .training)
    (hw : w = (s.itemNow .orphan HS).modPortC 0 (fun q => q.clear .up)) :
    s.portRises 0 = { w with cas := { w.cas with st := if w.cas.st = .down then .linked else w.cas.st, orphanEnd := none } } := by
  subst hw
  unfold State.portRises
  rw [if_neg (by rcases hlink with h | h <;> simp [halive, hstrap, hlt, hvar, h])]
  exact if_pos rfl

theorem State.portRises_of_down_port {s u : State} {p : Nat} (halive : s.casAlive = true)
    (hlt : (tget {} s.lt (p + 2)).mode = 0) (hp : 0 < p) (hvar : p < nCasPort s.hw.variant)
    (hlink : (s.casPort p).link = .down ∨ (s.casPort p).link = .training) (hu : u = s.modPortC p (fun q => q.clear .up)) :
    s.portRises p = if s.sys.strap then ({ u with cas := u.cas.found (p - 1) 1 }).enumNext
      else if u.joinedF then u.casUp (u.helloOf u.cas.path u.cas.depth false) else u := by
  subst hu
  unfold State.portRises
  rw [if_neg (by rcases hlink with h | h <;> simp [halive, hlt, hvar, h, hp.ne'])]
  exact if_neg hp.ne'

theorem State.portDown_of_up {s w x y : State} {p : Nat} (hup : s.portUp p = true)
    (hw : w = (s.prior.modPortC p fun q => { q.clear .down with fell := true }).irqCas 2)
    (hx : x = if p = 0 then w.upLost else w.subtreeLost p)
    (hy : y = if x.active then x.report 1047 x.now else { x with sys := x.sys.deferSrc 1047 }) :
    s.portDown p = if y.active then y.settle y.now else y := by
  subst hw hx hy
  have hlink := (State.portUp_iff.1 hup).2.2
  unfold State.portDown
  rw [if_neg (by simp [hlink])]
  exact if_neg (by simp [hup])

theorem State.portDown_of_training {s : State} {p : Nat} (halive : s.casAlive = true) (hvar : p < nCasPort s.hw.variant)
    (hlink : (s.casPort p).link = .training) : s.portDown p = s.modPortC p fun q => q.clear .down :=
  if_pos (by simp [halive, hvar, hlink])

theorem execCasAckTimeout_of_late {s : State} {p : Nat} (hne : (s.casPort p).unacked ≠ []) (hlate : (s.casPort p).sentAt + 2000 ≤ s.now) :
    execCasAckTimeout p s = .next (s.portDown p) :=
  congrArg Host.Outcome.next (if_pos (by simp [hne, tUs, hlate]))

theorem State.casAck_of_late {s : State} {p : Nat} (l : Nat) (hup : s.portUp p = true) (hlate : (s.casPort p).late s.now = true) :
    s.casAck p l = s.portDown p := by
  unfold State.casAck
  rw [if_neg (by simp [hup]), if_pos hlate]

theorem State.casNak_of_late {s : State} {p : Nat} (l : Nat) (hup : s.portUp p = true) (hlate : (s.casPort p).late s.now = true) :
    s.casNak p l = s.portDown p := by
  unfold State.casNak
  rw [if_neg (by simp [hup]), if_pos hlate]

theorem CasPort.acked_of_found {q : CasPort} {l i now : Nat} (hi : q.unacked.findIdx? (fun u => decide (u.1 = l)) = some i) :
    q.acked l now = ({ q with unacked := q.unacked.drop (i + 1), nakRow := 0, nakLast := none, sentAt := now }).pump now
      (q.waiting.length + 1) := by
  simp only [CasPort.acked, hi]

theorem State.casAck_of_found {s : State} {p l i : Nat} (hup : s.portUp p = true) (hlate : (s.casPort p).late s.now = false)
    (hi : (s.casPort p).unacked.findIdx? (fun u => decide (u.1 = l)) = some i) :
    s.casAck p l = s.modPortC p fun _ => ({ s.casPort p with
      unacked := (s.casPort p).unacked.drop (i + 1), nakRow := 0, nakLast := none, sentAt := s.now }).pump s.now
        ((s.casPort p).waiting.length + 1) := by
  unfold State.casAck
  rw [if_neg (by simp [hup]), if_neg (by simp [hlate])]
  exact State.modPortC_congr (CasPort.acked_of_found hi)

theorem State.casNak_of_found {s u : State} {p l i : Nat} (hup : s.portUp p = true) (hlate : (s.casPort p).late s.now = false)
    (hi : (s.casPort p).unacked.findIdx? (fun u => decide (u.1 = l)) = some i) (hu : u = s.modPortC p fun q => q.naked i l s.now) :
    s.casNak p l = if 3 ≤ (u.casPort p).nakRow then u.portDown p else u := by
  subst hu
  unfold State.casNak
  rw [if_neg (by simp [hup]), if_neg (by simp [hlate])]
  simp only [hi]

/-- A frame of an unknown type counts in ERR and is not answered. -/
theorem State.frameBad_of_type {s : State} {p : Nat} (l : Nat) (hup : s.portUp p = true) :
    s.frameBad p 3 l = (s.tpAdd (3 + p) 0 0 1).modPortC p fun q => { q with err := incTo 0xFFFF q.err } := by
  unfold State.frameBad
  rw [if_neg (by simp [hup])]
  exact if_pos rfl

/-- A frame with a bad LEN or CRC, or one cut off, is NAKed; ERR counts a bad CRC. -/
theorem State.frameBad_of_naked {s u : State} {p why : Nat} (l : Nat) (hup : s.portUp p = true) (hwhy : why ≠ 3)
    (hu : u = if why = 1 then (s.tpAdd (3 + p) 0 0 1).modPortC p fun q => { q with err := incTo 0xFFFF q.err }
      else s.tpAdd (3 + p) 0 0 1) :
    s.frameBad p why l = if 3 ≤ ((u.modPortC p fun q => q.nakSent l).casPort p).rxNakRow then
      (u.modPortC p fun q => q.nakSent l).portDown p else u.modPortC p fun q => q.nakSent l := by
  subst hu
  unfold State.frameBad
  rw [if_neg (by simp [hup])]
  refine (if_neg hwhy).trans ?_
  simp only [hwhy, or_false]

/-- Settles O46. -/
theorem cascadePortsComplete : Obligations.CascadePortsComplete := by
  unfold Obligations.CascadePortsComplete
  refine ⟨fun s w halive hstrap hlt hvar hlink hw =>
      congrArg Host.Outcome.next (State.portRises_of_up_port halive hstrap hlt hvar hlink hw),
    fun s u p halive hlt hp hvar hlink hu => congrArg Host.Outcome.next (State.portRises_of_down_port halive hlt hp hvar hlink hu),
    fun s w x y p hup hw hx hy => ⟨congrArg Host.Outcome.next (State.portDown_of_up hup hw hx hy), fun hne hlate =>
      (execCasAckTimeout_of_late hne hlate).trans (congrArg Host.Outcome.next (State.portDown_of_up hup hw hx hy))⟩,
    fun s p halive hvar hlink => congrArg Host.Outcome.next (State.portDown_of_training halive hvar hlink),
    fun s p l hup hlate => ⟨congrArg Host.Outcome.next (State.casAck_of_late l hup hlate),
      congrArg Host.Outcome.next (State.casNak_of_late l hup hlate)⟩,
    fun s p l i hup hlate hi => ⟨_, rfl, congrArg Host.Outcome.next (State.casAck_of_found hup hlate hi)⟩,
    fun s p l i hup hlate hi => ⟨_, rfl, congrArg Host.Outcome.next (State.casNak_of_found hup hlate hi rfl)⟩,
    fun s p hup => congrArg Host.Outcome.next (if_pos hup),
    fun s p l hup => ⟨_, congrArg Host.Outcome.next (State.frameBad_of_type l hup), ?_⟩, fun s p l why hup hwhy => ?_⟩
  · rw [State.modPortC_casPort]
    exact ⟨rfl, rfl, rfl, rfl, rfl⟩
  · have hnat : why.toNat = 1 ↔ why = 1 := BitVec.toNat_inj (y := 1#2)
    have hne : why.toNat ≠ 3 := fun h => hwhy (BitVec.toNat_inj.1 h)
    refine ⟨_, ?_, ?_, ?_, ?_, congrArg Host.Outcome.next (State.frameBad_of_naked l hup hne rfl)⟩
    case refine_4 =>
      rw [State.modPortC_casPort]
      by_cases h1 : why = 1
      · rw [if_pos (hnat.2 h1), if_pos h1, State.modPortC_casPort]
        rfl
      · rw [if_neg (mt hnat.1 h1), if_neg h1]
        rfl
    all_goals split <;> rfl

end Sys2Proof.Machine
end

section
/-! PROOFS. Enumeration, the timebase of the domain, remote reports. -/

open Sys2Proof

namespace Sys2Proof.Machine

/-! ## A frame that arrives -/

/-- The state after a valid frame has been acknowledged and counted on its port. -/
def State.rxHeard (s : State) (p l : Nat) (fr : CasFrame) : State :=
  (s.modPortC p fun q => { q with ackOut := [(true, l)], rxNakRow := 0, rxNakLast := none }).tpAdd (3 + p) (12 + fr.len) 1 0

theorem State.rxFrame_of_up {s : State} {p : Nat} (hup : s.portUp p = true) (l : Nat) (fr : CasFrame) (f : State → State) :
    s.rxFrame p l fr f = f (s.rxHeard p l fr) := if_neg (by simp [hup])

theorem State.acts_of_member {s : State} (hrung : s.rungOk = true) (hst : s.cas.st ≠ .refused) (f : State → State) :
    s.acts f = f s := if_pos (by simp [hrung, hst])

/-- A member acts on a frame it has heard. -/
theorem State.rxHeard_acts {s : State} (hrung : s.rungOk = true) (hst : s.cas.st ≠ .refused) (p l : Nat) (fr : CasFrame)
    (f : State → State) : (s.rxHeard p l fr).acts f = f (s.rxHeard p l fr) :=
  State.acts_of_member (s := s.rxHeard p l fr) hrung hst f

theorem State.not_refused_of_joined {s : State} (h : s.joinedF = true) : s.cas.st ≠ .refused := by
  intro hst
  simp [State.joinedF, hst] at h

/-! ## Enumeration -/

/-- The frame's place is the device's own, or the device has none yet. -/
theorem State.enum_mine {s : State} {path depth : Nat} (h : s.joinedF = false ∨ (s.cas.path = path ∧ s.cas.depth = depth)) :
    ¬ (s.joinedF && !(decide (s.cas.path = path) && decide (s.cas.depth = depth))) = true := by
  rcases h with h | ⟨hp, hd⟩
  · simp [h]
  · simp [hp, hd]

theorem State.casEnumed_of_taken {s v : State} {path depth addr delay : Nat} (hrung : s.rungOk = true) (hdepth : depth ≤ 7)
    (haddr : addr ≠ 0) (hmine : s.joinedF = false ∨ (s.cas.path = path ∧ s.cas.depth = depth))
    (hv : v = { s with cas := { s.cas with
      st := if s.joinedF then s.cas.st else .joined, addr := addr, path := path, depth := depth, delay := delay
      irq := if s.joinedF then s.cas.irq else Irq.set s.cas.irq 0 } }) :
    s.casEnumed path depth addr delay = ((v.casUp (v.helloOf path depth false)).casUp (.state v.seqCode)).casSubs := by
  subst hv
  unfold State.casEnumed
  refine (if_neg (State.enum_mine hmine)).trans ?_
  rw [if_neg (by simp [hrung])]
  exact if_neg (by simp [haddr, hdepth])

theorem State.casEnumed_of_refused {s v : State} {path depth addr : Nat} (delay : Nat) (hrung : s.rungOk = true)
    (hbad : 7 < depth ∨ addr = 0) (hmine : s.joinedF = false ∨ (s.cas.path = path ∧ s.cas.depth = depth))
    (hv : v = { s with cas := { s.cas with st := .refused } }) :
    s.casEnumed path depth addr delay = v.casUp (v.helloOf path depth true) := by
  subst hv
  unfold State.casEnumed
  refine (if_neg (State.enum_mine hmine)).trans ?_
  rw [if_neg (by simp [hrung])]
  exact if_pos hbad

theorem State.casEnumed_of_deeper {s : State} {path depth : Nat} (addr delay : Nat) (hj : s.joinedF = true)
    (hother : s.cas.path ≠ path ∨ s.cas.depth ≠ depth) :
    s.casEnumed path depth addr delay
      = { s with cas := s.cas.out (1 + hopAt path s.cas.depth) (.enum path depth addr) s.now } := by
  refine if_pos ?_
  rcases hother with h | h <;> simp [hj, h]

theorem execCasEnum_of_follower {s : State} {l depth : Nat} {path : BitVec 16} {addr : BitVec 12} {delay : BitVec 8}
    (hstrap : s.sys.strap = false) (hup : s.portUp 0 = true) :
    execCasEnum 0 l path depth addr delay s = .next ((s.rxHeard 0 l (.enum path.toNat depth addr.toNat)).casEnumed path.toNat depth
      addr.toNat delay.toNat) :=
  congrArg Host.Outcome.next ((if_pos ⟨rfl, hstrap⟩).trans (State.rxFrame_of_up hup _ _ _))

/-- The address that an ENUM frame offers to the path. -/
def State.enumAddr (s : State) (path d : Nat) : Nat :=
  if 7 < d then 0 else (((s.cas.addrOf path d).filter (· ≠ 0)).or s.cas.lowestFree).getD 0

/-- The state after the ENUM frame for the path has gone out, the paths `r` still to come. -/
def State.enumSent (s : State) (path d : Nat) (r : List (Nat × Nat)) : State :=
  { s with cas := { s.cas.out (1 + hopAt path 0) (.enum path d (s.enumAddr path d)) s.now with
      todo := r, offer := some { path := path, depth := d, addr := s.enumAddr path d, at_ := s.now } } }

theorem State.enumNext_of_todo {s : State} {path d : Nat} {r : List (Nat × Nat)} (htodo : s.cas.todo = (path, d) :: r)
    (hoffer : s.cas.offer = none) : s.enumNext = s.enumSent path d r := by
  simp only [State.enumNext, htodo, hoffer]
  exact if_neg (by decide)

/-- The next ENUM frame touches the cascade alone, and not when TIME last went out. -/
theorem State.enumNext_frame (s : State) : s.enumNext.cas.timeSent = s.cas.timeSent ∧ s.enumNext.sys = s.sys
    ∧ s.enumNext.chans = s.chans ∧ s.enumNext.seq = s.seq ∧ s.enumNext.flt = s.flt := by
  unfold State.enumNext
  split
  · exact ⟨rfl, rfl, rfl, rfl, rfl⟩
  · split <;> exact ⟨rfl, rfl, rfl, rfl, rfl⟩

/-! ## TIME -/

theorem State.timeSend_of_due {s : State} (hstrap : s.sys.strap = true) (halive : s.casAlive = true) (hrung : s.rungOk = true)
    (hdue : s.cas.timeSent + 1000 ≤ s.now) :
    s.timeSend = ({ s.casDown (.time s.now) with
      cas := { (s.casDown (.time s.now)).cas.answered 0 0 s.now with timeSent := s.now } }).enumNext :=
  if_pos (by simp [hstrap, halive, hrung, hdue])

/-- A change of the lock keeps what TIME has measured. -/
theorem Cas.setLock_time (c : Cas) (st : CasSt) : (c.setLock st).tbErr = c.tbErr ∧ (c.setLock st).timeAt = c.timeAt
    ∧ (c.setLock st).st = st := by
  unfold Cas.setLock
  split
  · next h => exact ⟨rfl, rfl, h⟩
  · exact ⟨rfl, rfl, rfl⟩

theorem Cas.lockOn_time (c : Cas) (e : Int) : (c.lockOn e).tbErr = c.tbErr ∧ (c.lockOn e).timeAt = c.timeAt := by
  have hlock (c : Cas) (st : CasSt) : (c.setLock st).tbErr = c.tbErr ∧ (c.setLock st).timeAt = c.timeAt :=
    ⟨(c.setLock_time st).1, (c.setLock_time st).2.1⟩
  have hstep (c : Cas) (bad good : Prop) [Decidable bad] [Decidable good] :
      (if bad then c.setLock .joined else if good then c.setLock .locked else c).tbErr = c.tbErr
        ∧ (if bad then c.setLock .joined else if good then c.setLock .locked else c).timeAt = c.timeAt := by
    split
    · exact hlock _ _
    · split
      · exact hlock _ _
      · exact ⟨rfl, rfl⟩
  exact hstep _ _ _

theorem State.timeTaken_err (s : State) (value atSof : Nat) : (s.timeTaken value atSof).cas.tbErr = (value : Int) - atSof
    ∧ (s.timeTaken value atSof).cas.timeAt = (s.timeTaken value atSof).now := by
  unfold State.timeTaken
  exact Cas.lockOn_time _ _

theorem State.timeGone_of_absent {s : State} (halive : s.casAlive = true) (hst : s.cas.st = .locked)
    (hdue : s.cas.timeAt + 10000 ≤ s.now) : s.timeGone = ({ s with cas := { s.cas.setLock .joined with goodTimes := 0 } }).settleIf :=
  if_pos (by simp [halive, hst, tUs, hdue])

/-- What a TIME frame does at a device that forwards: the measurement `act` of a member, then the frame goes on. -/
theorem execCasTime_of_follower {s : State} {l value atSof : Nat} (hstrap : s.sys.strap = false) (hup : s.portUp 0 = true) :
    execCasTime l value atSof s = .next (((s.rxHeard 0 l (.time value)).acts fun s =>
      if s.joinedF then (s.timeTaken value atSof).settleIf else s).casDown
        (.time (if s.rungOk then value + s.cas.delay else value))) := by
  unfold execCasTime
  rw [if_neg (by simp [hstrap]), State.rxFrame_of_up hup]
  rfl

/-! ## LOST and the orphan delay -/

theorem State.orphanRow_of_row {s u : State} (hrow : s.rowEnds .orphan HS = u) :
    s.orphanRow = if !u.orphanOff && (dueAt u.cas.orphanEnd u.now).isSome then { u with cas := { u.cas with orphanEnd := none } }
      else u := by
  subst hrow
  rfl

theorem State.orphanRow_of_not_off {s : State} {t : Nat} (hoff : s.orphanOff = false) (hend : s.cas.orphanEnd = some t)
    (ht : t ≤ s.now) : s.orphanRow = { s with cas := { s.cas with orphanEnd := none } } := by
  have hrow : s.rowEnds .orphan HS = s := by
    refine State.rowEnds_of_not_due fun t h => ?_
    simp [State.itemAt, hoff] at h
  refine (State.orphanRow_of_row hrow).trans ?_
  exact if_pos (by simp [hoff, hend, dueAt_some ht])

/-- Settles O47. -/
theorem cascadeMembershipCompletes : Obligations.CascadeMembershipCompletes := by
  unfold Obligations.CascadeMembershipCompletes
  refine ⟨fun s u v l depth path addr delay hstrap hup hrung hdepth haddr hmine hu hv => ?_,
    fun s u v l depth path addr delay hstrap hup hrung hbad hmine hu hv => ?_,
    fun s u l depth path addr delay hstrap hup hj hother hu => ?_,
    fun s p l time delay depth addr uid variant path phase ports refused hp hup hstrap hrung hst => ?_,
    fun s u v p l time delay depth addr uid variant path phase ports refused hp hup hstrap hu hv => ?_,
    fun s path d r htodo hoffer => ?_, fun s hstrap halive hrung hdue => ?_,
    fun s u w l value atSof hstrap hup hj hrung hu hw => ?_, fun s u l value atSof hstrap hup hj hu => ?_,
    fun s w halive hst hdue hw => ?_, fun s l addr hstrap hup hrung hst => ?_, fun s p l addrs hup hstrap hrung hst => ?_,
    fun s u v p l addrs hup hstrap hrung hst hu hv => ?_, fun s p u v t hat hlast hp hstill hu hv => ?_,
    fun s u t hu => hu ▸ rfl, fun s t hoff hend ht => congrArg Host.Outcome.next (State.orphanRow_of_not_off hoff hend ht)⟩
  · rw [State.rxFrame_of_up hup] at hu
    subst hu
    exact (execCasEnum_of_follower hstrap hup).trans
      (congrArg Host.Outcome.next (State.casEnumed_of_taken hrung hdepth (fun h => haddr (BitVec.toNat_inj.1 h)) hmine hv))
  · rw [State.rxFrame_of_up hup] at hu
    subst hu
    exact (execCasEnum_of_follower hstrap hup).trans (congrArg Host.Outcome.next
      (State.casEnumed_of_refused _ hrung (hbad.imp_right (congrArg BitVec.toNat)) hmine hv))
  · rw [State.rxFrame_of_up hup] at hu
    subst hu
    exact (execCasEnum_of_follower hstrap hup).trans (congrArg Host.Outcome.next (State.casEnumed_of_deeper _ _ hj hother))
  · rw [State.rxFrame_of_up hup]
    exact congrArg Host.Outcome.next ((if_neg hp).trans ((State.rxFrame_of_up hup _ _ _).trans
      ((if_pos hstrap).trans (State.rxHeard_acts hrung hst _ _ _ _))))
  · rw [State.rxFrame_of_up hup] at hu
    subst hv hu
    exact congrArg Host.Outcome.next ((if_neg hp).trans ((State.rxFrame_of_up hup _ _ _).trans (if_neg (by simp [State.rxHeard, hstrap]))))
  · rw [State.enumNext_of_todo htodo hoffer]
    exact ⟨rfl, rfl, rfl, rfl⟩
  · exact ⟨_, congrArg Host.Outcome.next (State.timeSend_of_due hstrap halive hrung hdue), (State.enumNext_frame _).1,
      (State.enumNext_frame _).2⟩
  · rw [State.rxFrame_of_up hup] at hu
    subst hw hu
    refine ⟨(State.timeTaken_err _ _ _).1, (State.timeTaken_err _ _ _).2, (execCasTime_of_follower hstrap hup).trans ?_⟩
    rw [State.rxHeard_acts hrung (State.not_refused_of_joined hj), if_pos (show (s.rxHeard 0 l (.time value)).joinedF = true from hj),
      if_pos hrung]
    rfl
  · rw [State.rxFrame_of_up hup] at hu
    subst hu
    refine (execCasTime_of_follower hstrap hup).trans ?_
    have hacts : ((s.rxHeard 0 l (.time value)).acts fun s => if s.joinedF then (s.timeTaken value atSof).settleIf else s)
        = s.rxHeard 0 l (.time value) := by
      have hact : (s.rxHeard 0 l (.time value)).joinedF ≠ true := ne_true_of_eq_false hj
      unfold State.acts
      beta_reduce
      rw [if_neg hact, ite_self]
    rw [hacts]
    rfl
  · subst hw
    exact ⟨(Cas.setLock_time _ _).2.2, congrArg Host.Outcome.next (State.timeGone_of_absent halive hst hdue)⟩
  · rw [State.rxFrame_of_up hup]
    refine congrArg Host.Outcome.next ((if_neg (by simp [hstrap])).trans ((State.rxFrame_of_up hup _ _ _).trans ?_))
    rw [State.rxHeard_acts hrung hst]
    rfl
  · rw [State.rxFrame_of_up hup]
    exact congrArg Host.Outcome.next ((State.rxFrame_of_up hup _ _ _).trans ((if_pos hstrap).trans (State.rxHeard_acts hrung hst _ _ _ _)))
  · rw [State.rxFrame_of_up hup] at hu
    subst hv hu
    refine congrArg Host.Outcome.next ((State.rxFrame_of_up hup _ _ _).trans ((if_neg (by simp [State.rxHeard, hstrap])).trans ?_))
    rw [State.rxHeard_acts hrung hst]
    rfl
  · subst hv
    have hrow : s.rowEnds .orphan HS = u := hu ▸ State.rowEnds_of_late (by decide) hat hlast hp hstill rfl
    exact congrArg Host.Outcome.next (State.orphanRow_of_row hrow)

/-! ## Remote rails, faults and device states -/

/-- A member named by a frame acts on it. -/
theorem State.rxHeard_toward {s : State} {p l dst org : Nat} {fr f : CasFrame} {act : State → State} (hrung : s.rungOk = true)
    (hst : s.cas.st ≠ .refused) (hdst : dst = s.cas.addr) : (s.rxHeard p l fr).toward p dst org f act = act (s.rxHeard p l fr) :=
  (if_pos hdst).trans (State.rxHeard_acts hrung hst _ _ _ _)

theorem State.toward_of_other {s : State} {p dst org : Nat} {f : CasFrame} {act : State → State} (hdst : dst ≠ s.cas.addr) :
    s.toward p dst org f act = if s.cas.portTo s.sys.strap dst = some p then s else s.casTo dst (.fwd org f) := if_neg hdst

/-- What a RAIL frame makes of one reference on the tick `now`. -/
def Remote.takes (r : Remote) (org rail code now : Nat) : Remote :=
  if r.valid && decide (r.addr = org) && decide (r.rail = rail) && !decide (r.state = code)
    && !(decide (r.state = 4) && decide (r.stamp = now)) then { r with state := code, stamp := now } else r

theorem Remote.takes_default (org rail code now : Nat) : Remote.takes {} org rail code now = {} := rfl

theorem Remote.takes_eq (r : Remote) (org rail code now : Nat) : r.takes org rail code now
    = if r.valid ∧ r.addr = org ∧ r.rail = rail ∧ r.state ≠ code ∧ ¬(r.state = 4 ∧ r.stamp = now) then
        { r with state := code, stamp := now } else r := by
  unfold Remote.takes
  refine if_congr ?_ rfl rfl
  grind

/-- Where no engine runs, a RAIL frame is taken by the references alone. -/
theorem State.railTaken_of_stopped {s p : State} (org rail code : Nat) (hp : p = s.prior) (hrun : p.running = false) :
    s.railTaken org rail code = { p with seq := { p.seq with
      remote := tmap {} (fun _ r => r.takes org rail code p.now) p.seq.remote } } := by
  subst hp
  exact if_neg (ne_true_of_eq_false hrun)

theorem State.casTo_pub (s : State) (dst : Nat) (f : CasFrame) : (s.casTo dst f).cas.pub = s.cas.pub
    ∧ (s.casTo dst f).cas.pubFull = s.cas.pubFull ∧ (s.casTo dst f).chans = s.chans ∧ (s.casTo dst f).seq = s.seq
    ∧ (s.casTo dst f).flt = s.flt := by
  unfold State.casTo
  dsimp only
  split <;> exact ⟨rfl, rfl, rfl, rfl, rfl⟩

/-- An entry that reads as other than the default stands in the table. -/
theorem mem_of_tget_ne {α : Type} (d : α) (t : Tab α) (k : Nat) (h : tget d t k ≠ d) : ∃ e ∈ t, e.2 = tget d t k := by
  induction t with
  | nil => exact absurd rfl h
  | cons e r ih =>
    unfold tget at h ⊢
    split at h
    · next hk => exact ⟨e, List.mem_cons_self, (if_pos hk).symm⟩
    · next hk =>
      obtain ⟨x, hx, hval⟩ := ih h
      exact ⟨x, List.mem_cons_of_mem _ hx, hval.trans (if_neg hk).symm⟩

/-- An entry of CAS_PUB is valid, so not 0. -/
theorem pubWord_ne_zero (org rail : Nat) : pubWord org rail ≠ 0 := by
  intro h
  have htop : fld (pubWord org rail) 31 1 = 1 := fld_wpack_top 31 1 1 [(0, 12, org), (12, 8, rail)] (by decide)
    (by simp only [List.foldl]; omega)
  rw [h] at htop
  exact absurd htop (by decide)

theorem mem_tset_self (d : Word) (t : Tab Word) (k : Nat) {w : Word} (hw : w ≠ d) : ∃ e ∈ tset d t k w, e.2 = w := by
  obtain ⟨e, he, hval⟩ := mem_of_tget_ne d (tset d t k w) k (by rwa [tget_tset_self])
  exact ⟨e, he, hval.trans (tget_tset_self d t k w)⟩

/-- A withdrawn subscription leaves CAS_PUB. -/
theorem State.subTaken_off (s : State) (org rail : Nat) : s.subTaken org rail false
    = { s with cas := { s.cas with pub := s.cas.pub.filter fun e => !decide (e.2 = pubWord org rail) } } := rfl

/-- A subscription stands in CAS_PUB afterwards, or finds it full. -/
theorem State.subTaken_on (s : State) (org rail : Nat) : (s.subTaken org rail true).chans = s.chans
    ∧ (s.subTaken org rail true).seq = s.seq ∧ (s.subTaken org rail true).flt = s.flt
    ∧ ((s.subTaken org rail true).cas.pubFull = true ∨ ∃ e ∈ (s.subTaken org rail true).cas.pub, e.2 = pubWord org rail) := by
  have hne := pubWord_ne_zero org rail
  unfold State.subTaken
  rw [if_neg (by decide)]
  generalize pubWord org rail = w at hne
  dsimp only
  split
  · next hheld =>
    obtain ⟨hpub, -, hchans, hseq, hflt⟩ := s.casTo_pub org (.rail org rail (s.pubCode rail))
    obtain ⟨e, he, hw⟩ := List.any_eq_true.1 hheld
    exact ⟨hchans, hseq, hflt, .inr ⟨e, hpub ▸ he, of_decide_eq_true hw⟩⟩
  · split
    · exact ⟨rfl, rfl, rfl, .inl rfl⟩
    · next k hk =>
      obtain ⟨hpub, -, hchans, hseq, hflt⟩ := State.casTo_pub { s with cas := { s.cas with pub := tset 0 s.cas.pub k w } } org
        (.rail org rail (State.pubCode { s with cas := { s.cas with pub := tset 0 s.cas.pub k w } } rail))
      obtain ⟨e, he, hval⟩ := mem_tset_self 0 s.cas.pub k hne
      exact ⟨hchans, hseq, hflt, .inr ⟨e, hpub ▸ he, hval⟩⟩

/-- The state with a remote fault in its registers (R421). -/
def State.faultSeen (s : State) (org src level : Nat) (safe : Bool) (stamp : Nat) : State :=
  { s with cas := { s.cas with
      rfault := wpack [(0, 12, org), (12, 11, src), (23, 2, level), (25, 1, b2n safe), (31, 1, 1)], rfaultTs := stamp % 2 ^ 32
      irq := if safe then Irq.set s.cas.irq 3 else s.cas.irq } }

theorem execCasFault_of_member {s : State} {p l : Nat} {org : BitVec 12} {src : BitVec 11} {level : BitVec 2} {stamp : BitVec 64}
    (safe : Bool) (hp : p ≠ 0) (hup : s.portUp p = true) (hrung : s.rungOk = true) (hst : s.cas.st ≠ .refused) :
    execCasFault p l org src level safe stamp s = .next
      ((if safe then ((s.rxHeard p l (.fault org.toNat src.toNat level.toNat safe stamp.toNat)).faultSeen org.toNat src.toNat
          level.toNat safe stamp.toNat).raiseOrDefer 1048
        else (s.rxHeard p l (.fault org.toNat src.toNat level.toNat safe stamp.toNat)).faultSeen org.toNat src.toNat
          level.toNat safe stamp.toNat).casUp (.fault org.toNat src.toNat level.toNat safe stamp.toNat)) := by
  refine congrArg Host.Outcome.next ((if_neg hp).trans ((State.rxFrame_of_up hup _ _ _).trans ?_))
  unfold State.faultTaken
  rw [State.rxHeard_acts hrung hst]
  rfl

theorem State.casUp_rfault (s : State) (f : CasFrame) : (s.casUp f).cas.rfault = s.cas.rfault
    ∧ (s.casUp f).cas.rfaultTs = s.cas.rfaultTs ∧ (s.casUp f).cas.irq = s.cas.irq ∧ (s.casUp f).chans = s.chans
    ∧ (s.casUp f).seq = s.seq ∧ (s.casUp f).flt = s.flt := by
  unfold State.casUp
  dsimp only
  split <;> exact ⟨rfl, rfl, rfl, rfl, rfl, rfl⟩

theorem State.stateTaken_of_leader {s w v : State} {p l : Nat} {org : BitVec 12} {seq : BitVec 3} (hstrap : s.sys.strap = true)
    (hrung : s.rungOk = true) (hst : s.cas.st ≠ .refused) (hw : w = (s.rxHeard p l (.state seq.toNat)).domTimeout)
    (hv : v = { w with cas := { w.cas with
      devs := tmod {} w.cas.devs org.toNat fun d => { d with seq := some seq.toNat, skipAt := none }
      nSkip := if seq = 0 ∧ (tget {} w.cas.devs org.toNat).skipAt = some w.now then w.cas.nSkip - 1 else w.cas.nSkip } }) :
    (s.rxHeard p l (.state seq.toNat)).stateTaken org.toNat seq.toNat = if seq = 0 then v.domLeave org.toNat false else v := by
  subst hv
  have hzero : seq.toNat = 0 ↔ seq = 0 := BitVec.toNat_inj (y := 0#3)
  refine ((if_pos hstrap).trans (State.rxHeard_acts hrung hst _ _ _ _)).trans ?_
  rw [← hw]
  simp only [hzero]

/-- Settles O48. -/
theorem cascadeReportsComplete : Obligations.CascadeReportsComplete := by
  unfold Obligations.CascadeReportsComplete
  refine ⟨fun s p l dst org rail code hup hrung hst hdst hcode => ?_, fun s u p l dst org rail code hup hdst hu => ?_,
    fun s org rail code k p hp hrun => ?_, fun s p l dst org rail hup hrung hst hdst => ?_,
    fun s p l dst org rail hup hrung hst hdst => ?_, fun s u p l dst org rail on hup hdst hu => ?_,
    fun s p l org src level stamp hp hup hrung hst => ?_, fun s p l org src level stamp hp hup hrung hst => ?_,
    fun s w v p l org seq hp hup hstrap hrung hst hw hv => ?_, fun s p l org seq hp hup hstrap => ?_⟩
  · rw [State.rxFrame_of_up hup]
    refine congrArg Host.Outcome.next ((State.rxFrame_of_up hup _ _ _).trans ((State.rxHeard_toward hrung hst hdst).trans
      (if_pos hcode)))
  · rw [State.rxFrame_of_up hup] at hu
    subst hu
    exact congrArg Host.Outcome.next ((State.rxFrame_of_up hup _ _ _).trans (State.toward_of_other hdst))
  · rw [State.railTaken_of_stopped org rail code hp hrun]
    exact ⟨rfl, (tget_tmap _ _ _ _ (Remote.takes_default org rail code p.now)).trans (Remote.takes_eq _ _ _ _ _)⟩
  · exact ⟨_, congrArg Host.Outcome.next ((State.rxFrame_of_up hup _ _ _).trans
      (State.rxHeard_toward hrung hst hdst)), rfl, rfl, rfl, rfl⟩
  · exact ⟨_, congrArg Host.Outcome.next ((State.rxFrame_of_up hup _ _ _).trans
      (State.rxHeard_toward hrung hst hdst)), State.subTaken_on _ _ _⟩
  · rw [State.rxFrame_of_up hup] at hu
    subst hu
    exact congrArg Host.Outcome.next ((State.rxFrame_of_up hup _ _ _).trans (State.toward_of_other hdst))
  · obtain ⟨hrf, hts, hirq, hrest⟩ := State.casUp_rfault ((s.rxHeard p l (.fault org.toNat src.toNat level.toNat false
      stamp.toNat)).faultSeen org.toNat src.toNat level.toNat false stamp.toNat) (.fault org.toNat src.toNat level.toNat false stamp.toNat)
    exact ⟨_, execCasFault_of_member false hp hup hrung hst, hrf, hts, hirq, hrest⟩
  · exact ⟨(s.rxHeard p l (.fault org.toNat src.toNat level.toNat true stamp.toNat)).faultSeen org.toNat src.toNat level.toNat true
      stamp.toNat, rfl, rfl, rfl, rfl, rfl, execCasFault_of_member true hp hup hrung hst⟩
  · rw [State.rxFrame_of_up hup] at hw
    exact congrArg Host.Outcome.next ((if_neg hp).trans ((State.rxFrame_of_up hup _ _ _).trans
      (State.stateTaken_of_leader hstrap hrung hst hw hv)))
  · rw [State.rxFrame_of_up hup]
    exact congrArg Host.Outcome.next ((if_neg hp).trans ((State.rxFrame_of_up hup _ _ _).trans
      (if_neg (ne_true_of_eq_false hstrap))))

end Sys2Proof.Machine
end

section
/-! PROOFS. Frames of the host port that are refused. -/

open Sys2Proof

namespace Sys2Proof.Machine

/-! ## How a request is judged -/

/-- Expiries of the tick leave the broken-transaction mark and the held response. -/
theorem State.hmpDue_keeps (s : State) : s.hmpDue.hmp.broken = s.hmp.broken ∧ s.hmpDue.hmp.resp = s.hmp.resp := by
  have hidle : s.idleEnds.hmp.broken = s.hmp.broken ∧ s.idleEnds.hmp.resp = s.hmp.resp := by
    unfold State.idleEnds
    split <;> exact ⟨rfl, rfl⟩
  have hlock (t : State) : t.lockoutEnds.hmp.broken = t.hmp.broken ∧ t.lockoutEnds.hmp.resp = t.hmp.resp := by
    unfold State.lockoutEnds
    split <;> exact ⟨rfl, rfl⟩
  unfold State.hmpDue
  dsimp only
  split
  · exact hidle
  · exact ⟨(hlock _).1.trans hidle.1, (hlock _).2.trans hidle.2⟩

section
variable {s v : State} {r : Req} {early : Nat} {late : State → Nat} {act : State → State}

/-- Checks 2 and 3 refuse. -/
theorem State.request_of_early (hhears : s.hmpHears = true) (hv : v = { s.hmpDue with hmp := { s.hmpDue.hmp with broken := false } })
    (hearly : early ≠ 0) : s.request r early late act = (v.badFrame early 0).wakeEvent 2 := by
  subst hv
  unfold State.request
  rw [if_neg (by simp [hhears])]
  exact congrArg (State.wakeEvent · 2) (if_pos hearly)

/-- Check 4 refuses. -/
theorem State.request_of_bad (hhears : s.hmpHears = true) (hv : v = { s.hmpDue with hmp := { s.hmpDue.hmp with broken := false } })
    (hearly : early = 0) (hbad : s.hmp.broken = true ∨ r.crcOk = false) :
    s.request r early late act = (v.badFrame 4 r.bytes).wakeEvent 2 := by
  subst hv
  unfold State.request
  rw [if_neg (by simp [hhears])]
  refine congrArg (State.wakeEvent · 2) ((if_neg (not_not.2 hearly)).trans (if_pos ?_))
  rw [s.hmpDue_keeps.1]
  rcases hbad with h | h <;> simp [h]

/-- Checks 1 to 4 pass: checks 5 to 8 refuse with `k`, or the request acts. -/
theorem State.request_of_passed {u : State} {k : Nat} (hhears : s.hmpHears = true)
    (hv : v = { s.hmpDue with hmp := { s.hmpDue.hmp with broken := false } }) (hearly : early = 0) (hbroken : s.hmp.broken = false)
    (hcrc : r.crcOk = true) (hu : u = v.tpAdd 0 r.bytes 1 0) (hk : k = if u.wakesNow then 7 else late u) :
    s.request r early late act = (if k = 0 then act u else u.answer k 0 []).wakeEvent 2 := by
  subst hv
  unfold State.request
  rw [if_neg (by simp [hhears])]
  refine congrArg (State.wakeEvent · 2) ((if_neg (not_not.2 hearly)).trans ((if_neg ?_).trans ?_))
  · rw [s.hmpDue_keeps.1]
    simp [hbroken, hcrc]
  · dsimp only
    rw [← hu, ← hk]
    split
    · rfl
    · next hc => exact (if_neg hc).symm

end

/-- What a frame is judged by: the request of its command with checks 2 and 3 judged as `early`. -/
def Requests (c : Instr) (s : State) (r : Req) (early : Nat) : Prop :=
  ∃ (late : State → Nat) (act : State → State), exec c s = .next (s.request r early late act)

theorem Req.crcOk_nil (cmd addr len : Nat) (crc : BitVec 32) :
    Req.crcOk { cmd := cmd, addr := addr, len := len, payload := [], crc := crc, want := 0 }
      = (crc32c (leBytes 1 cmd ++ leBytes 3 addr ++ leBytes 2 len) == crc) := by
  simp [Req.crcOk]

/-- Settles O50. -/
theorem hmpFramesRefused : Obligations.HmpFramesRefused := by
  unfold Obligations.HmpFramesRefused
  refine ⟨fun s v c early n good hhears hv hc => ?_, fun s v w a k crc early st n hhears hv hearly hst hw => ?_,
    fun s c n => ⟨rfl, rfl, rfl, rfl, rfl, rfl, rfl⟩⟩
  · have hreq : ∃ r : Req, Requests c s r early ∧ n = r.bytes ∧ good = r.crcOk := by
      rcases hc with ⟨a, k, crc, rfl, rfl, rfl, rfl⟩ | ⟨a, k, ws, crc, rfl, rfl, rfl, rfl⟩ | ⟨a, k, crc, rfl, rfl, rfl, rfl⟩ |
        ⟨a, k, mac, crc, rfl, rfl, rfl, rfl⟩ | ⟨a, k, crc, rfl, rfl, rfl, rfl⟩
      · exact ⟨_, ⟨_, _, rfl⟩, rfl, (Req.crcOk_nil _ _ _ _).symm⟩
      · exact ⟨_, ⟨_, _, rfl⟩, rfl, rfl⟩
      · exact ⟨_, ⟨_, _, rfl⟩, rfl, (Req.crcOk_nil _ _ _ _).symm⟩
      · exact ⟨_, ⟨_, _, rfl⟩, rfl, rfl⟩
      · exact ⟨_, ⟨_, _, rfl⟩, rfl, (Req.crcOk_nil _ _ _ _).symm⟩
    obtain ⟨r, ⟨late, act, hexec⟩, rfl, rfl⟩ := hreq
    exact ⟨fun h => hexec.trans (congrArg Host.Outcome.next (State.request_of_early hhears hv h)),
      fun h hbad => hexec.trans (congrArg Host.Outcome.next (State.request_of_bad hhears hv h hbad))⟩
  · have hframe : s.request { cmd := 0x0E, addr := a.toNat, len := k.toNat, payload := [], crc := crc, want := 0 }
        (if k ≠ 0 then 2 else if a ≠ 0 then 3 else 0) State.plainCheck State.resendAct = w := by
      subst hw
      rcases hst with ⟨hne, rfl, rfl⟩ | ⟨h0, rfl, rfl, hbad⟩
      · exact hearly ▸ State.request_of_early hhears hv hne
      · refine State.request_of_bad hhears hv (hearly.symm.trans h0) (hbad.imp_right fun h => ?_)
        rw [Req.crcOk_nil]
        exact beq_eq_false_iff_ne.2 h
    exact congrArg (fun t : State => Host.Outcome.next { t with hmp := { t.hmp with resp := s.hmp.resp } }) hframe

end Sys2Proof.Machine
end

section
/-! PROOFS. Register accesses of the host port. -/

open Sys2Proof

namespace Sys2Proof.Machine

/-! ## READ, WRITE and RESEND that pass their frames -/

theorem leBytes_length (n x : Nat) : (leBytes n x).length = n := by
  induction n generalizing x with
  | zero => rfl
  | succ n ih => simp [leBytes, ih]

theorem wordBytes_length (ws : List Word) : (wordBytes ws).length = 4 * ws.length := by
  induction ws with
  | nil => rfl
  | cons w r ih =>
    have hcons : wordBytes (w :: r) = leBytes 4 w.toNat ++ wordBytes r := rfl
    rw [hcons, List.length_append, leBytes_length, ih, List.length_cons]
    omega

/-- Checks 2 and 3 of READ and WRITE pass. -/
theorem early_of_ok {a n : Nat} (hlen : lenOk n = true) (haddr : addrOk a n = true) :
    (if !lenOk n then 2 else if !addrOk a n then 3 else 0) = 0 := by simp [hlen, haddr]

/-- A READ of one register. -/
theorem State.readAct_one (u : State) (a : Nat) : u.readAct [a]
    = (u.readEffect a).answerOk u.now (if u.islLost (islServing a) then 8 else 0) 0 (leBytes 4 (u.hostWord a).toNat) := by
  have hany : ([a].any fun a => u.islLost (islServing a)) = u.islLost (islServing a) := Bool.or_false _
  unfold State.readAct
  rw [hany]
  rfl

/-- What a WRITE of a session does: its words are taken, and the outcome answers. -/
theorem State.writeAct_of_session {u w : State} {l : Level} {f : LineFlaws} {regs : List (Nat × Word)} {d : Nat}
    (hsess : u.hmp.session = some l) (hwrite : u.writeRegs l f regs 0 = (w, d)) :
    u.writeAct regs f = w.answerOk u.now (if d = 0 then 0 else 9) (d % 256) [] := by
  simp only [State.writeAct, hsess, hwrite]

theorem execHmpRead_of_passed {s v u : State} {a : BitVec 24} {n : BitVec 16} {crc : BitVec 32} {k : Nat} (hhears : s.hmpHears = true)
    (hbroken : s.hmp.broken = false) (hv : v = { s.hmpDue with hmp := { s.hmpDue.hmp with broken := false } })
    (hlen : lenOk n.toNat = true) (haddr : addrOk a.toNat n.toNat = true)
    (hcrc : crc = crc32c (leBytes 1 1 ++ leBytes 3 a.toNat ++ leBytes 2 n.toNat)) (hu : u = v.tpAdd 0 10 1 0)
    (hk : k = if u.wakesNow then 7 else State.readCheck (addrsOf a.toNat n.toNat) u) :
    execHmpRead a n crc s = .next ((if k = 0 then u.readAct (addrsOf a.toNat n.toNat) else u.answer k 0 []).wakeEvent 2) :=
  congrArg Host.Outcome.next (State.request_of_passed hhears hv (early_of_ok hlen haddr) hbroken
    (by rw [Req.crcOk_nil, hcrc, beq_self_eq_true]) hu hk)

theorem execHmpWrite_of_passed {s v u : State} {a : BitVec 24} {n : BitVec 16} {ws : List (BitVec 32)} {crc : BitVec 32} {k : Nat}
    (hhears : s.hmpHears = true) (hbroken : s.hmp.broken = false)
    (hv : v = { s.hmpDue with hmp := { s.hmpDue.hmp with broken := false } })
    (hlen : lenOk n.toNat = true) (haddr : addrOk a.toNat n.toNat = true) (hws : 4 * ws.length = n.toNat)
    (hcrc : crc = crc32c (leBytes 1 2 ++ leBytes 3 a.toNat ++ leBytes 2 n.toNat ++ wordBytes ws))
    (hu : u = v.tpAdd 0 (10 + n.toNat) 1 0)
    (hk : k = if u.wakesNow then 7 else State.writeCheck (addrsOf a.toNat n.toNat) u) :
    execHmpWrite a n ws crc s = .next ((if k = 0 then u.writeAct ((addrsOf a.toNat n.toNat).zip ws) (Config.readFlaws s.now)
      else u.answer k 0 []).wakeEvent 2) := by
  refine congrArg Host.Outcome.next (State.request_of_passed hhears hv (early_of_ok hlen haddr) hbroken ?_ hu hk)
  simp [Req.crcOk, wordBytes_length, hws, hcrc]

theorem State.request_resend {s v u w : State} {crc : BitVec 32} {r : HmpResp} {k : Nat} (hhears : s.hmpHears = true)
    (hbroken : s.hmp.broken = false) (hv : v = { s.hmpDue with hmp := { s.hmpDue.hmp with broken := false } })
    (hu : u = v.tpAdd 0 10 1 0) (hcrc : crc = crc32c (leBytes 1 0x0E ++ leBytes 3 0 ++ leBytes 2 0))
    (hr : r = s.hmp.resp.getD { status := 0x0D, detail := 0, payload := [] }) (hk : k = if u.wakesNow then 7 else u.plainCheck)
    (hw : w = (if k = 0 then { u with hmp := { u.hmp with status := r.status, detail := r.detail, out := some r, acceptedAt := u.now } }
      else u.answer k 0 []).wakeEvent 2) :
    s.request { cmd := 0x0E, addr := 0, len := 0, payload := [], crc := crc, want := 0 } 0 State.plainCheck State.resendAct = w := by
  have hresp : u.hmp.resp = s.hmp.resp := by
    rw [hu, hv]
    exact s.hmpDue_keeps.2
  rw [hw, hr, ← hresp]
  exact State.request_of_passed hhears hv rfl hbroken (by rw [Req.crcOk_nil, hcrc, beq_self_eq_true]) hu hk

theorem State.csRise_of_heard {s w : State} (hhears : s.hmpHears = true)
    (hw : w = { s with hmp := { s.hmp with eAbort := incTo 0xFF s.hmp.eAbort, broken := false } }) :
    s.csRise = (w.tpAdd 0 0 0 1).softActs true := by
  subst hw
  exact if_neg (by simp [hhears])

theorem State.softActs_of_none {s : State} (b : Bool) (h : s.sys.softAt = none) : s.softActs b = s := by
  simp only [State.softActs, h]

/-! ## Reading a word -/

theorem State.regWord_of_no_block {a : Nat} (s : State) (h : blkOf a = none) : s.regWord a = 0 := by
  simp only [State.regWord, h]

theorem State.putReg_of_no_block {a : Nat} (s : State) (l : Level) (w : Word) (f : LineFlaws) (h : blkOf a = none) :
    s.putReg l a w f = s := by
  simp only [State.putReg, h]

/-- Outside the channels an address with no view held shows the register of its block. -/
theorem State.regWord_of_blk {s : State} {a : Nat} {b : Blk} {x : Word} (hb : blkOf a = some b) (hch : b ≠ .ch ∨ 0x18000 ≤ a)
    (hview : tget 0 s.sys.view a = 0) (hx : s.blkReg b (a - b.base) = x) : s.regWord a = x := by
  simp only [State.regWord, hb, hview]
  rw [if_neg (by rintro ⟨h, hlt, -⟩; exact hch.elim (· h) (fun h => absurd hlt (Nat.not_lt.2 h)))]
  exact BitVec.or_zero.trans hx

theorem State.readEffect_of_lost {s : State} {a : Nat} (h : s.islLost (islServing a) = true) : s.readEffect a = s := if_pos h

theorem State.readEffect_of_lo {s : State} {a : Nat} (hlost : s.islLost (islServing a) = false) (hlo : isLo a = true) :
    s.readEffect a = { s with sys := { s.sys with hiCap := tset none s.sys.hiCap (a + 4) (some (s.regWord (a + 4))) } } := by
  unfold State.readEffect
  rw [if_neg (ne_true_of_eq_false hlost)]
  exact if_pos hlo

theorem State.readEffect_of_plain {s : State} {a : Nat} (hlost : s.islLost (islServing a) = false) (hlo : isLo a = false)
    (hseq : a ≠ 0x2060) (hflt : a ≠ 0x20060) :
    s.readEffect a = { s with sys := { s.sys with hiCap := tset none s.sys.hiCap a none } } := by
  unfold State.readEffect
  rw [if_neg (ne_true_of_eq_false hlost), if_neg (ne_true_of_eq_false hlo), if_neg hseq]
  exact if_neg hflt

theorem State.hostWord_of_lost {s : State} {a : Nat} (h : s.islLost (islServing a) = true) : s.hostWord a = 0xFFFFFFFF#32 := if_pos h

theorem State.hostWord_of_live {s : State} {a : Nat} (h : s.islLost (islServing a) = false) (hcap : tget none s.sys.hiCap a = none) :
    s.hostWord a = if 0x31000 ≤ a ∧ a < 0x310C0 ∧ a % 0x40 = 0x28 then 0 else s.regWord a := by
  unfold State.hostWord
  rw [if_neg (ne_true_of_eq_false h), hcap]

/-- The word after a _LO is no _LO, no GPIO_PADLVL and no log entry. -/
theorem isLo_next {a : Nat} (h : isLo a = true) : isLo (a + 4) = false ∧ a + 4 ≠ 0x2060 ∧ a + 4 ≠ 0x20060
    ∧ ¬ (0x31000 ≤ a + 4 ∧ a + 4 < 0x310C0 ∧ (a + 4) % 0x40 = 0x28) := by
  unfold isLo at h ⊢
  rcases Bool.or_eq_true _ _ ▸ h with hlist | hpair
  · have hmem := List.contains_iff_mem.1 hlist
    simp only [List.mem_cons, List.not_mem_nil, or_false] at hmem
    rcases hmem with rfl | rfl | rfl | rfl | rfl | rfl | rfl | rfl | rfl | rfl | rfl | rfl | rfl | rfl | rfl <;> decide
  · simp only [Bool.and_eq_true, Bool.or_eq_true, decide_eq_true_eq] at hpair
    have hlist : [0x10, 0x18, 0x24, 0x30, 0x6C, 0x78, 0x1018, 0x18204, 0x20018, 0x20028, 0x40010, 0x40018, 0x5005C, 0x70038,
        0x90064].contains (a + 4) = false := by
      simp only [List.contains_eq_mem, decide_eq_false_iff_not, List.mem_cons, List.not_mem_nil, or_false, not_or]
      omega
    have hmod : ¬ (a + 4) % 8 = 0 := by omega
    exact ⟨by rw [hlist, decide_eq_false hmod]; rfl, by omega, by omega, by omega⟩

/-- A read of a _LO captures its _HI, and the read of the _HI uses the capture up. -/
theorem State.hi_after_lo {s t u : State} {a : Nat} (hlo : isLo a = true) (hlost : s.islLost (islServing a) = false)
    (hlost' : s.islLost (islServing (a + 4)) = false) (ht : t = s.readEffect a) (hu : u = t.readEffect (a + 4)) :
    t.hostWord (a + 4) = s.regWord (a + 4) ∧ u.hostWord (a + 4) = u.regWord (a + 4) := by
  obtain ⟨hnext, hseq, hflt, hpad⟩ := isLo_next hlo
  rw [State.readEffect_of_lo hlost hlo] at ht
  have htl : t.islLost (islServing (a + 4)) = false := ht ▸ hlost'
  rw [State.readEffect_of_plain htl hnext hseq hflt] at hu
  constructor
  · have hcap : tget none t.sys.hiCap (a + 4) = some (s.regWord (a + 4)) := by
      simp only [ht, tget_tset_self]
    unfold State.hostWord
    rw [if_neg (ne_true_of_eq_false htl), if_neg hpad, hcap]
  · have hcap : tget none u.sys.hiCap (a + 4) = none := by
      simp only [hu, tget_tset_self]
    have hul : u.islLost (islServing (a + 4)) = false := hu ▸ htl
    exact (State.hostWord_of_live hul hcap).trans (if_neg hpad)

/-! ## Writing a word -/

theorem Irq.w1c_bit (x : Irq) (w : Word) {i : Nat} (hi : i < 32) :
    wbit (x.w1c w).st i = (wbit x.st i && (!wbit w i || wbit x.fresh i)) := by
  simp [Irq.w1c, wbit, hi]

theorem putPair_both (n : Nat) (lo hi : Word) (hn : n < 2 ^ 64) : putPair (putPair n 0 lo) 4 hi = lo.toNat + 2 ^ 32 * hi.toNat := by
  have hlo := lo.isLt
  have hhi := hi.isLt
  unfold putPair putWord
  norm_num
  omega

/-- A number put together from `n` bits. -/
def bitSum (g : Nat → Bool) (n : Nat) : Nat := (List.range n).foldl (fun a i => a + b2n (g i) * 2 ^ i) 0

theorem bitSum_succ (g : Nat → Bool) (n : Nat) : bitSum g (n + 1) = 2 ^ n * b2n (g n) + bitSum g n := by
  unfold bitSum
  rw [List.range_succ, List.foldl_append, Nat.mul_comm, Nat.add_comm]
  rfl

theorem bitSum_lt (g : Nat → Bool) (n : Nat) : bitSum g n < 2 ^ n := by
  induction n with
  | zero => exact Nat.one_pos
  | succ n ih =>
    rw [bitSum_succ, Nat.pow_succ]
    cases g n <;> simp [b2n] <;> omega

theorem bitSum_testBit (g : Nat → Bool) (n i : Nat) : (bitSum g n).testBit i = (decide (i < n) && g i) := by
  induction n with
  | zero => simp [bitSum]
  | succ n ih =>
    rw [bitSum_succ, Nat.testBit_two_pow_mul_add _ (bitSum_lt g n)]
    split
    · next h => simp [ih, h, Nat.lt_succ_of_lt h]
    · next h =>
      by_cases hi : i = n
      · subst hi
        cases g i <;> simp [b2n]
      · have hout : ¬ i < n + 1 := by omega
        have hpos : (b2n (g n)).testBit (i - n) = false := by
          obtain ⟨k, hk⟩ : ∃ k, i - n = k + 1 := ⟨i - n - 1, by omega⟩
          rw [hk]
          cases g n <;> simp [b2n, Nat.testBit_succ]
        simp [hpos, hout]

theorem mixBits_testBit (mask old new : Nat) {i : Nat} (hi : i < 16) :
    (mixBits mask old new).testBit i = if mask.testBit i then new.testBit i else old.testBit i :=
  (bitSum_testBit (fun i => if mask.testBit i then new.testBit i else old.testBit i) 16 i).trans (by simp [hi])

theorem lessBits_testBit (m n : Nat) {i : Nat} (hi : i < 16) : (lessBits m n).testBit i = (m.testBit i && !n.testBit i) := by
  unfold lessBits
  rw [mixBits_testBit _ _ _ hi]
  cases n.testBit i <;> simp

/-- The interrupt status registers by address. -/
def irqRegs : List (Nat × (State → Irq)) :=
  [(0x50, fun t : State => t.sys.irq), (0x1020, fun t => t.pwr.irq), (0x2050, fun t => t.seq.irq), (0x20B8, fun t => t.seq.springIrq),
    (0x18140, fun t => t.hs.hvsStat), (0x20050, fun t => t.flt.irq), (0x30050, fun t => t.wdg.irq), (0x31110, fun t => t.gpio.irq),
    (0x31118, fun t => t.gpio.intStat), (0x40020, fun t => t.cnt.irq), (0x50080, fun t => t.hld.irq), (0x601C0, fun t => t.sec.irq),
    (0x70028, fun t => t.env.irq), (0x80080, fun t => t.cfg.irq), (0x90090, fun t => t.cas.irq), (0xA0100, fun t => t.mcp.irq),
    (0xB0020, fun t => t.bbx.irq)]

/-- An interrupt status register shows its bits, and a write clears by ones. -/
theorem irqRegs_w1c (s : State) (l : Level) (w : Word) (f : LineFlaws) : ∀ e ∈ irqRegs, tget 0 s.sys.view e.1 = 0 →
    s.regWord e.1 = (e.2 s).st ∧ e.2 (s.putReg l e.1 w f) = (e.2 s).w1c w ∧ (s.putReg l e.1 w f).chans = s.chans := by
  unfold irqRegs
  simp only [List.forall_mem_cons]
  refine ⟨?_, ?_, ?_, ?_, ?_, ?_, ?_, ?_, ?_, ?_, ?_, ?_, ?_, ?_, ?_, ?_, ?_, fun e he => absurd he List.not_mem_nil⟩ <;>
    exact fun hv => ⟨State.regWord_of_blk rfl (by decide) hv rfl, rfl, rfl⟩

/-- The interrupt enable registers by address, with the bits they have. -/
def irqEnRegs : List (Nat × Word) :=
  [(0x54, 0xF#32), (0x1024, 7), (0x2054, 0xFF), (0x20BC, 3), (0x20054, 0x1FF), (0x30054, 0xF), (0x31114, 0x3FF), (0x40024, 7),
    (0x50084, 0x7F), (0x601C4, 0x7F), (0x7002C, 0x1F), (0x80084, 0xF), (0x90094, 0xFF), (0xA0104, 0xFF), (0xB0024, 7)]

/-- An interrupt enable register takes the bits it has. -/
theorem irqEnRegs_taken (s : State) (l : Level) (w : Word) (f : LineFlaws) : ∀ e ∈ irqEnRegs, tget 0 s.sys.view e.1 = 0 →
    (s.putReg l e.1 w f).regWord e.1 = w &&& e.2 ∧ (s.putReg l e.1 w f).chans = s.chans := by
  unfold irqEnRegs
  simp only [List.forall_mem_cons]
  refine ⟨?_, ?_, ?_, ?_, ?_, ?_, ?_, ?_, ?_, ?_, ?_, ?_, ?_, ?_, ?_, fun e he => absurd he List.not_mem_nil⟩ <;>
    exact fun hv => ⟨State.regWord_of_blk rfl (by decide) hv rfl, rfl⟩

/-- The registers that take no write, which 1.2 names RO. -/
def roRegs : List Nat :=
  [0x0, 0x10, 0x14, 0x18, 0x1C, 0x2C, 0x30, 0x34, 0x38, 0x40, 0x68, 0x6C, 0x70, 0x74, 0x78, 0x7C, 0x1000, 0x2004, 0x2008, 0x2060,
    0x2064, 0x20000, 0x20010, 0x20014, 0x20020, 0x20024, 0x20060, 0x20064, 0x3000C, 0x30010, 0x30020, 0x30030, 0x3110C, 0x40018, 0x4001C]

theorem roRegs_keep (s : State) (l : Level) (w : Word) (f : LineFlaws) : ∀ a ∈ roRegs, s.putReg l a w f = s := by
  unfold roRegs
  simp only [List.forall_mem_cons]
  exact ⟨rfl, rfl, rfl, rfl, rfl, rfl, rfl, rfl, rfl, rfl, rfl, rfl, rfl, rfl, rfl, rfl, rfl, rfl, rfl, rfl, rfl, rfl, rfl, rfl, rfl,
    rfl, rfl, rfl, rfl, rfl, rfl, rfl, rfl, rfl, rfl, fun a ha => absurd ha List.not_mem_nil⟩

/-- The registers that are only written: they read 0. -/
def woRegs : List Nat := [0x30008, 0x30014, 0x30018, 0x3001C, 0x31008, 0x3100C, 0x31048, 0x3104C]

theorem woRegs_zero (s : State) : ∀ a ∈ woRegs, tget 0 s.sys.view a = 0 → s.regWord a = 0 := by
  unfold woRegs
  simp only [List.forall_mem_cons]
  exact ⟨fun hv => State.regWord_of_blk rfl (by decide) hv rfl, fun hv => State.regWord_of_blk rfl (by decide) hv rfl,
    fun hv => State.regWord_of_blk rfl (by decide) hv rfl, fun hv => State.regWord_of_blk rfl (by decide) hv rfl,
    fun hv => State.regWord_of_blk rfl (by decide) hv (ite_self _), fun hv => State.regWord_of_blk rfl (by decide) hv (ite_self _),
    fun hv => State.regWord_of_blk rfl (by decide) hv (ite_self _), fun hv => State.regWord_of_blk rfl (by decide) hv (ite_self _),
    fun a ha => absurd ha List.not_mem_nil⟩

/-! ## Channels -/

theorem blkOf_of_range {a : Nat} {b : Blk} (hlow : b.base ≤ a) (hhigh : a < b.base + b.size) : blkOf a = some b := by
  have hbelow : blkBelow a = some b := by
    cases b <;> simp only [Blk.base, Blk.size] at hlow hhigh <;> unfold blkBelow <;> (repeat rw [if_neg (by omega)]) <;>
      rw [if_pos (by omega)]
  unfold blkOf
  rw [hbelow]
  exact Option.filter_eq_some_iff.2 ⟨rfl, decide_eq_true hhigh⟩

/-- A register of a channel, CH_LOCK aside. -/
theorem State.putReg_chan {s : State} {n o a : Nat} (l : Level) (w : Word) (f : LineFlaws) (ha : a = 0x10000 + 0x100 * n + o)
    (hn : n < 128) (ho : o < 0x100) (hlock : o ≠ 0x24) (huse : s.inUse n = true) :
    s.putReg l a w f = (s.chTouch n).putChan n l o w := by
  have hblk : blkOf a = some .ch := blkOf_of_range (by simp only [Blk.base]; omega) (by simp only [Blk.base, Blk.size]; omega)
  have hofs : a - Blk.ch.base = 0x100 * n + o := by simp only [Blk.base]; omega
  have hdiv : (0x100 * n + o) / 0x100 = n := by omega
  have hmod : (0x100 * n + o) % 0x100 = o := by omega
  simp only [State.putReg, hblk, hofs]
  unfold State.putCh
  rw [if_pos (by omega)]
  simp only [hdiv, hmod, huse, hlock]
  rfl

theorem State.putReg_unused {s : State} {a : Nat} (l : Level) (w : Word) (f : LineFlaws) (hlow : 0x10000 ≤ a) (hhigh : a < 0x18000)
    (huse : s.inUse ((a - 0x10000) / 0x100) = false) : s.regWord a = 0 ∧ s.putReg l a w f = s := by
  have hblk : blkOf a = some .ch := blkOf_of_range hlow (by simp only [Blk.base, Blk.size]; omega)
  constructor
  · simp only [State.regWord, hblk]
    exact if_pos (by simp [hhigh, huse])
  · simp only [State.putReg, hblk]
    unfold State.putCh
    rw [if_pos (by simp only [Blk.base]; omega)]
    exact if_pos (by simp only [Blk.base]; rw [huse]; rfl)

section
variable {s : State} {n : Nat} (l : Level) (w : Word) (f : LineFlaws) (huse : s.inUse n = true) (hn : n < 128)
include huse hn

theorem State.putReg_chIrq : ((s.putReg l (0x10044 + 0x100 * n) w f).chan n).sense.irq = (s.chan n).sense.irq.w1c w := by
  rw [State.putReg_chan l w f (n := n) (o := 0x44) (by omega) hn (by decide) (by decide) huse]
  simp only [State.putChan, State.modChan_chan, State.chTouch_chan]

theorem State.putReg_mgnIrq : ((s.putReg l (0x100B8 + 0x100 * n) w f).chan n).mgn.irq = (s.chan n).mgn.irq.w1c w := by
  rw [State.putReg_chan l w f (n := n) (o := 0xB8) (by omega) hn (by decide) (by decide) huse]
  simp only [State.putChan, State.modChan_chan, State.chTouch_chan]

theorem State.putReg_thr_of_locked {k : Nat} (hk : k < 6) (hlock : (s.chan n).sense.locked = true) :
    ((s.putReg l (0x10004 + 0x100 * n + 4 * k) w f).chan n).sense.stg = (s.chan n).sense.stg := by
  rw [State.putReg_chan l w f (n := n) (o := 4 + 4 * k) (by omega) hn (by omega) (by omega) huse]
  interval_cases k <;> simp [State.putChan, State.stageThr, State.chTouch_chan, hlock]

theorem State.putReg_mgnCfg : ((s.putReg l (0x10080 + 0x100 * n) w f).chan n).ch
    = if (s.chan n).sense.locked then (s.chan n).ch else { (s.chan n).ch with mgnCfg := w &&& 0x00FFFFF7#32 } := by
  rw [State.putReg_chan l w f (n := n) (o := 0x80) (by omega) hn (by decide) (by decide) huse]
  simp only [State.putChan, State.modChan_chan, State.chTouch_chan]
  split <;> rfl

theorem State.putReg_mgnTgt : ((s.putReg l (0x10084 + 0x100 * n) w f).chan n).ch
    = if (s.chan n).sense.locked then (s.chan n).ch else { (s.chan n).ch with mgnTgt := w &&& 0x01FFFFFF#32 } := by
  rw [State.putReg_chan l w f (n := n) (o := 0x84) (by omega) hn (by decide) (by decide) huse]
  simp only [State.putChan, State.modChan_chan, State.chTouch_chan]
  split <;> rfl

end

/-! ## GPIO and what a variant does not have -/

theorem State.putReg_od {s : State} {p : Nat} (l : Level) (w : Word) (f : LineFlaws) (hp : p < nGpio s.hw.variant) :
    s.putReg l (0x31014 + 0x40 * p) w f = s.modPort p fun x => { x with
      od := mixBits (lessBits (s.portMask p) x.locked) x.od (fld w 0 16) } := by
  have h3 : p < 3 := lt_of_lt_of_le hp (by cases s.hw.variant <;> decide)
  interval_cases p <;> exact if_pos hp

theorem fld_testBit (w : Word) {i : Nat} (hi : i < 16) : (fld w 0 16).testBit i = wbit w i := by
  unfold fld wbit
  rw [Nat.pow_zero, Nat.div_one, Nat.testBit_mod_two_pow, BitVec.testBit_toNat]
  simp [hi]

theorem State.putReg_od_bit {s : State} {p i : Nat} (l : Level) (w : Word) (f : LineFlaws) (hp : p < nGpio s.hw.variant) (hi : i < 16) :
    ((s.putReg l (0x31014 + 0x40 * p) w f).port p).od.testBit i
      = if (s.portMask p).testBit i && !(s.port p).locked.testBit i then wbit w i else (s.port p).od.testBit i := by
  rw [State.putReg_od l w f hp, State.modPort_port, mixBits_testBit _ _ _ hi, lessBits_testBit _ _ hi, fld_testBit w hi]

/-- The registers of what a DZ-32 does not have. -/
theorem State.putReg_absent {s : State} {a : Nat} (l : Level) (w : Word) (f : LineFlaws) (hvar : s.hw.variant = .dz32)
    (hview : tget 0 s.sys.view a = 0)
    (ha : (0x12000 ≤ a ∧ a < 0x18000) ∨ (0x31080 ≤ a ∧ a < 0x310C0) ∨ (0x41800 ≤ a ∧ a < 0x43000)) :
    s.regWord a = 0 ∧ s.putReg l a w f = s := by
  rcases ha with ⟨hlow, hhigh⟩ | ⟨hlow, hhigh⟩ | ⟨hlow, hhigh⟩
  · refine State.putReg_unused l w f (by omega) hhigh ?_
    have hch : ¬ (a - 0x10000) / 0x100 < 32 := by omega
    simp [State.inUse, hvar, nCh, hch]
  · have hblk : blkOf a = some .gpio := blkOf_of_range (by simp only [Blk.base]; omega) (by simp only [Blk.base, Blk.size]; omega)
    have hport : ¬ (a - Blk.gpio.base) / 0x40 < nGpio s.hw.variant := by
      rw [hvar]
      simp only [Blk.base, nGpio]
      omega
    have hofs : a - Blk.gpio.base < 0x0C0 := by simp only [Blk.base]; omega
    constructor
    · refine State.regWord_of_blk hblk (.inl (by decide)) hview ?_
      simp only [State.blkReg, State.gpioReg]
      rw [if_pos hofs, if_neg hport]
    · simp only [State.putReg, hblk, State.putGpio]
      rw [if_pos hofs, if_neg hport]
  · have hblk : blkOf a = some .cnt := blkOf_of_range (by simp only [Blk.base]; omega) (by simp only [Blk.base, Blk.size]; omega)
    have hofs : 0x1000 ≤ a - Blk.cnt.base ∧ a - Blk.cnt.base < 0x3000 := by simp only [Blk.base]; omega
    have hchan : ¬ (a - Blk.cnt.base - 0x1000) / 0x40 < nCh s.hw.variant := by
      rw [hvar]
      simp only [Blk.base, nCh]
      omega
    have hleaf : nCh s.hw.variant ≤ (a - Blk.cnt.base - 0x1000) / 8 / 8 := by omega
    constructor
    · refine State.regWord_of_blk hblk (.inl (by decide)) hview ?_
      simp only [State.blkReg, State.cntReg]
      rw [if_pos hofs, if_neg hchan]
    · simp only [State.putReg, hblk, State.putCnt]
      rw [if_pos hofs, if_pos hleaf]

/-- Settles O51. -/
theorem hmpRegisterAccessCompletes : Obligations.HmpRegisterAccessCompletes := by
  unfold Obligations.HmpRegisterAccessCompletes
  refine ⟨fun s v u a n crc k hhears hbroken hv hlen haddr hcrc hu hk =>
      execHmpRead_of_passed hhears hbroken hv hlen haddr hcrc hu hk,
    fun u w a hw => hw ▸ u.readAct_one a,
    fun s v u w l d a n ws crc f hf hhears hbroken hv hlen haddr hws hcrc hu hsess hwakes hcheck hwrite => ?_,
    fun s v u a n ws crc k hhears hbroken hv hlen haddr hws hcrc hu hk hne => ?_,
    fun s v u w crc r k hhears hbroken hv hu hcrc hr hk hw => ?_,
    fun s v c hhears hv hcmd => ?_, fun s w hhears hw => ?_, fun s w hhears hw => ?_,
    fun s l a w f h => ⟨s.regWord_of_no_block h, s.putReg_of_no_block l w f h⟩,
    fun s a h => ⟨State.hostWord_of_lost h, State.readEffect_of_lost h⟩,
    fun s t u a hlo hlost hlost' ht hu => State.hi_after_lo hlo hlost hlost' ht hu,
    fun s a hlost hcap => State.hostWord_of_live hlost hcap, fun x w i hi => x.w1c_bit w hi,
    fun s l w f e he => irqRegs_w1c s l w f e he,
    fun s l w f n huse hn => ⟨State.putReg_chIrq l w f huse hn, State.putReg_mgnIrq l w f huse hn⟩,
    fun s l w f e he => irqEnRegs_taken s l w f e he, fun s l lo hi f hat => putPair_both _ lo hi hat,
    fun s l a w f ha => roRegs_keep s l w f a ha, fun s a ha => woRegs_zero s a ha,
    fun s l w f n k huse hn hk hlock => ⟨State.putReg_thr_of_locked l w f huse hn hk hlock,
      (State.putReg_mgnCfg l w f huse hn).trans (if_pos hlock), (State.putReg_mgnTgt l w f huse hn).trans (if_pos hlock)⟩,
    fun s l w f n huse hn hlock => ?_, fun s l w f p i hp hi => State.putReg_od_bit l w f hp hi,
    fun s l a w f hlow hhigh huse => State.putReg_unused l w f hlow hhigh huse,
    fun s l a w f hvar hview ha => State.putReg_absent l w f hvar hview ha⟩
  · subst hf
    refine (execHmpWrite_of_passed (k := 0) hhears hbroken hv hlen haddr hws hcrc hu ?_).trans ?_
    · rw [hwakes, hcheck]
      rfl
    · rw [if_pos rfl, State.writeAct_of_session hsess hwrite]
  · exact (execHmpWrite_of_passed hhears hbroken hv hlen haddr hws hcrc hu hk).trans (by rw [if_neg hne])
  · have hframe := State.request_resend hhears hbroken hv hu hcrc hr hk hw
    exact congrArg (fun t : State => Host.Outcome.next { t with hmp := { t.hmp with resp := s.hmp.resp } }) hframe
  · refine congrArg Host.Outcome.next ?_
    unfold State.ecmd
    rw [if_neg (ne_true_of_eq_false hcmd)]
    exact State.request_of_early hhears hv (by decide)
  · exact ⟨congrArg Host.Outcome.next (State.csRise_of_heard hhears hw), fun hsoft => congrArg Host.Outcome.next
      ((State.csRise_of_heard hhears hw).trans (State.softActs_of_none true (hw ▸ hsoft)))⟩
  · subst hw
    exact congrArg Host.Outcome.next (if_neg (by simp [hhears]))
  · rw [State.putReg_mgnCfg l w f huse hn, State.putReg_mgnTgt l w f huse hn]
    simp only [hlock]
    exact ⟨rfl, rfl⟩

end Sys2Proof.Machine
end

section
/-! PROOFS. Sessions of the host port. -/

open Sys2Proof

namespace Sys2Proof.Machine

/-! ## The engines leave the host port alone -/

@[simp] theorem foldl_hmp {α : Type} (g : State → α → State) (l : List α) (s : State) (hg : ∀ t x, (g t x).hmp = t.hmp) :
    (l.foldl g s).hmp = s.hmp := by
  induction l generalizing s with
  | nil => rfl
  | cons a r ih => exact (ih _).trans (hg s a)

@[simp] theorem foldr_hmp {α : Type} (g : α → State → State) (l : List α) (s : State) (hg : ∀ x t, (g x t).hmp = t.hmp) :
    (l.foldr g s).hmp = s.hmp := by
  induction l with
  | nil => rfl
  | cons a r ih => exact (hg a _).trans ih

@[simp] theorem ite_hmp (p : Prop) [Decidable p] (a b : State) : (if p then a else b).hmp = if p then a.hmp else b.hmp :=
  apply_ite State.hmp p a b

@[simp] theorem State.modChan_hmp (s : State) (n : Nat) (f : Chan → Chan) : (s.modChan n f).hmp = s.hmp := rfl
@[simp] theorem State.modRail_hmp (s : State) (r : Nat) (f : Rail → Rail) : (s.modRail r f).hmp = s.hmp := rfl
@[simp] theorem State.count_hmp (s : State) (n e : Nat) : (s.count n e).hmp = s.hmp := by simp [State.count]
@[simp] theorem State.counts_hmp (s : State) (n : Nat) (l : List Nat) : (s.counts n l).hmp = s.hmp := by simp [State.counts]
@[simp] theorem State.casTo_hmp (s : State) (dst : Nat) (f : CasFrame) : (s.casTo dst f).hmp = s.hmp := rfl
@[simp] theorem State.casUp_hmp (s : State) (f : CasFrame) : (s.casUp f).hmp = s.hmp := rfl
@[simp] theorem State.casDown_hmp (s : State) (f : CasFrame) : (s.casDown f).hmp = s.hmp := rfl
@[simp] theorem State.publish_hmp (s : State) (r : Nat) : (s.publish r).hmp = s.hmp := by simp [State.publish]
@[simp] theorem State.countSrc_hmp (s : State) (i : Nat) (masked : Bool) : (s.countSrc i masked).hmp = s.hmp := by
  simp [State.countSrc]
@[simp] theorem State.report_hmp (s : State) (i stamp : Nat) (inj : Bool) : (s.report i stamp inj).hmp = s.hmp := by
  simp [State.report]
@[simp] theorem State.mcpSend_hmp (s : State) (fs : List McpFrame) : (s.mcpSend fs).hmp = s.hmp := rfl
/-- The message of an admission change and its report, behind a change of the hold-up state alone. -/
theorem State.admTold_hmp (s : State) (h : Hld) (p q : Prop) [Decidable p] [Decidable q] (fs : List McpFrame) (stamp : Nat) :
    (if q then (if p then ({ s with hld := h } : State) else State.mcpSend { s with hld := h } fs).report 1040 stamp
      else (if p then ({ s with hld := h } : State) else State.mcpSend { s with hld := h } fs)).hmp = s.hmp := by
  have hsent : (if p then ({ s with hld := h } : State) else State.mcpSend { s with hld := h } fs).hmp = s.hmp := by
    split <;> rfl
  split
  · exact (State.report_hmp _ 1040 stamp false).trans hsent
  · exact hsent
@[simp] theorem State.admissionBy_hmp (s : State) (mayOpen : Bool) (stamp : Nat) (rejected : List Nat) :
    (s.admissionBy mayOpen stamp rejected).hmp = s.hmp := by
  unfold State.admissionBy
  exact s.admTold_hmp _ _ _ _ _
@[simp] theorem State.admission_hmp (s : State) (stamp : Nat) (rejected : List Nat) : (s.admission stamp rejected).hmp = s.hmp := by
  simp [State.admission]
@[simp] theorem State.permits_hmp (s : State) : s.permits.hmp = s.hmp := by simp [State.permits]
@[simp] theorem State.bbxTrigger_hmp (s : State) (k src stamp : Nat) : (s.bbxTrigger k src stamp).hmp = s.hmp := by
  simp [State.bbxTrigger]
@[simp] theorem State.irqEnv_hmp (s : State) (i : Nat) : (s.irqEnv i).hmp = s.hmp := rfl
@[simp] theorem State.jrnl_hmp (s : State) (r : JRec) : (s.jrnl r).hmp = s.hmp := by simp [State.jrnl]
@[simp] theorem State.recordAt_hmp (s : State) (cls typ arg stamp queued : Nat) (parts : List (Nat × List Byte)) :
    (s.recordAt cls typ arg stamp queued parts).hmp = s.hmp := by simp [State.recordAt]
@[simp] theorem State.record_hmp (s : State) (cls typ arg stamp : Nat) (parts : List (Nat × List Byte)) :
    (s.record cls typ arg stamp parts).hmp = s.hmp := by simp [State.record]
@[simp] theorem State.drainEnd_hmp (s : State) (e stamp : Nat) : (s.drainEnd e stamp).hmp = s.hmp := by
  unfold State.drainEnd
  split <;> simp
@[simp] theorem State.drainStart_hmp (s : State) (k stamp : Nat) : (s.drainStart k stamp).hmp = s.hmp := by
  unfold State.drainStart
  split <;> simp
@[simp] theorem State.disAll_hmp (s : State) (stamp : Nat) : (s.disAll stamp).hmp = s.hmp := by simp [State.disAll]
@[simp] theorem State.safeEnter_hmp (s : State) (i stamp : Nat) : (s.safeEnter i stamp).hmp = s.hmp := by simp [State.safeEnter]
@[simp] theorem State.chanEvent_hmp (s : State) (src stamp : Nat) (inj : Bool) : (s.chanEvent src stamp inj).hmp = s.hmp := by
  simp [State.chanEvent]
@[simp] theorem State.cmpEvent_hmp (s : State) (n : Nat) (k : Cmp) (stamp : Nat) : (s.cmpEvent n k stamp).hmp = s.hmp := by
  simp [State.cmpEvent]
@[simp] theorem State.armRaise_hmp (s : State) (n : Nat) (k : Cmp) (stamp : Nat) : (s.armRaise n k stamp).hmp = s.hmp := by
  simp [State.armRaise]
@[simp] theorem State.armDue_hmp (s : State) (n : Nat) : (s.armDue n).hmp = s.hmp := by
  unfold State.armDue
  split <;> simp
@[simp] theorem State.armMoved_hmp (s : State) (n : Nat) (new : RailState) : (s.armMoved n new).hmp = s.hmp := by
  simp [State.armMoved]
@[simp] theorem State.hsTrip_hmp (s : State) (stamp : Nat) : (s.hsTrip stamp).hmp = s.hmp := by simp [State.hsTrip]
@[simp] theorem State.hsMoved_hmp (s : State) (old new : RailState) (stamp : Nat) : (s.hsMoved old new stamp).hmp = s.hmp := by
  simp [State.hsMoved]
@[simp] theorem State.moveRail_hmp (s : State) (r : Nat) (new : RailState) (cause stamp : Nat) :
    (s.moveRail r new cause stamp).hmp = s.hmp := by simp [State.moveRail]
@[simp] theorem State.rollback_hmp (s : State) (r why cause stamp : Nat) : (s.rollback r why cause stamp).hmp = s.hmp := by
  simp [State.rollback]
@[simp] theorem State.stopPass_hmp (s : State) (stamp : Nat) : (s.stopPass stamp).hmp = s.hmp := by simp [State.stopPass]
@[simp] theorem State.shutRail_hmp (s : State) (r src stamp : Nat) : (s.shutRail r src stamp).hmp = s.hmp := by
  unfold State.shutRail
  split <;> simp
@[simp] theorem State.shutDown_hmp (s : State) (rails : Option (List Nat)) (src origin stamp : Nat) (roots : List Nat) :
    (s.shutDown rails src origin stamp roots).hmp = s.hmp := by simp [State.shutDown]
@[simp] theorem State.resetDrive_hmp (s : State) (stamp : Nat) : (s.resetDrive stamp).hmp = s.hmp := by simp [State.resetDrive]
@[simp] theorem State.countRecords_hmp (s : State) (stamp : Nat) : (s.countRecords stamp).hmp = s.hmp := by
  simp [State.countRecords]
@[simp] theorem State.domBegin_hmp (fuel p : Nat) (s : State) : (State.domBegin fuel p s).hmp = s.hmp := by
  induction fuel generalizing p s with
  | zero => simp [State.domBegin]
  | succ n ih => simp [State.domBegin, ih]
@[simp] theorem State.domLeave_hmp (s : State) (a : Nat) (skip : Bool) : (s.domLeave a skip).hmp = s.hmp := by
  unfold State.domLeave
  split <;> simp
@[simp] theorem State.rungEnter_hmp (s : State) (r : Rung) (asked : Bool) : (s.rungEnter r asked).hmp = s.hmp := by
  simp [State.rungEnter]
@[simp] theorem State.lossRung_hmp (s : State) : s.lossRung.hmp = s.hmp := by
  unfold State.lossRung
  (repeat' split) <;> simp
@[simp] theorem State.seqChange_hmp (s : State) (stamp : Nat) : (s.seqChange stamp).hmp = s.hmp := by simp [State.seqChange]
@[simp] theorem State.brkArmed_hmp (s : State) (stamp : Nat) : (s.brkArmed stamp).hmp = s.hmp := by simp [State.brkArmed]
@[simp] theorem State.setGood_hmp (s : State) (r : Nat) (g : Bool) (stamp : Nat) : (s.setGood r g stamp).hmp = s.hmp := by
  simp only [State.setGood]
  (repeat' split) <;> simp
@[simp] theorem State.hsGood_hmp (s : State) (stamp : Nat) : (s.hsGood stamp).hmp = s.hmp := by simp [State.hsGood]
@[simp] theorem State.energy_hmp (s : State) (h : Nat) : (s.energy h).hmp = s.hmp := by simp [State.energy]
@[simp] theorem State.isolationEnd_hmp (s : State) : s.isolationEnd.hmp = s.hmp := by simp [State.isolationEnd]
@[simp] theorem State.wdgMode_hmp (s : State) : s.wdgMode.hmp = s.hmp := rfl
@[simp] theorem State.block_hmp (s : State) (r ref stamp : Nat) : (s.block r ref stamp).1.hmp = s.hmp := by
  unfold State.block
  (repeat' split) <;> simp
@[simp] theorem State.spread_hmp (stamp fuel : Nat) (q : List Nat) (s : State) : (State.spread stamp fuel q s).hmp = s.hmp := by
  induction fuel generalizing q s with
  | zero => simp [State.spread]
  | succ n ih =>
    cases q with
    | nil => rfl
    | cons q r => exact (ih _ _).trans (foldl_fst _ (fun t s => t.hmp = s.hmp) (fun _ => rfl) (fun _ _ _ h k => h.trans k)
        (fun s x => by simp) _ (s, []))
@[simp] theorem State.spreadFrom_hmp (s : State) (r stamp : Nat) : (s.spreadFrom r stamp).hmp = s.hmp := by simp [State.spreadFrom]
@[simp] theorem State.evalRail_hmp (s : State) (r stamp : Nat) : (s.evalRail r stamp).hmp = s.hmp := by
  simp only [State.evalRail]
  (repeat' split) <;> simp
@[simp] theorem State.graphPass_hmp (s : State) (stamp : Nat) : (s.graphPass stamp).hmp = s.hmp := by simp [State.graphPass]
@[simp] theorem State.onRail_hmp (s : State) (r src stamp : Nat) : (s.onRail r src stamp).hmp = s.hmp := by simp [State.onRail]
@[simp] theorem State.entryYields_hmp (s : State) : s.entryYields.hmp = s.hmp := by simp [State.entryYields]
@[simp] theorem State.onAct_hmp (s : State) (src stamp : Nat) (latched : Bool) : (s.onAct src stamp latched).hmp = s.hmp := by
  simp [State.onAct]
@[simp] theorem State.onTake_hmp (s : State) (src stamp : Nat) (latched : Bool) : (s.onTake src stamp latched).hmp = s.hmp := by
  simp [State.onTake]
@[simp] theorem State.onJudge_hmp (s : State) (src stamp : Nat) (latched : Bool) : (s.onJudge src stamp latched).hmp = s.hmp := by
  simp [State.onJudge]
@[simp] theorem State.onReq_hmp (s : State) (src stamp : Nat) (latched : Bool) : (s.onReq src stamp latched).hmp = s.hmp := by
  simp [State.onReq]
@[simp] theorem State.onResume_hmp (s : State) : s.onResume.hmp = s.hmp := by simp [State.onResume]
@[simp] theorem State.settle_hmp (s : State) (stamp : Nat) : (s.settle stamp).hmp = s.hmp := by simp [State.settle]
@[simp] theorem State.raiseOrDefer_hmp (s : State) (i : Nat) : (s.raiseOrDefer i).hmp = s.hmp := by simp [State.raiseOrDefer]

/-! ## CHAL, OPEN and CLOSE -/

theorem State.openFails_fails (s : State) : s.openFails.hmp.fails = min 7 (s.hmp.fails + 1) := by
  unfold State.openFails State.answer
  simp [State.irqLnk]

/-- The request of CHAL, OPEN or CLOSE carries the CRC of its frame. -/
theorem Req.crcOk_of_crc {r : Req} (hlen : r.payload.length = r.want)
    (hcrc : r.crc = crc32c (leBytes 1 r.cmd ++ leBytes 3 r.addr ++ leBytes 2 r.len ++ r.payload)) : r.crcOk = true := by
  simp [Req.crcOk, hlen, hcrc]

section
variable {s v u : State} {k : Nat} (hhears : s.hmpHears = true) (hbroken : s.hmp.broken = false)
  (hv : v = { s.hmpDue with hmp := { s.hmpDue.hmp with broken := false } }) (hk : k = if u.wakesNow then 7 else u.plainCheck)
include hhears hbroken hv hk

theorem execHmpChal_of_passed {lv : BitVec 24} {crc : BitVec 32} (hu : u = v.tpAdd 0 10 1 0) (hlv : lv.toNat < 4)
    (hcrc : crc = crc32c (leBytes 1 0x10 ++ leBytes 3 lv.toNat ++ leBytes 2 0)) :
    execHmpChal lv 0 crc s
      = .next ((if k = 0 then u.chalAct (Level.ofCode lv.toNat) else u.answer k 0 []).wakeEvent 2) :=
  congrArg Host.Outcome.next (State.request_of_passed hhears hv (if_neg (Nat.not_le.2 hlv)) hbroken
    (Req.crcOk_of_crc rfl (by rw [List.append_nil]; exact hcrc)) hu hk)

theorem execHmpOpen_of_passed {lv : BitVec 24} {mac : List (BitVec 8)} {crc : BitVec 32} (hu : u = v.tpAdd 0 42 1 0)
    (hlv : lv.toNat < 4) (hmac : mac.length = 32)
    (hcrc : crc = crc32c (leBytes 1 0x11 ++ leBytes 3 lv.toNat ++ leBytes 2 32 ++ mac)) :
    execHmpOpen lv 32#16 mac crc s
      = .next ((if k = 0 then u.openAct (Level.ofCode lv.toNat) mac else u.answer k 0 []).wakeEvent 2) :=
  congrArg Host.Outcome.next (State.request_of_passed hhears hv (if_neg (Nat.not_le.2 hlv)) hbroken
    (Req.crcOk_of_crc hmac hcrc) hu hk)

theorem execHmpClose_of_passed {crc : BitVec 32} (hu : u = v.tpAdd 0 10 1 0)
    (hcrc : crc = crc32c (leBytes 1 0x12 ++ leBytes 3 0 ++ leBytes 2 0)) :
    execHmpClose 0 0 crc s = .next ((if k = 0 then u.closeAct else u.answer k 0 []).wakeEvent 2) :=
  congrArg Host.Outcome.next (State.request_of_passed hhears hv rfl hbroken
    (Req.crcOk_of_crc rfl (by rw [List.append_nil]; exact hcrc)) hu hk)

end

theorem State.chalAct_eq (u : State) (l : Level) : u.chalAct l = if u.hmp.lockEnd.isSome then u.answer 0x0B 0 []
    else ({ (u.draw 32).2 with hmp := { (u.draw 32).2.hmp with nonce := some (l, (u.draw 32).1, (u.draw 32).2.now) } }).answerOk
      (u.draw 32).2.now 0 0 (u.draw 32).1 := rfl

section
variable {u w : State} {l : Level} {mac : List Byte} (hw : w = { u.endSession with hmp := { u.endSession.hmp with nonce := none } })
include hw

theorem State.openAct_of_no_nonce (h : u.hmp.nonce = none) : u.openAct l mac = w.answer 0x0C 0 [] := by
  subst hw
  unfold State.openAct
  rw [h]

theorem State.openAct_of_nonce {nl : Level} {b : List Byte} {at_ : Nat} (h : u.hmp.nonce = some (nl, b, at_)) :
    u.openAct l mac = if nl ≠ l then w.answer 0x0C 0 []
      else if w.openMac l b = some mac then ({ w with hmp := { w.hmp with session := some l, fails := 0 } }).answerOk w.now 0 0 []
      else w.openFails := by
  subst hw
  unfold State.openAct
  rw [h]

end

/-! ## Expiries -/

theorem State.idleEnds_of_idle {s : State} (hsess : s.hmp.session.isSome = true) (hidle : s.hmp.idle ≠ 0)
    (hdue : s.hmp.acceptedAt + s.hmp.idle * 100000000 ≤ s.now) : s.idleEnds = s.endSession :=
  if_pos (by simp [hsess, hidle, tSec, hdue])

theorem State.nonceEnds_of_old {s : State} {l : Level} {b : List Byte} {at_ : Nat} (h : s.hmp.nonce = some (l, b, at_))
    (hdue : at_ + 100000000 ≤ s.now) : s.nonceEnds = { s with hmp := { s.hmp with nonce := none } } := by
  have hfilter : (s.hmp.nonce.filter fun n => decide (s.now < n.2.2 + tSec)) = none := by
    rw [h]
    exact if_neg (mt of_decide_eq_true (Nat.not_lt.2 hdue))
  unfold State.nonceEnds
  rw [hfilter]

theorem State.lockoutEnds_of_due {s : State} {e : Nat} (h : s.hmp.lockEnd = some e) (hdue : e ≤ s.now) :
    s.lockoutEnds = { s with hmp := { s.hmp with lockEnd := none, fails := 0 } } := by
  unfold State.lockoutEnds
  rw [h, dueAt_some hdue]

/-- Settles O52. -/
theorem hmpSessionsComplete : Obligations.HmpSessionsComplete := by
  unfold Obligations.HmpSessionsComplete
  refine ⟨fun s v u lv crc k hhears hbroken hv hu hk hlv hcrc => ⟨(u.draw 32).2, (u.draw 32).1, rfl, rfl, ?_⟩,
    fun s v u w l lv crc mac hhears hbroken hv hu hlv hl hmac hcrc hwakes hplain hw => ?_,
    fun s v u lv crc mac k hhears hbroken hv hu hlv hmac hcrc hk hne => ?_,
    fun s v u crc k hhears hbroken hv hu hcrc hk => ?_,
    fun s c d t p => ⟨rfl, rfl, rfl, rfl, rfl, s.openFails_fails⟩,
    fun s hsess hidle hdue => congrArg Host.Outcome.next (State.idleEnds_of_idle hsess hidle hdue),
    fun s l b at_ h hdue => congrArg Host.Outcome.next (State.nonceEnds_of_old h hdue),
    fun s e h hdue => congrArg Host.Outcome.next (State.lockoutEnds_of_due h hdue)⟩
  · refine (execHmpChal_of_passed hhears hbroken hv hk hu hlv hcrc).trans ?_
    rw [← ite_not, State.chalAct_eq]
  · subst hl
    have hk : 0 = if u.wakesNow then 7 else u.plainCheck := by
      rw [hwakes, hplain]
      rfl
    have hopen := execHmpOpen_of_passed hhears hbroken hv hk hu hlv hmac hcrc
    rw [if_pos rfl] at hopen
    refine ⟨fun hn => ?_, fun nl b at_ hn => ?_⟩
    · rw [State.openAct_of_no_nonce hw hn] at hopen
      exact hopen
    · rw [State.openAct_of_nonce hw hn] at hopen
      refine ⟨fun hne => ?_, fun heq hmatch => ?_, fun heq hmiss => ?_⟩
      · rw [if_pos hne] at hopen
        exact hopen
      · rw [if_neg (not_not.2 heq), if_pos hmatch] at hopen
        exact hopen
      · rw [if_neg (not_not.2 heq), if_neg hmiss] at hopen
        exact hopen
  · exact (execHmpOpen_of_passed hhears hbroken hv hk hu hlv hmac hcrc).trans (by rw [if_neg hne])
  · refine (execHmpClose_of_passed hhears hbroken hv hk hu hcrc).trans ?_
    rw [← ite_not]
    rfl

end Sys2Proof.Machine
end

section
/-! PROOFS. The JTAG port and the link test. -/

open Sys2Proof

namespace Sys2Proof.Machine

/-! ## The instruction in effect -/

/-- The GPIO block with every pin of the ports parked. -/
def Gpio.parked (g : Gpio) (v : Variant) (now : Nat) : Gpio :=
  (List.range (nGpio v)).foldl (fun g p => { g with ports := tmod {} g.ports p fun x => x.park 0xFFFF now }) g

/-- Parking every pin changes the GPIO block alone. -/
theorem State.parkAll_eq (s : State) : s.parkAll = { s with gpio := s.gpio.parked s.hw.variant s.now } := by
  have hfold (l : List Nat) (s : State) : l.foldl (fun s p => s.modPort p fun x => x.park 0xFFFF s.now) s = { s with
      gpio := l.foldl (fun g p => { g with ports := tmod {} g.ports p fun x => x.park 0xFFFF s.now }) s.gpio } := by
    induction l generalizing s with
    | nil => rfl
    | cons p r ih => exact ih _
  exact hfold _ s

/-- Taking an instruction changes the instruction, and parks the pins where boundary scan comes or goes. -/
theorem State.takeIr_eq (s : State) (i : JtagIr) : s.takeIr i = { s with
    jtag := { s.jtag with ir := i }
    gpio := if s.scanHolds = (i.holds && (s.sec.dbg == .control || s.sec.dbg == .factory)) then s.gpio else s.parkAll.gpio } := by
  have hpark : ({ s with jtag := { s.jtag with ir := i } } : State).parkAll
      = { s with jtag := { s.jtag with ir := i }, gpio := s.parkAll.gpio } := by
    rw [State.parkAll_eq, State.parkAll_eq]
    rfl
  have hscan : ({ s with jtag := { s.jtag with ir := i } } : State).scanHolds
      = (i.holds && (s.sec.dbg == .control || s.sec.dbg == .factory)) := rfl
  unfold State.takeIr
  dsimp only
  rw [hscan]
  by_cases h : s.scanHolds = (i.holds && (s.sec.dbg == .control || s.sec.dbg == .factory))
  · rw [if_pos (beq_iff_eq.2 h), if_pos h]
  · rw [if_neg (mt beq_iff_eq.1 h), if_neg h, hpark]

/-! ## Boundary scan -/

/-- The pads of the ports named by the list are captured, and nothing else changes. -/
theorem State.padSeen_foldl (pads : List (BitVec 16)) (l : List Nat) (hl : l.Nodup) (s : State) :
    (l.foldl (fun s p => s.padSeen pads p) s).jtag = s.jtag ∧ (l.foldl (fun s p => s.padSeen pads p) s).sec = s.sec
    ∧ (l.foldl (fun s p => s.padSeen pads p) s).chans = s.chans ∧ (l.foldl (fun s p => s.padSeen pads p) s).seq = s.seq
    ∧ ∀ p, (l.foldl (fun s p => s.padSeen pads p) s).port p = if p ∈ l
        then { s.port p with pad := (pads[p]?.map BitVec.toNat).getD (s.port p).pad } else s.port p := by
  induction l generalizing s with
  | nil => exact ⟨rfl, rfl, rfl, rfl, fun _ => rfl⟩
  | cons q r ih =>
    obtain ⟨hq, hr⟩ := List.nodup_cons.1 hl
    obtain ⟨hjtag, hsec, hchans, hseq, hport⟩ := ih hr (s.padSeen pads q)
    refine ⟨hjtag, hsec, hchans, hseq, fun p => (hport p).trans ?_⟩
    by_cases hp : p = q
    · subst hp
      rw [if_neg hq, if_pos List.mem_cons_self]
      exact State.modPort_port s p _
    · have hsame : (s.padSeen pads q).port p = s.port p := State.modPort_port_ne s _ hp
      rw [hsame]
      simp only [List.mem_cons, hp, false_or]

theorem State.sample_eq (s : State) (pads : List (BitVec 16)) : (s.sample pads).jtag = { s.jtag with
      ir := .sample, pads := pads, loads := s.jtag.loads + 1, dr := pads.foldr (fun p a => p.toNat + 2 ^ 16 * a) 0 }
    ∧ (∀ p, (s.sample pads).port p = if p < nGpio s.hw.variant
        then { (s.takeIr .sample).port p with pad := (pads[p]?.map BitVec.toNat).getD ((s.takeIr .sample).port p).pad }
        else (s.takeIr .sample).port p)
    ∧ (s.sample pads).sec = s.sec ∧ (s.sample pads).chans = s.chans ∧ (s.sample pads).seq = s.seq := by
  unfold State.sample
  rw [State.takeIr_eq]
  obtain ⟨hjtag, hsec, hchans, hseq, hport⟩ := State.padSeen_foldl pads (List.range (nGpio s.hw.variant)) List.nodup_range
    { s with
      jtag := { s.jtag with ir := .sample, pads := pads, loads := s.jtag.loads + 1 }
      gpio := if s.scanHolds = (JtagIr.sample.holds && (s.sec.dbg == .control || s.sec.dbg == .factory)) then s.gpio else s.parkAll.gpio }
  refine ⟨?_, fun p => ?_, hsec, hchans, hseq⟩
  · exact congrArg (fun j : Jtag => { j with dr := pads.foldr (fun (p : BitVec 16) a => p.toNat + 2 ^ 16 * a) 0 }) hjtag
  · exact (hport p).trans (if_congr List.mem_range rfl rfl)

theorem State.scan_of_held {s : State} (i : JtagIr) (h : ((s.sec.dbg == .control || s.sec.dbg == .factory) && s.railsOff) = true) :
    s.scan i = { s.takeIr i with
      seq := { (s.takeIr i).seq with onLatch := none }
      jtag := { s.jtag with
        ir := i, loads := if i = .extest then s.jtag.loads + 1 else s.jtag.loads
        dr := if i = .extest then (s.takeIr i).padChain else 0 } } := by
  unfold State.scan
  rw [if_pos h, State.takeIr_eq]
  by_cases hi : i = .extest
  · simp only [hi, ↓reduceIte]
    rfl
  · simp only [hi, ↓reduceIte]
    rfl

theorem State.scan_eq (s : State) (i : JtagIr) : s.scan i = if (s.sec.dbg == .control || s.sec.dbg == .factory) && s.railsOff
    then { s.takeIr i with
      seq := { (s.takeIr i).seq with onLatch := none }
      jtag := { s.jtag with
        ir := i, loads := if i = .extest then s.jtag.loads + 1 else s.jtag.loads
        dr := if i = .extest then (s.takeIr i).padChain else 0 } }
    else (s.takeIr .bypass).shiftOut 0 := by
  split
  · next h => exact State.scan_of_held i h
  · next h => exact if_neg h

/-! ## Authenticated debug -/

theorem State.dbgNonce_of_open {s u : State} (hu : u = (s.takeIr .dbgChal).dbgLockPast) (hopen : u.jtag.lockEnd = none) :
    s.dbgNonce = { (u.draw 32).2 with jtag := { (u.draw 32).2.jtag with
      nonce := some ((u.draw 32).1, (u.draw 32).2.now), dr := leNat (u.draw 32).1 } } := by
  subst hu
  unfold State.dbgNonce
  dsimp only
  rw [hopen]
  rfl

theorem State.dbgNonce_of_locked {s u : State} (hu : u = (s.takeIr .dbgChal).dbgLockPast) (hlock : u.jtag.lockEnd.isSome = true) :
    s.dbgNonce = u.shiftOut 0 := by
  subst hu
  exact if_pos hlock

/-- A failure counts, and the fourth locks. -/
theorem State.dbgFails_of_open (u : State) (hopen : u.jtag.lockEnd = none) : u.dbgFails = { u with jtag := { u.jtag with
    nonce := none, fails := min 7 (u.jtag.fails + 1)
    lockEnd := if 4 ≤ min 7 (u.jtag.fails + 1) then some (u.now + 100000000) else none } } := by
  unfold State.dbgFails
  rw [hopen]
  rfl

section
variable {s u v : State} {l : Nat} {mac : List Byte} (hu : u = ((s.takeIr .dbgAuth).dbgLockPast).dbgNonceEnds)
  (hv : v = { u with jtag := { u.jtag with nonce := none } })
include hu hv

theorem State.dbgLogin_of_barred (h : u.jtag.lockEnd.isSome = true ∨ u.lcsJudge.dbgMax.code < l) : s.dbgLogin l mac = v := by
  subst hv hu
  exact if_pos (by rcases h with h | h <;> simp [h])

theorem State.dbgLogin_of_match (hopen : u.jtag.lockEnd = none) (hl : l ≤ u.lcsJudge.dbgMax.code) (hmac : u.dbgMac l = some mac) :
    s.dbgLogin l mac = ({ v with jtag := { v.jtag with unlocks := incTo 0xFF u.jtag.unlocks } }).dbgTo
      (if u.sec.transAt = some u.now then .off else Dbg.ofCode l) := by
  subst hv hu
  unfold State.dbgLogin
  rw [if_neg (by simp [hopen, hl])]
  exact if_pos hmac

theorem State.dbgLogin_of_miss (hopen : u.jtag.lockEnd = none) (hl : l ≤ u.lcsJudge.dbgMax.code) (hmac : u.dbgMac l ≠ some mac) :
    s.dbgLogin l mac = { v with jtag := { v.jtag with
      fails := min 7 (u.jtag.fails + 1), lockEnd := if 4 ≤ min 7 (u.jtag.fails + 1) then some (u.now + 100000000) else none } } := by
  subst hv
  refine Eq.trans ?_ (u.dbgFails_of_open hopen)
  subst hu
  unfold State.dbgLogin
  rw [if_neg (by simp [hopen, hl])]
  exact if_neg hmac

end

/-- The state after DBG_REG has been taken and has shifted out the previous read. -/
def State.dbgTaken (s : State) : State := (s.takeIr .dbgReg).shiftOut s.jtag.prevRead.toNat

theorem State.dbgTaken_sec (s : State) : s.dbgTaken.sec = s.sec := by
  unfold State.dbgTaken
  rw [State.takeIr_eq]
  rfl

theorem State.dbgAccess_read (s : State) (a : Nat) (d : Word) (f : LineFlaws) : s.dbgAccess a false d f
    = if s.dbgTaken.dbgRefuses a false = true ∨ a % 4 ≠ 0 ∨ s.sec.dbg = .off then s.dbgTaken
      else { s.dbgTaken with jtag := { s.dbgTaken.jtag with prevRead := s.dbgTaken.dbgWord a } } := by
  rw [← s.dbgTaken_sec]
  show (if s.dbgTaken.dbgRefuses a false || decide (a % 4 ≠ 0) then s.dbgTaken else if s.dbgTaken.sec.dbg = .off then s.dbgTaken
    else { s.dbgTaken with jtag := { s.dbgTaken.jtag with prevRead := s.dbgTaken.dbgWord a } }) = _
  rw [← ite_or]
  exact if_congr (by simp [or_assoc]) rfl rfl

theorem State.dbgAccess_write {s : State} {l : Level} (a : Nat) (d : Word) (f : LineFlaws) (hl : s.sec.dbg.rights = some l) :
    s.dbgAccess a true d f
    = if s.dbgTaken.dbgRefuses a true = true ∨ a % 4 ≠ 0 ∨ s.dbgTaken.islLost (islServing a) = true then s.dbgTaken
      else (s.dbgTaken.putReg l a d f).outNote a d := by
  rw [← s.dbgTaken_sec] at hl
  have hstep : s.dbgAccess a true d f = if s.dbgTaken.dbgRefuses a true || decide (a % 4 ≠ 0) then s.dbgTaken
      else if s.dbgTaken.islLost (islServing a) then s.dbgTaken else (s.dbgTaken.putReg l a d f).outNote a d := by
    unfold State.dbgAccess
    unfold State.dbgTaken at hl ⊢
    simp only [hl]
    rfl
  rw [hstep, ← ite_or]
  exact if_congr (by simp [or_assoc]) rfl rfl

theorem State.dbgAccess_no_rights {s : State} (a : Nat) (d : Word) (f : LineFlaws) (hl : s.sec.dbg.rights = none) :
    s.dbgAccess a true d f = s.dbgTaken := by
  rw [← s.dbgTaken_sec] at hl
  unfold State.dbgAccess
  unfold State.dbgTaken at hl ⊢
  simp only [hl]
  exact ite_self _

theorem State.dbgNonceEnds_of_old {s : State} {b : List Byte} {at_ : Nat} (h : s.jtag.nonce = some (b, at_))
    (hdue : at_ + 100000000 ≤ s.now) : s.dbgNonceEnds = { s with jtag := { s.jtag with nonce := none } } := by
  have hfilter : (s.jtag.nonce.filter fun n => decide (s.now < n.2 + tSec)) = none := by
    rw [h]
    exact if_neg (mt of_decide_eq_true (Nat.not_lt.2 hdue))
  unfold State.dbgNonceEnds
  rw [hfilter]

theorem State.dbgLockEnds_of_due {s : State} {e : Nat} (h : s.jtag.lockEnd = some e) (hdue : e ≤ s.now) :
    s.dbgLockEnds = { s with jtag := { s.jtag with lockEnd := none, fails := 0 } } := by
  unfold State.dbgLockEnds
  rw [h, dueAt_some hdue]

theorem execDbgReset_of_up {s : State} (hup : s.dbgUp = true) : execDbgReset s = .next (if s.sec.dbg = .control ∨ s.sec.dbg = .factory
    then (s.takeIr .dbgReset).orderly 64 else s.takeIr .dbgReset) := by
  refine congrArg Host.Outcome.next ((if_pos hup).trans (if_congr ?_ rfl rfl))
  cases s.sec.dbg <;> decide

/-- Settles O53. -/
theorem debugPortCompletes : Obligations.DebugPortCompletes := by
  unfold Obligations.DebugPortCompletes
  refine ⟨fun s i => ?_, fun s hup => ⟨congrArg Host.Outcome.next (if_pos hup), congrArg Host.Outcome.next (if_pos hup)⟩,
    fun s pads hup => ⟨_, congrArg Host.Outcome.next (if_pos hup), s.sample_eq pads⟩, fun s c i hup hc => ?_,
    fun s hup => congrArg Host.Outcome.next (if_pos hup),
    fun s u hup hu hopen => ⟨(u.draw 32).2, (u.draw 32).1, rfl,
      congrArg Host.Outcome.next ((if_pos hup).trans (State.dbgNonce_of_open hu hopen))⟩,
    fun s u hup hu hlock => congrArg Host.Outcome.next ((if_pos hup).trans (State.dbgNonce_of_locked hu hlock)),
    fun s u v lv mac hup hu hv => ⟨fun h => congrArg Host.Outcome.next ((if_pos hup).trans (State.dbgLogin_of_barred hu hv h)),
      fun hopen hl hmac => congrArg Host.Outcome.next ((if_pos hup).trans (State.dbgLogin_of_match hu hv hopen hl hmac)),
      fun hopen hl hmac => congrArg Host.Outcome.next ((if_pos hup).trans (State.dbgLogin_of_miss hu hv hopen hl hmac))⟩,
    fun s hup => congrArg Host.Outcome.next (if_pos hup),
    fun s u a d hup hu => hu ▸ congrArg Host.Outcome.next ((if_pos hup).trans (s.dbgAccess_read a.toNat d (Config.readFlaws s.now))),
    fun s u l a d f hf hup hl hu => ?_,
    fun s a d hup hl => congrArg Host.Outcome.next ((if_pos hup).trans (State.dbgAccess_no_rights a.toNat d _ hl)),
    fun s hup => execDbgReset_of_up hup, fun s hup => congrArg Host.Outcome.next (if_pos hup),
    fun s b at_ h hdue => congrArg Host.Outcome.next (State.dbgNonceEnds_of_old h hdue),
    fun s e h hdue => congrArg Host.Outcome.next (State.dbgLockEnds_of_due h hdue)⟩
  · rw [State.takeIr_eq]
    exact ⟨rfl, rfl, rfl, rfl, rfl, rfl⟩
  · rcases hc with ⟨rfl, rfl⟩ | ⟨rfl, rfl⟩ | ⟨rfl, rfl⟩
    · exact congrArg Host.Outcome.next ((if_pos hup).trans (s.scan_eq .extest))
    · exact congrArg Host.Outcome.next ((if_pos hup).trans (s.scan_eq .clamp))
    · exact congrArg Host.Outcome.next ((if_pos hup).trans (s.scan_eq .highz))
  · subst hf hu
    exact congrArg Host.Outcome.next ((if_pos hup).trans (State.dbgAccess_write a.toNat d _ hl))

/-! ## The link test -/

/-- Going into a test or back to training leaves the targets. -/
theorem State.ltMove_lt (s : State) (t : Nat) (off : Bool) : (s.ltMove t off).lt = s.lt := (s.ltMove_keep t off).2.2.2.2.2.1

/-- A target whose mode or pattern becomes `m`, `p`. -/
def Lt.moded (x : Lt) (m p : Nat) : Lt :=
  { x with
    mode := m, poly := p, code := 0, lock := x.lock && decide (x.mode = m ∧ x.poly = p), inj := if x.mode = m then x.inj else 0
    recent := if x.mode = m ∧ x.poly = p then x.recent else [] }

theorem State.ltMode_eq (s : State) (t m p : Nat) : s.ltMode t m p
    = if ((tget {} s.lt t).mode = 0) = (m = 0) then s.modLt t fun x => x.moded m p
      else (s.modLt t fun x => x.moded m p).ltMove t (decide (m = 0)) := by
  unfold State.ltMode Lt.moded
  simp only [decide_eq_true_eq]

theorem State.ltMode_lt (s : State) (t m p : Nat) : (s.ltMode t m p).lt = tmod {} s.lt t fun x => x.moded m p := by
  rw [State.ltMode_eq]
  split
  · rfl
  · exact State.ltMove_lt _ _ _

/-- A cascade port that goes into test or back to training touches its link alone. -/
theorem State.ltMove_cas {s : State} {t : Nat} (ht : 2 ≤ t) (off : Bool) : s.ltMove t off
    = s.modPortC (t - 2) fun q => q.clear (if !off then .down else if s.portEnabled (t - 2) then .training else .disabled) :=
  if_neg (Nat.not_lt.2 ht)

theorem State.ltMode_frame {s : State} {t : Nat} (ht : 2 ≤ t) (m p : Nat) :
    (s.ltMode t m p).hld = s.hld ∧ (s.ltMode t m p).mcp = s.mcp ∧ (s.ltMode t m p).flt = s.flt := by
  rw [State.ltMode_eq, State.ltMove_cas ht]
  split <;> exact ⟨rfl, rfl, rfl⟩

theorem State.ltMode_link {s : State} {t m : Nat} (ht : 2 ≤ t) (p : Nat) (hmove : (tget {} s.lt t).mode = 0 ↔ m ≠ 0) :
    ((s.ltMode t m p).casPort (t - 2)).link = if m ≠ 0 then .down else if s.portEnabled (t - 2) then .training else .disabled := by
  have hne : ¬ ((tget {} s.lt t).mode = 0) = (m = 0) := fun h => by
    have hm : m = 0 ↔ m ≠ 0 := h ▸ hmove
    exact absurd hm (by tauto)
  rw [State.ltMode_eq, if_neg hne, State.ltMove_cas ht, State.modPortC_casPort]
  by_cases hm : m = 0
  · simp only [hm, decide_true]
    rfl
  · rw [if_pos hm, decide_eq_false hm]
    rfl

section
variable {s : State} {l : Level} {t m p : Nat} {inj clr : Bool}

theorem State.ltWrite_of_low (hl : l.ge .owner = false) : s.ltWrite l t m p inj clr = s.modLt t fun x => { x with code := 1 } :=
  if_pos (by simp [hl])

theorem State.ltWrite_of_absent (hl : l.ge .owner = true) (hp : ltPresent s.hw.variant t = false) :
    s.ltWrite l t m p inj clr = s.modLt t fun x => { x with code := 3 } := by
  unfold State.ltWrite
  rw [if_neg (by simp [hl])]
  exact if_pos (by simp [hp])

theorem State.ltWrite_of_barred (hl : l.ge .owner = true) (hp : ltPresent s.hw.variant t = true) (hm : m ≠ 0) (hmay : s.ltMay t = false) :
    s.ltWrite l t m p inj clr = s.modLt t fun x => { x with code := 2 } := by
  unfold State.ltWrite
  rw [if_neg (by simp [hl]), if_neg (by simp [hp])]
  exact if_pos (by simp [hm, hmay])

/-- What INJ and CLR do to a target on the tick `now`. -/
def Lt.acted (x : Lt) (inj clr : Bool) (now : Nat) : Lt :=
  let x := if inj && decide (x.mode ≠ 0) then x.inject now else x
  if clr then { x with errs := 0, bits := 0 } else x

theorem State.ltWrite_of_accepted (hl : l.ge .owner = true) (hp : ltPresent s.hw.variant t = true) (hmay : m = 0 ∨ s.ltMay t = true) :
    s.ltWrite l t m p inj clr = (s.ltMode t m p).modLt t fun x => x.acted inj clr s.now := by
  unfold State.ltWrite
  rw [if_neg (by simp [hl]), if_neg (by simp [hp])]
  exact if_neg (by rcases hmay with h | h <;> simp [h])

end

/-- A write that leaves mode and pattern touches its target alone. -/
theorem State.ltMode_same (s : State) (t : Nat) : s.ltMode t (tget {} s.lt t).mode (tget {} s.lt t).poly
    = s.modLt t fun x => x.moded (tget {} s.lt t).mode (tget {} s.lt t).poly := by
  rw [State.ltMode_eq]
  exact if_pos rfl

theorem Lt.moded_same (x : Lt) : x.moded x.mode x.poly = { x with code := 0 } := by
  simp [Lt.moded]

theorem State.tget_modLt (s : State) (t : Nat) (f : Lt → Lt) : tget {} (s.modLt t f).lt t = f (tget {} s.lt t) :=
  tget_tmod_self _ _ _ _

theorem State.tget_modLt_ne (s : State) {t k : Nat} (f : Lt → Lt) (h : k ≠ t) : tget {} (s.modLt t f).lt k = tget {} s.lt k :=
  tget_tmod_ne _ _ _ h

/-- INJ or CLR alone: the target it leaves, and nothing else. -/
theorem State.ltWrite_same {s : State} {l : Level} {t : Nat} {x : Lt} (inj clr : Bool) (hl : l.ge .owner = true)
    (hx : x = tget {} s.lt t) (hp : ltPresent s.hw.variant t = true) (hmay : x.mode = 0 ∨ s.ltMay t = true) :
    tget {} (s.ltWrite l t x.mode x.poly inj clr).lt t = ({ x with code := 0 } : Lt).acted inj clr s.now
    ∧ (s.ltWrite l t x.mode x.poly inj clr).mcp = s.mcp ∧ (s.ltWrite l t x.mode x.poly inj clr).cas = s.cas
    ∧ (s.ltWrite l t x.mode x.poly inj clr).hld = s.hld ∧ (s.ltWrite l t x.mode x.poly inj clr).flt = s.flt
    ∧ ∀ k, k ≠ t → tget {} (s.ltWrite l t x.mode x.poly inj clr).lt k = tget {} s.lt k := by
  subst hx
  rw [State.ltWrite_of_accepted hl hp hmay, State.ltMode_same]
  refine ⟨?_, rfl, rfl, rfl, rfl, fun k hk => ?_⟩
  · rw [State.tget_modLt, State.tget_modLt, Lt.moded_same]
  · rw [State.tget_modLt_ne _ _ hk, State.tget_modLt_ne _ _ hk]

theorem State.ltCheck_eq (s : State) (t good errors window : Nat) :
    tget {} (s.ltCheck t good errors window).lt t = (tget {} s.lt t).checked good errors window
    ∧ (s.ltCheck t good errors window).cas = s.cas ∧ (s.ltCheck t good errors window).flt = s.flt
    ∧ (s.ltCheck t good errors window).hld = s.hld := by
  have htest := s.tget_modLt t fun x => x.checked good errors window
  unfold State.ltCheck
  dsimp only
  split
  · exact ⟨htest, rfl, rfl, rfl⟩
  · exact ⟨htest, rfl, rfl, rfl⟩

/-- Settles O54. -/
theorem linkTestCompletes : Obligations.LinkTestCompletes := by
  unfold Obligations.LinkTestCompletes
  refine ⟨fun s l t m p c hw hc => ?_, fun s t m p x hx => ?_, fun s l t x hw hl hx hp hmay => ?_,
    fun s t good errors window hp => ⟨_, congrArg Host.Outcome.next (if_pos hp), s.ltCheck_eq t good errors window⟩,
    fun s t good errors window hp => congrArg Host.Outcome.next (if_neg (by simp [hp]))⟩
  · have hexec : exec c s = .next (s.ltWrite l t m p false false) := by
      rcases hc with ⟨rfl, rfl, rfl⟩ | ⟨q, rfl, rfl, rfl⟩ | ⟨rfl, rfl, rfl⟩ | ⟨rfl, rfl, rfl⟩ <;>
        exact congrArg Host.Outcome.next (State.byHost_of_writer _ hw)
    rw [hexec]
    exact ⟨fun hl => congrArg Host.Outcome.next (State.ltWrite_of_low hl),
      fun hp hl => congrArg Host.Outcome.next (State.ltWrite_of_absent hl hp),
      fun hp hl hm hmay => congrArg Host.Outcome.next (State.ltWrite_of_barred hl hp hm hmay),
      fun hp hl hmay => congrArg Host.Outcome.next (State.ltWrite_of_accepted hl hp hmay)⟩
  · subst hx
    rw [State.ltMode_lt]
    exact ⟨tget_tmod_self _ _ _ _, fun k hk => tget_tmod_ne _ _ _ hk, fun ht =>
      ⟨(State.ltMode_frame ht m p).1, (State.ltMode_frame ht m p).2.1, (State.ltMode_frame ht m p).2.2, State.ltMode_link ht p⟩⟩
  · obtain ⟨ha, hra⟩ := State.ltWrite_same true false hl hx hp hmay
    obtain ⟨hb, hrb⟩ := State.ltWrite_same false true hl hx hp hmay
    refine ⟨s.ltWrite l t x.mode x.poly true false, s.ltWrite l t x.mode x.poly false true, ?_, ?_, ha.trans ?_, hb.trans rfl, ?_⟩
    · exact congrArg Host.Outcome.next ((State.byHost_of_writer _ hw).trans (by rw [hx]))
    · exact congrArg Host.Outcome.next ((State.byHost_of_writer _ hw).trans (by rw [hx]))
    · by_cases hm : x.mode = 0
      · rw [if_pos hm]
        simp [Lt.acted, hm]
      · rw [if_neg hm]
        simp [Lt.acted, Lt.inject, hm]
    · simp only [List.forall_mem_cons]
      exact ⟨hra, hrb, fun y hy => absurd hy List.not_mem_nil⟩

end Sys2Proof.Machine
end

section
/-! PROOFS. Lifecycle operations, keys and tamper. -/

open Sys2Proof

namespace Sys2Proof.Machine

/-! ## Fuse operations -/

theorem State.lcReq_of_refused {s : State} {o : LcReq} {l : Level} {key : Nat} (win : Nat) (hs : Bool) (h : s.lcCheck o l key ≠ 0) :
    s.lcReq o l key win hs = { s with sec := { s.sec with lcCode := s.lcCheck o l key } } := by
  unfold State.lcReq
  split
  · next h0 => exact absurd h0 h
  · rfl

/-- The state with the operation of a request in progress. -/
def State.lcBegun (s : State) (o : LcReq) (win : Nat) (hs : Bool) : State :=
  { s with sec := { s.sec with lcCode := 0, lcOp := some { op := o.code, win := win, hwStart := hs, arb := s.cfg.arbVer } } }

theorem State.lcReq_of_accepted {s : State} {o : LcReq} {l : Level} {key : Nat} (win : Nat) (hs : Bool) (h : s.lcCheck o l key = 0) :
    s.lcReq o l key win hs = if o.isTrans then (((s.lcBegun o win hs).zeroize).lcErase o).settle s.now else s.lcBegun o win hs := by
  unfold State.lcReq
  split
  · rfl
  · next c hc => exact absurd h hc

@[simp] theorem State.setDbg_now (s : State) (d : Dbg) : (s.setDbg d).now = s.now := (s.setDbg_keep d).1.2.2.2.2.1

/-- The debug level of a state whose lifecycle state was `was`: OFF, and no session, where it has changed. -/
def State.lcJudged (u : State) (was : Lcs) : State :=
  if !(!(u.lcs == was)) then u else (({ u with sec := { u.sec with transAt := some u.now } }).endSession).setDbg .off

theorem State.lcJudged_eq (u : State) (was : Lcs) : u.lcJudged was
    = if u.lcs = was then u else (({ u with sec := { u.sec with transAt := some u.now } }).endSession).setDbg .off :=
  if_congr (by simp) rfl rfl

theorem State.lcJudged_now (u : State) (was : Lcs) : (u.lcJudged was).now = u.now := by
  rw [State.lcJudged_eq]
  split
  · rfl
  · exact State.setDbg_now _ _

/-- The state that has read the fuses `f` at the end of an operation. -/
def State.lcRead (s : State) (f : Fuses) (ok : Bool) : State :=
  { s.takeFuses f with sec := { s.sec with lcOp := none, lcCode := if ok then 0 else 7, irq := Irq.set s.sec.irq 4 } }

theorem State.lcEnds_eq {s : State} {o : LcOp} {ok : Bool} (hop : s.sec.lcOp = some o) (hup : s.ctrlUp = true) :
    s.lcEnds ok = (if o.op ≤ 4 ∧ (ok ∨ !((s.lcRead (if ok || Config.fuseReads s.now then s.blown o else s.hw.fuses) ok).lcs == s.lcs))
      then ((s.lcRead (if ok || Config.fuseReads s.now then s.blown o else s.hw.fuses) ok).lcJudged s.lcs).unwrapAll
      else (s.lcRead (if ok || Config.fuseReads s.now then s.blown o else s.hw.fuses) ok).lcJudged s.lcs).settle
        ((s.lcRead (if ok || Config.fuseReads s.now then s.blown o else s.hw.fuses) ok).lcJudged s.lcs).now := by
  unfold State.lcEnds
  split
  · next h => cases hop.symm.trans h
  · next p h =>
    obtain rfl : o = p := Option.some.inj (hop.symm.trans h)
    exact if_neg (by simp [hup])

/-- The end of a fuse operation, in the state `u` that has read the fuses. -/
theorem State.lcEnds_of_op {s u v : State} {o : LcOp} {f : Fuses} {ok : Bool} (hop : s.sec.lcOp = some o) (hup : s.ctrlUp = true)
    (hf : f = if ok || Config.fuseReads s.now then s.blown o else s.hw.fuses) (hu : u = s.lcRead f ok) (hv : v = u.lcJudged s.lcs) :
    s.lcEnds ok = (if o.op ≤ 4 ∧ (ok = true ∨ u.lcs ≠ s.lcs) then v.unwrapAll else v).settle s.now := by
  have hnow : v.now = s.now := by
    rw [hv, State.lcJudged_now, hu]
    rfl
  rw [State.lcEnds_eq hop hup, ← hf, ← hu, ← hv, hnow]
  exact congrArg (State.settle · s.now) (if_congr (by simp) rfl rfl)

/-- Settles O55. -/
theorem lifecycleCompletes : Obligations.LifecycleCompletes := by
  unfold Obligations.LifecycleCompletes
  refine ⟨fun s l key w2 hs o c hw hc hne => ?_, fun s l o hw hzero => ⟨s.lcBegun o 0 false, rfl, ?_⟩, fun s l win hs hw hzero => ?_,
    fun s u v o f ok hop hup hf hu hv => ?_⟩
  · have hexec : ∃ (win : Nat) (b : Bool), exec c s = .next (s.lcReq o l key.toNat win b) := by
      rcases hc with ⟨rfl, rfl⟩ | ⟨rfl, rfl⟩ | ⟨rfl, rfl⟩ | ⟨rfl, rfl⟩ | ⟨rfl, rfl⟩ | ⟨rfl, rfl⟩ | ⟨rfl, rfl⟩ <;>
        exact ⟨_, _, congrArg Host.Outcome.next (State.byHost_of_writer _ hw)⟩
    obtain ⟨win, b, hexec⟩ := hexec
    exact hexec.trans (congrArg Host.Outcome.next (State.lcReq_of_refused win b hne))
  · have hreq : s.byHost 0x60004 .user (fun l => s.lcReq o l 0x1C5A 0 false)
        = if o.isTrans then (((s.lcBegun o 0 false).zeroize).lcErase o).settle s.now else s.lcBegun o 0 false :=
      (State.byHost_of_writer _ hw).trans (State.lcReq_of_accepted 0 false hzero)
    refine ⟨?_, ?_, ?_, ?_, ?_, ?_⟩ <;>
      · rintro rfl
        exact congrArg Host.Outcome.next hreq
  · exact congrArg Host.Outcome.next ((State.byHost_of_writer _ hw).trans (State.lcReq_of_accepted win.toNat hs hzero))
  · exact congrArg Host.Outcome.next (State.lcEnds_of_op hop hup hf hu (hv.trans (u.lcJudged_eq s.lcs).symm))

end Sys2Proof.Machine
end

section
/-! PROOFS. Keys and tamper. -/

open Sys2Proof

namespace Sys2Proof.Machine

/-! ## Key commands -/

/-- The end of a key installation that nothing but the blob can refuse. -/
def State.keyTaken (s : State) (l : Level) (store : List Byte → State) : State :=
  match s.unblob l with
  | none => s.keyRefuse 3
  | some k => store k

theorem State.keyTaken_of_none {s : State} {l : Level} (store : List Byte → State) (h : s.unblob l = none) :
    s.keyTaken l store = s.keyRefuse 3 := by
  unfold State.keyTaken
  rw [h]

theorem State.keyTaken_of_some {s : State} {l : Level} {k : List Byte} (store : List Byte → State) (h : s.unblob l = some k) :
    s.keyTaken l store = store k := by
  unfold State.keyTaken
  rw [h]

/-- A command refused with `c`, its last check the blob, and what it does otherwise. -/
theorem State.keyTaken_of_code {s t : State} {l : Level} {store : List Byte → State} {p c : Nat}
    (ht : t = if p ≠ 0 then s.keyRefuse p else s.keyTaken l store) (hc : c = if p ≠ 0 then p else if s.unblob l = none then 3 else 0) :
    (c ≠ 0 → t = s.keyRefuse c) ∧ ∀ k, c = 0 → s.unblob l = some k → t = store k := by
  subst ht hc
  by_cases hp : p = 0
  · rw [if_neg (not_not.2 hp), if_neg (not_not.2 hp)]
    refine ⟨fun hne => ?_, fun k _ hk => State.keyTaken_of_some store hk⟩
    have hblob : s.unblob l = none := by
      by_contra h
      exact hne (if_neg h)
    rw [if_pos hblob]
    exact State.keyTaken_of_none store hblob
  · rw [if_pos hp, if_pos hp]
    exact ⟨fun _ => rfl, fun k h0 => absurd h0 hp⟩

/-- A check in front of others refuses with its own code, or leaves the rest. -/
theorem State.keyRefuse_ite {s : State} {c : Prop} [Decidable c] {n p : Nat} {x y : State}
    (h : x = if p ≠ 0 then s.keyRefuse p else y) :
    (if c then s.keyRefuse (n + 1) else x) = if (if c then n + 1 else p) ≠ 0 then s.keyRefuse (if c then n + 1 else p) else y := by
  by_cases hc : c
  · rw [if_pos hc, if_pos hc]
    exact (if_pos (Nat.succ_ne_zero n)).symm
  · rw [if_neg hc, if_neg hc]
    exact h

/-- A check in front of others gives its own code, or leaves theirs. -/
theorem code_ite {c : Prop} [Decidable c] {n p q x : Nat} (h : q = if p ≠ 0 then p else x) :
    (if c then n + 1 else q) = if (if c then n + 1 else p) ≠ 0 then (if c then n + 1 else p) else x := by
  by_cases hc : c
  · rw [if_pos hc, if_pos hc]
    exact (if_pos (Nat.succ_ne_zero n)).symm
  · rw [if_neg hc, if_neg hc]
    exact h

/-- The checks of INSTALL_SKEY up to BUSY. -/
def State.skeyCheck (s : State) (l : Level) (lev : Nat) : Nat :=
  if l.ge .owner = false then 1 else if lev = 3 then 7
  else if lev = 2 ∧ l = .vendor ∧ s.lcs ≠ .blank ∧ s.lcs ≠ .provisioned then 2
  else if lev = 2 ∧ l ≠ .vendor ∧ s.lcs ≠ .provisioned ∧ s.lcs ≠ .deployed ∧ s.lcs ≠ .returned then 2
  else if lev ≠ 2 ∧ s.lcs = .retired then 2 else if s.sec.keyBusy.isSome then 5 else 0

/-- The lifecycle states in which a session key is not installed. -/
theorem State.skeyBarred_iff (st : Lcs) (l : Level) (lev : Nat) :
    (!(if lev = 2 then (if l == .vendor then st == .blank || st == .provisioned
        else st == .provisioned || st == .deployed || st == .returned) else st != .retired)) = true
      ↔ (lev = 2 ∧ l = .vendor ∧ st ≠ .blank ∧ st ≠ .provisioned)
        ∨ (lev = 2 ∧ l ≠ .vendor ∧ st ≠ .provisioned ∧ st ≠ .deployed ∧ st ≠ .returned) ∨ (lev ≠ 2 ∧ st = .retired) := by
  by_cases hlev : lev = 2
  · cases l <;> cases st <;> simp [hlev]
  · cases st <;> simp [hlev]

theorem State.skeyCheck_eq (s : State) (l : Level) (lev : Nat) : s.skeyCheck l lev
    = if l.ge .owner = false then 1 else if lev = 3 then 7
      else if (lev = 2 ∧ l = .vendor ∧ s.lcs ≠ .blank ∧ s.lcs ≠ .provisioned)
        ∨ (lev = 2 ∧ l ≠ .vendor ∧ s.lcs ≠ .provisioned ∧ s.lcs ≠ .deployed ∧ s.lcs ≠ .returned) ∨ (lev ≠ 2 ∧ s.lcs = .retired) then 2
      else if s.sec.keyBusy.isSome then 5 else 0 := by
  unfold State.skeyCheck
  rw [ite_or, ite_or]

theorem State.skeyInstall_eq (s : State) (l : Level) (lev : Nat) : s.skeyInstall l lev
    = if s.skeyCheck l lev ≠ 0 then s.keyRefuse (s.skeyCheck l lev)
      else s.keyTaken l fun k => s.keyStore k (s.secBase + 0x40 * lev) (lev + 1) 0 := by
  rw [State.skeyCheck_eq]
  simp only [← State.skeyBarred_iff]
  unfold State.skeyInstall
  simp only [Bool.not_eq_true']
  exact State.keyRefuse_ite (State.keyRefuse_ite (State.keyRefuse_ite (State.keyRefuse_ite (if_neg (not_not.2 rfl)).symm)))

/-- The checks of INSTALL_PAIR up to BUSY. -/
def State.pairCheck (s : State) (l : Level) : Nat :=
  if l.ge .owner = false then 1 else if s.lcs ≠ .provisioned ∧ s.lcs ≠ .deployed then 2 else if s.sec.keyBusy.isSome then 5 else 0

theorem State.pairInstall_eq (s : State) (l : Level) : s.pairInstall l
    = if s.pairCheck l ≠ 0 then s.keyRefuse (s.pairCheck l)
      else s.keyTaken l fun k => { s.keyStore k (s.secBase + 0xC0) 4 0 with
        sec := { (s.keyStore k (s.secBase + 0xC0) 4 0).sec with paired := true, kp := k } } := by
  have hst : (!(s.lcs == .provisioned || s.lcs == .deployed)) = true ↔ s.lcs ≠ .provisioned ∧ s.lcs ≠ .deployed := by simp
  unfold State.pairInstall State.pairCheck
  simp only [hst]
  simp only [Bool.not_eq_true']
  exact State.keyRefuse_ite (State.keyRefuse_ite (State.keyRefuse_ite (if_neg (not_not.2 rfl)).symm))

/-- The checks of a command for content key `i` in a lifecycle state that `bad` refuses. -/
theorem State.ckeyCheck_eq {s : State} {l : Level} {ok : Bool} {bad : Prop} [Decidable bad] (i : Nat) (hbad : bad ↔ ok = false) :
    s.ckeyCheck l ok i = if l ≠ .owner then 1 else if bad then 2 else if (s.kpol i).valid = false then 4
      else if (s.kpol i).line < 16 then 6 else if s.sec.keyBusy.isSome then 5 else 0 := by
  unfold State.ckeyCheck
  simp only [hbad]
  cases l <;> cases ok <;> simp

theorem State.ckeyInstall_eq (s : State) (l : Level) (i : Nat) : s.ckeyInstall l i
    = if s.ckeyCheck l (s.lcs == .provisioned || s.lcs == .deployed) i ≠ 0
      then s.keyRefuse (s.ckeyCheck l (s.lcs == .provisioned || s.lcs == .deployed) i)
      else s.keyTaken l fun k => s.keyStore k (s.ckeyLine i) 0x10 i := by
  unfold State.ckeyInstall
  split
  · next h =>
    rw [if_neg (not_not.2 h)]
    rfl
  · next c hc => exact (if_pos hc).symm

/-- The state with a content key erased. -/
def State.ckeyErased (s : State) (i : Nat) : State :=
  { s with
      env := s.env.clearLines (s.ckeyLine i) (s.ckeyLine i + 64)
      sec := { s.sec with keyCode := 0, restored := none, kram := tset [] s.sec.kram i []
                          ready := s.sec.ready &&& ~~~ BitVec.ofNat 256 (2 ^ i) } }

theorem State.ckeyErase_eq {s : State} {l : Level} {i c : Nat} (hc : s.ckeyCheck l (s.lcs != .retired) i = c) :
    s.ckeyErase l i = if c = 0 then (s.ckeyErased i).settle (s.ckeyErased i).now else s.keyRefuse c := by
  unfold State.ckeyErase
  split
  · next h =>
    rw [if_pos (hc.symm.trans h)]
    rfl
  · next h =>
    rw [if_neg (mt hc.trans h), hc]

/-- The state with the hold of a content key ended. -/
def State.holdEnded (s : State) (i : Nat) : State :=
  { s with sec := { s.sec with
      keyCode := 0, held := s.sec.held &&& ~~~ BitVec.ofNat 256 (2 ^ i), restored := some (s.now, i) } }

theorem State.holdRestore_eq {s : State} {l : Level} {i p c : Nat} (hp : s.ckeyCheck l (s.lcs == .deployed) i = p)
    (hc : c = if p ≠ 0 then p else if tget 0 s.sec.alarmTs i = s.now + 1 then 2 else 0) :
    s.holdRestore l i = if c = 0 then (s.holdEnded i).settle (s.holdEnded i).now else s.keyRefuse c := by
  unfold State.holdRestore
  split
  · next h =>
    have hp0 : p = 0 := hp.symm.trans h
    rw [if_neg (not_not.2 hp0)] at hc
    split
    · next ha =>
      rw [if_pos ha] at hc
      subst hc
      exact (if_neg (by decide)).symm
    · next ha =>
      rw [if_neg ha] at hc
      exact (if_pos hc).symm
  · next h =>
    have hp0 : p ≠ 0 := fun h0 => h (hp.trans h0)
    rw [if_pos hp0] at hc
    rw [hc, if_neg hp0, hp]

theorem State.keyDone_of_busy {s u : State} {a : Nat} {l : List Byte} (hbusy : s.sec.keyBusy = some (a, l)) (hup : s.ctrlUp = true)
    (hrung : s.rungOk = true) (hu : u = { s with env := s.env.putLine a l, sec := { s.sec with keyBusy := none } }) :
    s.keyDone = if leAt l 40 1 = 0x10 then u.unwrapStart [leAt l 41 1] else u := by
  have hflush : s.keyFlush = u := by
    unfold State.keyFlush
    rw [hbusy, hu]
  unfold State.keyDone
  rw [hbusy, hflush]
  exact if_pos (by simp [hup, hrung])

/-! ## Unwrapping -/

theorem State.unwrapEnds_of_due {s : State} {fl : LineFlaws} {l : List Nat} (hl : s.sec.unwrapping = some l) (hup : s.ctrlUp = true)
    (hrung : s.rungOk = true) (hisl : s.islLost 18 = false) :
    s.unwrapEnds fl = (l.foldl (State.unwrapOne fl) { s with sec := { s.sec with unwrapping := none } }).settle s.now := by
  unfold State.unwrapEnds
  rw [hl]
  exact if_pos (by simp [hup, hrung, hisl])

/-- The bit of key `i` in a map of the 256 keys. -/
theorem keyBit_getLsbD {i : Nat} (hi : i < 256) (j : Nat) : (BitVec.ofNat 256 (2 ^ i)).getLsbD j = decide (i = j) := by
  rw [BitVec.getLsbD_ofNat, Nat.testBit_two_pow]
  by_cases h : i = j
  · subst h
    simp [hi]
  · simp [h]

theorem State.report_sec (s : State) (i stamp : Nat) (inj : Bool) : (s.report i stamp inj).sec = s.sec := by
  unfold State.report
  split
  · rfl
  · show (s.countSrc i _).sec = s.sec
    unfold State.countSrc
    dsimp only
    split <;> rfl

theorem State.readLine_sec (s : State) (f : LineFlaws) (a : Nat) : (s.readLine f a).sec = s.sec := by
  unfold State.readLine
  dsimp only
  split
  · exact State.report_sec _ _ _ _
  · rfl

/-- What unwrapping one content key finds. -/
def State.unwrapKey (s : State) (fl : LineFlaws) (i : Nat) : Option (List Byte) :=
  if (s.env.check fl (s.ckeyLine i)).isNone && decide (leAt (s.env.lineAt (s.ckeyLine i)) 41 1 = i)
  then (s.readLine fl (s.ckeyLine i)).keyAt (s.ckeyLine i) 0x10 else none

theorem State.unwrapKey_isSome (s : State) (fl : LineFlaws) (i : Nat) :
    (s.unwrapKey fl i).isSome = ((s.env.check fl (s.ckeyLine i)).isNone && decide (leAt (s.env.lineAt (s.ckeyLine i)) 41 1 = i)
      && ((s.readLine fl (s.ckeyLine i)).keyAt (s.ckeyLine i) 0x10).isSome) := by
  unfold State.unwrapKey
  split
  · next h => rw [h, Bool.true_and]
  · next h => rw [eq_false_of_ne_true h, Bool.false_and, Option.isSome_none]

theorem State.unwrapOne_of_some {s : State} {fl : LineFlaws} {i : Nat} {k : List Byte} (hk : s.unwrapKey fl i = some k) :
    (s.unwrapOne fl i).sec = { s.sec with
      kram := tset [] s.sec.kram i k, ready := s.sec.ready ||| BitVec.ofNat 256 (2 ^ i)
      bad := s.sec.bad &&& ~~~ BitVec.ofNat 256 (2 ^ i) } := by
  unfold State.unwrapKey at hk
  unfold State.unwrapOne
  dsimp only
  rw [hk, State.readLine_sec]

theorem State.unwrapOne_of_none {s : State} {fl : LineFlaws} {i : Nat} (hk : s.unwrapKey fl i = none) :
    (s.unwrapOne fl i).sec = { s.sec with
      kram := tset [] s.sec.kram i [], ready := s.sec.ready &&& ~~~ BitVec.ofNat 256 (2 ^ i)
      bad := s.sec.bad ||| BitVec.ofNat 256 (2 ^ i), irq := Irq.set s.sec.irq 2 } := by
  unfold State.unwrapKey at hk
  unfold State.unwrapOne
  dsimp only
  rw [hk, State.readLine_sec]

theorem State.unwrapOne_bits {s t : State} {fl : LineFlaws} {i : Nat} {good : Bool} (hi : i < 256) (ht : t = s.unwrapOne fl i)
    (hgood : good = ((s.env.check fl (s.ckeyLine i)).isNone && decide (leAt (s.env.lineAt (s.ckeyLine i)) 41 1 = i)
      && ((s.readLine fl (s.ckeyLine i)).keyAt (s.ckeyLine i) 0x10).isSome)) :
    t.sec.ready.getLsbD i = good ∧ t.sec.bad.getLsbD i = !good
      ∧ (∀ j, j < 256 → j ≠ i → t.sec.ready.getLsbD j = s.sec.ready.getLsbD j ∧ t.sec.bad.getLsbD j = s.sec.bad.getLsbD j) := by
  rw [← State.unwrapKey_isSome] at hgood
  subst ht hgood
  cases hk : s.unwrapKey fl i with
  | none =>
    rw [State.unwrapOne_of_none hk]
    simp only [BitVec.getLsbD_or, BitVec.getLsbD_and, BitVec.getLsbD_not, keyBit_getLsbD hi]
    refine ⟨by simp, by simp, fun j hj hne => ⟨?_, ?_⟩⟩
    · simp [Ne.symm hne, hj]
    · simp [Ne.symm hne]
  | some k =>
    rw [State.unwrapOne_of_some hk]
    simp only [BitVec.getLsbD_or, BitVec.getLsbD_and, BitVec.getLsbD_not, keyBit_getLsbD hi]
    refine ⟨by simp, by simp, fun j hj hne => ⟨?_, ?_⟩⟩
    · simp [Ne.symm hne]
    · simp [Ne.symm hne, hj]

theorem State.unwrapOne_now (fl : LineFlaws) (s : State) (i : Nat) : (s.unwrapOne fl i).now = s.now :=
  (State.unwrapOne_keep fl s i).1.2.2.2.2.1

theorem State.foldl_unwrapOne_now (fl : LineFlaws) (l : List Nat) (s : State) : (l.foldl (State.unwrapOne fl) s).now = s.now := by
  induction l generalizing s with
  | nil => rfl
  | cons i l ih => exact (ih _).trans (State.unwrapOne_now fl s i)

/-! ## Permits -/

/-- A key is in the map of a list exactly if the list names it. -/
theorem mapOf_getLsbD (l : List Nat) {i : Nat} (hi : i < 256) : (mapOf l).getLsbD i = true ↔ i ∈ l := by
  suffices h : ∀ m : BitVec 256, (l.foldl (fun m i => m ||| BitVec.ofNat 256 (2 ^ i)) m).getLsbD i = true ↔ m.getLsbD i = true ∨ i ∈ l by
    exact (h 0).trans (by simp)
  induction l with
  | nil => simp
  | cons a l ih =>
    intro m
    rw [List.foldl_cons, ih, BitVec.getLsbD_or, BitVec.getLsbD_ofNat, Nat.testBit_two_pow, List.mem_cons]
    by_cases ha : a = i
    · simp [ha, hi]
    · simp [ha, Ne.symm ha]

theorem State.permitMap_getLsbD (s : State) {i : Nat} (hi : i < 256) : s.permitMap.getLsbD i = true
    ↔ s.permitBase = true ∧ s.permitIdx (decide (s.seqCode = 2)) i = true ∧ ∃ e ∈ s.sec.kram, e.1 = i := by
  unfold State.permitMap
  by_cases hb : s.permitBase = true
  · rw [if_pos hb, mapOf_getLsbD _ hi, List.mem_filter, List.mem_map]
    exact ⟨fun ⟨hm, hp⟩ => ⟨hb, hp, hm⟩, fun ⟨_, hp, hm⟩ => ⟨hm, hp⟩⟩
  · rw [if_neg hb]
    exact ⟨fun h => absurd h (by simp), fun h => absurd h.1 hb⟩

theorem State.permitBase_iff (s : State) : s.permitBase = true ↔ s.lcs = .deployed ∧ (s.sec.dbg = .off ∨ s.sec.dbg = .observe)
    ∧ (s.pwr.rung = .summer ∨ s.pwr.rung = .autumn) ∧ s.flt.safe = none ∧ s.wdg.expiredSince = false
    ∧ s.flt.priv.testBit 4 = false ∧ s.mcp.up = true ∧ s.sys.phase ≠ .recovery ∧ s.pwr.prepared = false := by
  have hrung : s.rungOk = true ↔ s.pwr.rung = .summer ∨ s.pwr.rung = .autumn := by
    unfold State.rungOk
    cases s.pwr.rung <;> simp
  simp [State.permitBase, State.safeNow, hrung, and_assoc]

theorem State.permitIdx_iff (s : State) (up : Bool) (i : Nat) : s.permitIdx up i = true
    ↔ (s.sec.dbg = .off ∨ (s.kpol i).cond.testBit 1 = true) ∧ (s.pwr.rung = .summer ∨ (s.kpol i).cond.testBit 0 = true)
      ∧ ((s.kpol i).cond.testBit 2 = true → up = true) ∧ ((s.kpol i).cond.testBit 3 = true → s.cas.st = .leader ∨ s.cas.st = .locked)
      ∧ ((s.kpol i).cond.testBit 4 = true → s.sec.rel.getLsbD i = true) ∧ s.sec.ready.getLsbD i = true
      ∧ s.sec.bad.getLsbD i = false ∧ s.sec.held.getLsbD i = false := by
  have himp : ∀ a b : Bool, (!a || b) = true ↔ (a = true → b = true) := by decide
  simp only [State.permitIdx, Bool.and_eq_true, Bool.or_assoc, himp]
  simp [and_assoc]

theorem State.permits_map (s : State) : s.permits.permitMap = s.permitMap := by
  unfold State.permits
  dsimp only
  split <;> rfl

theorem State.permits_sec (s : State) : s.permits.sec.permit = s.sec.permit &&& s.permitMap
    ∧ (s.permits.sec.permit ≠ s.sec.permit → s.permits.sec.irq = Irq.set s.sec.irq 1) := by
  have hmap : s.sec.permit &&& ~~~ (s.sec.permit &&& ~~~ s.permitMap) = s.sec.permit &&& s.permitMap := by
    ext i hi
    simp only [BitVec.getElem_and, BitVec.getElem_not]
    cases s.sec.permit[i] <;> simp
  unfold State.permits
  dsimp only
  split
  · next h =>
    rw [h] at hmap
    exact ⟨BitVec.and_allOnes.symm.trans hmap, fun hne => absurd rfl hne⟩
  · exact ⟨hmap, fun _ => rfl⟩

theorem State.mcpSend_sec (s : State) (l : List McpFrame) : (s.mcpSend l).sec = s.sec := by
  unfold State.mcpSend
  rfl

theorem State.permitTick_sec (s : State) : s.permitTick.sec.permit = s.permitMap ∧ s.permitTick.sec.revoked = 0 := by
  have hsub : s.permits.sec.permit ||| (s.permitMap &&& ~~~ s.permits.sec.permit) = s.permitMap := by
    rw [s.permits_sec.1]
    ext i hi
    simp only [BitVec.getElem_or, BitVec.getElem_and, BitVec.getElem_not]
    cases s.sec.permit[i] <;> simp
  unfold State.permitTick
  dsimp only
  rw [State.permits_map]
  split
  · next h =>
    obtain ⟨hnew, hrev⟩ := Bool.and_eq_true_iff.1 h
    rw [of_decide_eq_true hnew] at hsub
    exact ⟨BitVec.or_zero.symm.trans hsub, of_decide_eq_true hrev⟩
  · rw [State.mcpSend_sec]
    exact ⟨hsub, rfl⟩

/-! ## Tamper -/

theorem Pwr.onEvent_rung (p : Pwr) (lev stamp : Nat) :
    (p.onEvent lev stamp).rung = p.rung ∨ p.rung = .autumn ∧ (p.onEvent lev stamp).rung = .summer := by
  unfold Pwr.onEvent
  split
  · next h => exact .inr ⟨by simp_all, rfl⟩
  · exact .inl rfl

/-- A raised source leaves the rungs in which registers answer, or comes to none of the others. -/
theorem State.report_rungOk (s : State) (i stamp : Nat) (inj : Bool) : (s.report i stamp inj).rungOk = s.rungOk := by
  have hpwr : (s.report i stamp inj).pwr.rung = s.pwr.rung ∨ s.pwr.rung = .autumn ∧ (s.report i stamp inj).pwr.rung = .summer := by
    unfold State.report
    split
    · exact .inl rfl
    · have hcount : ∀ m, (s.countSrc i m).pwr = s.pwr := fun m => by
        unfold State.countSrc
        dsimp only
        split <;> rfl
      dsimp only
      rw [hcount]
      split
      · exact Pwr.onEvent_rung _ _ _
      · exact .inl rfl
  unfold State.rungOk
  rcases hpwr with h | ⟨h, h'⟩
  · rw [h]
  · rw [h, h']

theorem State.privEvent_rungOk (s : State) (which stamp : Nat) : (s.privEvent which stamp).rungOk = s.rungOk := by
  unfold State.privEvent
  dsimp only
  split
  · rcases State.record_cases { s with flt := s.flt.privSet which stamp } 1 0x07 0 stamp [(16, leBytes 1 which)] with h | ⟨e, h⟩
    · rw [h]
      exact State.report_rungOk _ _ _ _
    · rw [h]
      rfl
  · rfl

theorem State.privEvent_sys (s : State) (which stamp : Nat) : (s.privEvent which stamp).sys = s.sys := by
  unfold State.privEvent
  dsimp only
  split
  · exact (State.record_sys_wdg _ _ _ _ _ _).1
  · rfl

theorem State.setDbg_sys_pwr (s : State) (d : Dbg) : (s.setDbg d).sys = s.sys ∧ (s.setDbg d).pwr = s.pwr := by
  have hpark : ∀ (b : Bool) (t : State), (if b then t.parkAll else t).wdgMode.sys = t.sys
      ∧ (if b then t.parkAll else t).wdgMode.pwr = t.pwr := by
    intro b t
    rw [State.parkAll_eq]
    cases b <;> exact ⟨rfl, rfl⟩
  exact hpark _ _

/-- The state of a tamper event, its privileged event raised, from the state that records it. -/
def State.tampered (u : State) (t : Nat) : State := (u.zeroize.setDbg .off).privEvent 5 t

theorem State.tampered_keeps (u : State) (t : Nat) : (u.tampered t).rungOk = u.rungOk ∧ (u.tampered t).ctrlUp = u.ctrlUp := by
  obtain ⟨hsys, hpwr⟩ := u.zeroize.setDbg_sys_pwr .off
  constructor
  · refine (State.privEvent_rungOk _ _ _).trans ?_
    unfold State.rungOk
    rw [hpwr]
    rfl
  · have h : (u.tampered t).sys = u.sys := (State.privEvent_sys _ _ _).trans hsys
    unfold State.ctrlUp
    rw [h]

/-- The state that tamper by `how` is recorded in. -/
def State.tamperSeen (s : State) (how : Nat) : State :=
  { s with sec := { s.sec with
      tamperN := incTo 0xFF s.sec.tamperN, tamperLast := how, irq := Irq.set s.sec.irq 3
      tamperEnd := if how = 1 then s.now + Config.tamperLen s.now else s.sec.tamperEnd } }

theorem State.phase_ne_por_of_ctrlUp {s : State} (h : s.ctrlUp = true) : (s.sys.phase == .por) = false := by
  unfold State.ctrlUp at h
  cases hp : s.sys.phase <;> simp_all

theorem State.tamper_of_rungOk {s : State} {how : Nat} (hup : s.ctrlUp = true) (hv : s.sys.vauxDown = false) (hr : s.rungOk = true) :
    s.tamper how = ((((s.tamperSeen how).tampered s.now).wakeEvent 6).safeEnter 2047 s.now).settle s.now := by
  obtain ⟨hrung, hctrl⟩ := (s.tamperSeen how).tampered_keeps s.now
  unfold State.tamper
  rw [if_neg (by simp [State.phase_ne_por_of_ctrlUp hup, hv])]
  refine (if_neg ?_).trans (if_pos (hctrl.trans hup))
  exact ne_true_of_eq_false (congrArg not (hrung.trans hr))

theorem State.tamper_of_lowRung {s w : State} {how : Nat} (hup : s.ctrlUp = true) (hv : s.sys.vauxDown = false)
    (hr : s.rungOk = false) (hw : w = (s.tamperSeen how).tampered s.now) :
    s.tamper how = { w with pwr := { w.pwr with
        exit := some (.summer, (w.pwr.exit.map (·.2)).getD s.now), tamperWake := some s.now, wake := 6
        irq := if w.pwr.exit.isNone then Irq.set w.pwr.irq 1 else w.pwr.irq } } := by
  subst hw
  unfold State.tamper
  rw [if_neg (by simp [State.phase_ne_por_of_ctrlUp hup, hv])]
  exact if_pos (congrArg not (((s.tamperSeen how).tampered_keeps s.now).1.trans hr))

/-- Settles O56. -/
theorem keysComplete : Obligations.KeysComplete := by
  unfold Obligations.KeysComplete
  refine ⟨fun s l lv c hw hc => ?_, fun s l c hw hc => ?_, fun s l i c hw hc => ?_, fun s u l i c hw hc hu => ?_,
    fun s u l i c hw hc hu => ?_, fun _ _ => rfl, fun s u a l hbusy hup hrung hu => ?_, fun s fl l hl hup hrung hisl => ?_,
    fun s t fl i good hi ht hgood => State.unwrapOne_bits hi ht hgood, fun s => ⟨rfl, rfl, rfl, ?_⟩, fun s i hi => ?_,
    fun s => ⟨s.permits_sec.1, s.permitTick_sec.1, s.permitTick_sec.2, s.permits_sec.2⟩,
    fun s u v hup hv hu hv' => ⟨fun hr => ?_, fun w hr hw => ?_⟩⟩
  · have hlev : ∀ n : Nat, n < 4 → (lv = BitVec.ofNat 2 n ↔ lv.toNat = n) := fun n hn => by
      rw [← BitVec.toNat_inj, BitVec.toNat_ofNat, Nat.mod_eq_of_lt hn]
    have h3 : lv = 3 ↔ lv.toNat = 3 := hlev 3 (by decide)
    have h2 : lv = 2 ↔ lv.toNat = 2 := hlev 2 (by decide)
    simp only [h3, h2, Ne] at hc
    have hcode := State.keyTaken_of_code (State.skeyInstall_eq s l lv.toNat) (c := c)
      (hc.trans (code_ite (code_ite (code_ite (code_ite (code_ite (code_ite (if_neg (not_not.2 rfl)).symm)))))))
    exact ⟨fun hne => congrArg Host.Outcome.next ((State.byHost_of_writer _ hw).trans (hcode.1 hne)),
      fun k h0 hk => congrArg Host.Outcome.next ((State.byHost_of_writer _ hw).trans (hcode.2 k h0 hk))⟩
  · have hcode := State.keyTaken_of_code (State.pairInstall_eq s l) (c := c)
      (hc.trans (code_ite (code_ite (code_ite (if_neg (not_not.2 rfl)).symm))))
    refine ⟨fun hne => congrArg Host.Outcome.next ((State.byHost_of_writer _ hw).trans (hcode.1 hne)), fun k u h0 hk hu => ?_⟩
    subst hu
    exact congrArg Host.Outcome.next ((State.byHost_of_writer _ hw).trans (hcode.2 k h0 hk))
  · have hbad : (s.lcs ≠ .provisioned ∧ s.lcs ≠ .deployed) ↔ (s.lcs == .provisioned || s.lcs == .deployed) = false := by simp
    have hcode := State.keyTaken_of_code (State.ckeyInstall_eq s l i.toNat) (c := c)
      (hc.trans ((State.ckeyCheck_eq i.toNat hbad).symm ▸ code_ite (code_ite (code_ite (code_ite (code_ite (if_neg (not_not.2 rfl)).symm))))))
    exact ⟨fun hne => congrArg Host.Outcome.next ((State.byHost_of_writer _ hw).trans (hcode.1 hne)),
      fun k h0 hk => congrArg Host.Outcome.next ((State.byHost_of_writer _ hw).trans (hcode.2 k h0 hk))⟩
  · subst hu
    have hbad : s.lcs = .retired ↔ (s.lcs != .retired) = false := by simp
    exact congrArg Host.Outcome.next ((State.byHost_of_writer _ hw).trans
      (State.ckeyErase_eq ((State.ckeyCheck_eq _ hbad).trans hc.symm)))
  · subst hu
    have hbad : s.lcs ≠ .deployed ↔ (s.lcs == .deployed) = false := by simp
    exact congrArg Host.Outcome.next ((State.byHost_of_writer _ hw).trans
      (State.holdRestore_eq (State.ckeyCheck_eq _ hbad) (hc.trans (code_ite (code_ite (code_ite (code_ite (code_ite (if_neg (not_not.2 rfl)).symm))))))))
  · exact congrArg Host.Outcome.next (State.keyDone_of_busy hbusy hup hrung hu)
  · refine ⟨_, rfl, congrArg Host.Outcome.next ((State.unwrapEnds_of_due hl hup hrung hisl).trans ?_)⟩
    rw [State.foldl_unwrapOne_now]
    rfl
  · unfold State.permitMap
    split <;> rfl
  · rw [State.permitMap_getLsbD s hi]
    rw [State.permitBase_iff, State.permitIdx_iff, decide_eq_true_iff]
    constructor
    · rintro ⟨⟨hlcs, hdbg, hrung, hsafe, hexp, hpriv, hmcp, hrec, hprep⟩, ⟨hd, hr, hup, hcas, hrel, hready, hbad, hheld⟩, hkram⟩
      exact ⟨hlcs, hdbg.imp_right fun h => ⟨h, hd.resolve_left (h ▸ nofun)⟩,
        hrung.imp_right fun h => ⟨h, hr.resolve_left (h ▸ nofun)⟩,
        hup, hcas, hrel, hready, hbad, hheld, hsafe, hexp, hpriv, hmcp, hrec, hprep, hkram⟩
    · rintro ⟨hlcs, hdbg, hrung, hup, hcas, hrel, hready, hbad, hheld, hsafe, hexp, hpriv, hmcp, hrec, hprep, hkram⟩
      exact ⟨⟨hlcs, hdbg.imp_right And.left, hrung.imp_right And.left, hsafe, hexp, hpriv, hmcp, hrec, hprep⟩,
        ⟨hdbg.imp_right And.right, hrung.imp_right And.right, hup, hcas, hrel, hready, hbad, hheld⟩, hkram⟩
  · subst hu hv'
    exact ⟨congrArg Host.Outcome.next ((if_pos hr).trans (State.tamper_of_rungOk hup hv hr)),
      congrArg Host.Outcome.next (State.tamper_of_rungOk hup hv hr)⟩
  · subst hv'
    exact ⟨congrArg Host.Outcome.next (if_neg (ne_true_of_eq_false hr)),
      congrArg Host.Outcome.next (State.tamper_of_lowRung hup hv hr hw)⟩

end Sys2Proof.Machine
end

section
/-! PROOFS. The power ladder. -/

open Sys2Proof

namespace Sys2Proof.Machine

/-! ## Requests -/

/-- A request that a session of OPERATOR makes while no rung change is pending, of another rung than the present one. -/
theorem State.pwrReq_of_free {s : State} {l : Level} {r : Rung} (hl : l.ge .operator = true) (hentry : s.pwr.entry = none)
    (hexit : s.pwr.exit = none) (hr : s.pwr.rung ≠ r) : s.pwrReq r l = match (generalizing := false) r with
      | .summer => (({ s with pwr := { s.pwr with code := 0 } }).rungTo .summer).settle s.now
      | .autumn => ((({ s with pwr := { s.pwr with code := 0 } }).leaveSummer s.now).rungTo .autumn).settle s.now
      | _ => if s.canSleep then (({ s with pwr := { s.pwr with code := 0 } }).rungEnter r true).settle s.now else s.pwrRefuse 4 := by
  unfold State.pwrReq
  rw [hl, hentry, hexit, if_neg (by decide), if_neg hr]
  exact if_neg (by decide)

theorem State.pwrReq_sleep {s : State} {l : Level} {r : Rung} (hl : l.ge .operator = true) (hentry : s.pwr.entry = none)
    (hexit : s.pwr.exit = none) (hr : s.pwr.rung ≠ r) (hlow : r = .winter ∨ r = .midwinter) (hsleep : s.canSleep = true) :
    s.pwrReq r l = (({ s with pwr := { s.pwr with code := 0 } }).rungEnter r true).settle s.now := by
  rw [State.pwrReq_of_free hl hentry hexit hr]
  rcases hlow with rfl | rfl <;> exact if_pos hsleep

/-! ## Entry -/

/-- The rung `r` entered: the main clock stops, the pins are latched. -/
def State.rungStopped (v : State) (r : Rung) : State :=
  { v with
      sys := { v.sys with mainClock := false, rcAcc := 0 }
      cas := v.cas.clockStops
      gpio := { v.gpio with latched := true, mirHeld := (List.range 8).foldl (fun a k => a + b2n (v.mirror k) * 2 ^ k) 0 }
      pwr := { v.pwr with rung := r, entry := none, prepared := false, entryTs := v.now, irq := Irq.set v.pwr.irq 0 } }

theorem State.entryStop_of_ready {u : State} {r : Rung} (hentry : u.pwr.entry = some r) (hprep : u.pwr.prepared = true)
    (hrails : u.railsDown = true) (hclock : u.sys.mainClock = true) : u.entryStop = ((u.zeroize.endSession).setDbg .off).rungStopped r := by
  unfold State.entryStop
  rw [hentry]
  exact if_pos (by simp [hprep, hrails, hclock])

theorem State.entryStop_of_waiting {u : State} (h : u.pwr.entry = none ∨ u.pwr.prepared = false ∨ u.railsDown = false) :
    u.entryStop = u := by
  unfold State.entryStop
  cases hentry : u.pwr.entry with
  | none => rfl
  | some r =>
    rcases h with h | h | h
    · exact absurd (hentry.symm.trans h) nofun
    · exact if_neg (by simp [h])
    · exact if_neg (by simp [h])

theorem State.entryTick_eq {s t : State} (ht : t = (if s.pwr.rung = .summer then s.leaveSummer s.now else s).rungPrepare) :
    s.entryTick = if s.entryReady then (if s.pwr.entry = some .midwinter then t.portsLost fun _ => true else t) else s := by
  subst ht
  unfold State.entryTick
  simp only [beq_iff_eq]

/-! ## Timers and wake sources -/

theorem State.winMid_of_due {s : State} (hrung : s.pwr.rung = .winter) (hexit : s.pwr.exit = none) (hvin : s.vinComes = false)
    (hsec : fld s.pwr.policy 8 8 ≠ 0) (hdue : s.pwr.entryTs + fld s.pwr.policy 8 8 * 100000000 ≤ s.now) :
    s.winMid = { s.casDisable.portsLost
      (fun _ => true) with pwr := { s.pwr with rung := .midwinter, entryTs := s.now, irq := Irq.set s.pwr.irq 0 } } := by
  unfold State.winMid
  exact if_pos (by simp [hrung, hexit, hvin, hsec]; exact hdue)

theorem State.wakeTimer_of_due {s : State} (hsec : fld s.pwr.policy 16 16 ≠ 0)
    (hdue : s.pwr.entryTs + fld s.pwr.policy 16 16 * 100000000 ≤ s.now) : s.wakeTimer = s.wakeEvent 5 := by
  unfold State.wakeTimer
  exact if_pos (by simp [hsec]; exact hdue)

theorem State.wakeEvent_of_disabled {s : State} {src : Nat} (h : s.wakeEnabled src = false) : s.wakeEvent src = s :=
  if_neg (ne_true_of_eq_false h)

/-- A wake source in a rung that stands still begins the exit; DOM on is kept for its end. -/
theorem State.wakeEvent_of_low {s : State} {src : Nat} (hen : s.wakeEnabled src = true) (hr : s.rungOk = false) (hexit : s.pwr.exit = none) :
    s.wakeEvent src = { s with pwr := { s.pwr with
      domOn := s.pwr.domOn || decide (src = 3), wake := src, irq := Irq.set s.pwr.irq 1
      exit := some (if src = 6 then .summer else if wbit s.pwr.policy 2 then .autumn else .summer, s.now) } } := by
  have hby : ∀ t : State, t.rungOk = false → t.pwr.exit = none → t.wakeBy src = { t with pwr := { t.pwr with
      wake := src, irq := Irq.set t.pwr.irq 1
      exit := some (if src = 6 then .summer else if wbit t.pwr.policy 2 then .autumn else .summer, t.now) } } := fun t h h' => by
    unfold State.wakeBy
    rw [if_neg (ne_true_of_eq_false h), if_neg (by simp [h'])]
  unfold State.wakeEvent
  rw [if_pos hen]
  by_cases h3 : src = 3
  · rw [if_pos ⟨h3, congrArg not hr⟩, decide_eq_true h3, Bool.or_true]
    exact hby { s with pwr := { s.pwr with domOn := true } } hr hexit
  · rw [if_neg fun h => h3 h.1, decide_eq_false h3, Bool.or_false]
    exact hby s hr hexit

theorem State.wakeEvent_of_entry {s : State} {src : Nat} (hen : s.wakeEnabled src = true) (hr : s.rungOk = true)
    (hentry : s.pwr.entry.isSome = true) : s.wakeEvent src = { s with pwr := { s.pwr with woke := some (src, s.now) } } := by
  unfold State.wakeEvent
  rw [if_pos hen, if_neg (fun h => absurd h.2 (by simp [hr]))]
  unfold State.wakeBy
  rw [if_pos hr]
  exact if_pos hentry

theorem State.wakeEnabled_winter {s : State} {k : Nat} (h1 : 1 ≤ k) (h6 : k ≤ 6) (h : s.pwr.entry.getD s.pwr.rung = .winter) :
    s.wakeEnabled k = (decide (k = 6) || wbit s.pwr.wakeWinter (k - 1) && decide (k ≠ 6)) := by
  unfold State.wakeEnabled
  rw [h]
  interval_cases k <;> simp

theorem State.wakeEnabled_midwinter {s : State} {k : Nat} (h1 : 1 ≤ k) (h6 : k ≤ 6) (h : s.pwr.entry.getD s.pwr.rung = .midwinter) :
    s.wakeEnabled k = (decide (k = 6) || wbit s.pwr.wakeMid (k - 1) && decide (k ≠ 3 ∧ k ≠ 6)) := by
  unfold State.wakeEnabled
  rw [h]
  interval_cases k <;> simp

theorem State.wakeEnabled_high {s : State} (k : Nat) (h : s.pwr.entry.getD s.pwr.rung = .summer ∨ s.pwr.entry.getD s.pwr.rung = .autumn) :
    s.wakeEnabled k = false := by
  unfold State.wakeEnabled
  rcases h with h | h <;> rw [h]

/-! ## Exit -/

/-- The target rung of an exit, the main clock running again, the latch released. -/
def State.rungWoken (u : State) (r : Rung) : State :=
  { u with
      sys := { u.sys with mainClock := true }
      wdg := if u.wdg.run then { u.wdg.period (u.now + 1) with armed := true } else { u.wdg with armed := true }
      gpio := { u.gpio with latched := false }
      pwr := { u.pwr with rung := r, exit := none, entryTs := u.now, irq := Irq.set u.pwr.irq 0 } }

theorem State.exitDone_of_due {s u v w x y : State} {r : Rung} {at_ : Nat} (hexit : s.pwr.exit = some (r, at_)) (hr : s.rungOk = false)
    (hdue : at_ + (if s.pwr.rung = .midwinter then 20000 else 2000) ≤ s.now) (hu : u = s.rcEdge) (hv : v = u.rungWoken r)
    (hy : y = ({ v.casRetrain with sys := { v.casRetrain.sys with deferred := [] } }.unwrapAll).reports v.sys.deferred u.now)
    (hw : w = { y with pwr := { y.pwr with tamperWake := none, domOn := false } })
    (hx : x = ((match y.pwr.tamperWake with | some t => w.safeEnter 2047 t | none => w)).settle u.now) :
    s.exitDone = if y.pwr.domOn then (x.onReq 2 u.now).settle u.now else x := by
  have hlen : s.pwr.rung.exitLen = if s.pwr.rung = .midwinter then 20000 else 2000 := by
    cases s.pwr.rung <;> rfl
  unfold State.exitDone
  rw [hexit]
  refine (if_neg ?_).trans ?_
  · rw [hr, hlen]
    simpa using hdue
  · subst hx hw hy hv hu
    rfl

/-- Settles O57. -/
theorem powerLadderCompletes : Obligations.PowerLadderCompletes := by
  unfold Obligations.PowerLadderCompletes
  refine ⟨fun s l hw hl hentry hexit => ⟨_, rfl, fun hr => ?_, fun hr => ?_, fun hr hs => ?_, fun hr hs => ?_⟩, fun _ _ => ⟨rfl, rfl⟩,
    fun _ _ ht => State.entryTick_eq ht, fun s u v w r hu hentry hprep hrails hclock hv hw => ?_, fun s u hu h => ?_,
    fun _ hrung hexit hvin hsec hdue => congrArg Host.Outcome.next (State.winMid_of_due hrung hexit hvin hsec hdue),
    fun _ hsec hdue => congrArg Host.Outcome.next (State.wakeTimer_of_due hsec hdue),
    fun _ _ h => congrArg Host.Outcome.next (State.wakeEvent_of_disabled h), fun s src hen hr hexit => ?_,
    fun _ _ hen hr hentry => congrArg Host.Outcome.next (State.wakeEvent_of_entry hen hr hentry),
    fun s k h1 h6 => ⟨State.wakeEnabled_winter h1 h6, State.wakeEnabled_midwinter h1 h6, State.wakeEnabled_high k⟩,
    fun s u v w x y r at_ hexit hr hdue hu hv hy hw hx => congrArg Host.Outcome.next (State.exitDone_of_due hexit hr hdue hu hv hy hw hx),
    fun s u hpor hvaux hu => ?_⟩
  · exact congrArg Host.Outcome.next ((State.byHost_of_writer _ hw).trans (State.pwrReq_of_free hl hentry hexit (hr ▸ nofun)))
  · exact congrArg Host.Outcome.next ((State.byHost_of_writer _ hw).trans (State.pwrReq_of_free hl hentry hexit (hr ▸ nofun)))
  · exact congrArg Host.Outcome.next ((State.byHost_of_writer _ hw).trans (State.pwrReq_sleep hl hentry hexit hr (.inl rfl) hs))
  · exact congrArg Host.Outcome.next ((State.byHost_of_writer _ hw).trans (State.pwrReq_sleep hl hentry hexit hr (.inr rfl) hs))
  · subst hu hv hw
    exact congrArg (fun t : State => Host.Outcome.next t.wakeKept) (State.entryStop_of_ready hentry hprep hrails hclock)
  · subst hu
    exact congrArg (fun t : State => Host.Outcome.next t.wakeKept) (State.entryStop_of_waiting h)
  · have hsrc : ∀ n : Nat, n < 16 → (src = BitVec.ofNat 4 n ↔ src.toNat = n) := fun n hn => by
      rw [← BitVec.toNat_inj, BitVec.toNat_ofNat, Nat.mod_eq_of_lt hn]
    have h3 : src = 3 ↔ src.toNat = 3 := hsrc 3 (by decide)
    have h6 : src = 6 ↔ src.toNat = 6 := hsrc 6 (by decide)
    simp only [h3, h6]
    exact congrArg Host.Outcome.next (State.wakeEvent_of_low hen hr hexit)
  · subst hu
    refine congrArg Host.Outcome.next (if_neg ?_)
    simp [hpor, hvaux]

end Sys2Proof.Machine
end

section
/-! PROOFS. The pins: writes of a port's registers, its lock, edges and wake pins. -/

open Sys2Proof

namespace Sys2Proof.Machine

/-! ## Errors of a write, pin by pin -/

theorem Irq.set_set (r : Irq) (i : Nat) : Irq.set (Irq.set r i) i = Irq.set r i := by
  simp only [Irq.set, wset, BitVec.or_assoc, BitVec.or_self]

/-- `t` has, over `s`, the errors of kind `code` of those of the first `n` pins of port `p` that are `bad`. -/
structure State.Erred (s t : State) (code p : Nat) (bad : Nat → Bool) (n : Nat) : Prop where
  err : t.gpio.err = match (generalizing := false) ((List.range n).filter bad).getLast? with
    | some i => wpack [(0, 4, code), (8, 2, p), (12, 4, i)]
    | none => s.gpio.err
  irq : t.gpio.irq = if (List.range n).any bad then Irq.set s.gpio.irq 8 else s.gpio.irq

theorem State.Erred.fine {s t u : State} {code p n : Nat} {bad : Nat → Bool} (h : State.Erred s t code p bad n) (hbad : bad n = false)
    (herr : u.gpio.err = t.gpio.err) (hirq : u.gpio.irq = t.gpio.irq) : State.Erred s u code p bad (n + 1) := by
  constructor
  · rw [herr, List.range_succ, List.filter_append, List.filter_singleton, hbad]
    simpa using h.err
  · rw [hirq, List.range_succ, List.any_append, List.any_cons, hbad]
    simpa using h.irq

theorem State.Erred.bad {s t : State} {code p n : Nat} {bad : Nat → Bool} (h : State.Erred s t code p bad n) (hbad : bad n = true) :
    State.Erred s (t.gpioErr code p n) code p bad (n + 1) := by
  have hset : (t.gpioErr code p n).gpio.irq = Irq.set t.gpio.irq 8 := rfl
  constructor
  · rw [List.range_succ, List.filter_append, List.filter_singleton, hbad]
    simp [State.gpioErr]
  · rw [List.range_succ, List.any_append, List.any_cons, hbad, hset, h.irq]
    split <;> simp [Irq.set_set]

/-! ## Pulls -/

theorem fourDigit_testBit (x j k : Nat) : (x / 4 ^ j % 4).testBit k = (decide (k < 2) && x.testBit (k + 2 * j)) := by
  have h4 : (4 : Nat) ^ j = 2 ^ (2 * j) := by rw [Nat.pow_mul]
  rw [h4, show (4 : Nat) = 2 ^ 2 from rfl, Nat.testBit_mod_two_pow, Nat.testBit_div_two_pow]

/-- The bit `k` of a field of two bits that stands at pin `i`, looked up in the field of pin `j`. -/
theorem fourShift_testBit {v : Nat} (hv : v < 4) (i : Nat) {j k : Nat} (hk : k < 2) :
    (v * 4 ^ i).testBit (k + 2 * j) = (decide (j = i) && v.testBit k) := by
  have h4 : (4 : Nat) ^ i = 2 ^ (2 * i) := by rw [Nat.pow_mul]
  rw [h4, Nat.testBit_mul_two_pow]
  rcases Nat.lt_trichotomy j i with h | h | h
  · rw [decide_eq_false (by omega), decide_eq_false (by omega), Bool.false_and, Bool.false_and]
  · subst h
    rw [decide_eq_true (by omega), decide_eq_true rfl, Nat.add_sub_cancel]
  · have hlt : v < 2 ^ (k + 2 * j - 2 * i) :=
      lt_of_lt_of_le hv (Nat.pow_le_pow_right (n := 2) (by decide) (show 2 ≤ k + 2 * j - 2 * i by omega))
    rw [Nat.testBit_lt_two_pow hlt, decide_eq_false (by omega : ¬ j = i), Bool.and_false, Bool.false_and]

/-- The PULL fields after one of them is written. -/
theorem pullField_put (x : Word) {v i j : Nat} (hv : v < 4) (hj : j < 16) :
    ((x &&& ~~~ w32 (3 * 4 ^ i)) ||| w32 (v * 4 ^ i)).toNat / 4 ^ j % 4 = if j = i then v else x.toNat / 4 ^ j % 4 := by
  apply Nat.eq_of_testBit_eq
  intro k
  by_cases hk : k < 2
  · have h32 : k + 2 * j < 32 := by omega
    rw [fourDigit_testBit, BitVec.testBit_toNat]
    simp only [w32, BitVec.getLsbD_or, BitVec.getLsbD_and, BitVec.getLsbD_not, BitVec.getLsbD_ofNat, fourShift_testBit hv i hk,
      fourShift_testBit (v := 3) (by decide) i hk, decide_eq_true hk, decide_eq_true h32]
    have h3 : (3 : Nat).testBit k = true := by interval_cases k <;> rfl
    by_cases hji : j = i
    · simp [hji, h3]
    · rw [if_neg hji, fourDigit_testBit, BitVec.testBit_toNat]
      simp [hji, hk]
  · have hbig : ∀ n, n < 4 → n.testBit k = false := fun n hn =>
      Nat.testBit_lt_two_pow (lt_of_lt_of_le hn (Nat.pow_le_pow_right (n := 2) (by decide) (Nat.le_of_not_lt hk)))
    rw [hbig _ (Nat.mod_lt _ (by decide))]
    split
    · exact (hbig v hv).symm
    · exact (hbig _ (Nat.mod_lt _ (by decide))).symm

/-- The pull of pin `i` of port `p` may be written. -/
def State.pullFree (s : State) (p i : Nat) : Bool := (s.portMask p).testBit i && !(s.port p).locked.testBit i

/-- The write of a pull is undefined for pin `i`. -/
def State.pullBad (s : State) (p value i : Nat) : Bool := s.pullFree p i && decide (value / 4 ^ i % 4 = 3)

theorem State.portMask_congr {s t : State} {p : Nat} (hclaim : (t.port p).claim = (s.port p).claim) (hvar : t.hw.variant = s.hw.variant) :
    t.portMask p = s.portMask p := by
  unfold State.portMask
  rw [hclaim, hvar]

theorem State.pullPin_of_fixed {s : State} {p value i : Nat} (h : s.pullFree p i = false) : s.pullPin p value i = s := by
  unfold State.pullPin
  refine if_pos ?_
  unfold State.pullFree at h
  cases hm : (s.portMask p).testBit i <;> simp_all

theorem State.pullPin_of_bad {s : State} {p value i : Nat} (h : s.pullFree p i = true) (hv : value / 4 ^ i % 4 = 3) :
    s.pullPin p value i = s.gpioErr 2 p i := by
  obtain ⟨hm, hl⟩ := Bool.and_eq_true_iff.1 h
  unfold State.pullPin
  rw [if_neg (by simpa [hm] using hl)]
  exact if_pos hv

theorem State.pullPin_of_good {s : State} {p value i : Nat} (h : s.pullFree p i = true) (hv : value / 4 ^ i % 4 ≠ 3) :
    s.pullPin p value i
      = s.modPort p fun x => { x with pull := (x.pull &&& ~~~ w32 (3 * 4 ^ i)) ||| w32 (value / 4 ^ i % 4 * 4 ^ i) } := by
  obtain ⟨hm, hl⟩ := Bool.and_eq_true_iff.1 h
  unfold State.pullPin
  rw [if_neg (by simpa [hm] using hl)]
  exact if_neg hv

/-- `t` comes of `s` by the write of the pulls of the first `n` pins of port `p`. -/
structure State.Pulled (s t : State) (p value n : Nat) : Prop where
  field : ∀ i, i < 16 → (t.port p).pull.toNat / 4 ^ i % 4
    = if i < n ∧ s.pullFree p i = true ∧ s.pullBad p value i = false then value / 4 ^ i % 4 else (s.port p).pull.toNat / 4 ^ i % 4
  port : t.port p = { s.port p with pull := (t.port p).pull }
  others : ∀ q, q ≠ p → t.port q = s.port q
  errs : State.Erred s t 2 p (s.pullBad p value) n
  variant : t.hw.variant = s.hw.variant

theorem State.Pulled.free {s t : State} {p value n : Nat} (h : State.Pulled s t p value n) (i : Nat) : t.pullFree p i = s.pullFree p i := by
  have hclaim : (t.port p).claim = (s.port p).claim := by rw [h.port]
  have hlocked : (t.port p).locked = (s.port p).locked := by rw [h.port]
  unfold State.pullFree
  rw [State.portMask_congr hclaim h.variant, hlocked]

theorem State.Pulled.step {s t : State} {p value n : Nat} (h : State.Pulled s t p value n) :
    State.Pulled s (t.pullPin p value n) p value (n + 1) := by
  cases hfree : s.pullFree p n with
  | false =>
    have hbad : s.pullBad p value n = false := by rw [State.pullBad, hfree, Bool.false_and]
    rw [State.pullPin_of_fixed ((h.free n).trans hfree)]
    refine ⟨fun i hi => (h.field i hi).trans (if_congr ?_ rfl rfl), h.port, h.others, h.errs.fine hbad rfl rfl, h.variant⟩
    by_cases hin : i = n
    · simp [hin, hfree]
    · simp [show i < n + 1 ↔ i < n by omega]
  | true =>
    by_cases hv : value / 4 ^ n % 4 = 3
    · have hbad : s.pullBad p value n = true := by rw [State.pullBad, hfree, Bool.true_and, decide_eq_true hv]
      rw [State.pullPin_of_bad ((h.free n).trans hfree) hv]
      refine ⟨fun i hi => (h.field i hi).trans (if_congr ?_ rfl rfl), h.port, h.others, h.errs.bad hbad, h.variant⟩
      by_cases hin : i = n
      · simp [hin, hbad]
      · simp [show i < n + 1 ↔ i < n by omega]
    · have hbad : s.pullBad p value n = false := by rw [State.pullBad, hfree, Bool.true_and, decide_eq_false hv]
      rw [State.pullPin_of_good ((h.free n).trans hfree) hv]
      refine ⟨fun i hi => ?_, ?_, fun q hq => (State.modPort_port_ne t _ hq).trans (h.others q hq), h.errs.fine hbad rfl rfl, h.variant⟩
      · rw [State.modPort_port]
        refine (pullField_put _ (Nat.mod_lt _ (by decide)) hi).trans ?_
        by_cases hin : i = n
        · subst hin
          rw [if_pos rfl, if_pos ⟨Nat.lt_succ_self i, hfree, hbad⟩]
        · rw [if_neg hin, h.field i hi]
          simp [show i < n + 1 ↔ i < n by omega]
      · rw [State.modPort_port, h.port]

theorem State.gpioPull_pulled (s : State) (p value : Nat) : State.Pulled s (s.gpioPull p value) p value 16 := by
  unfold State.gpioPull
  suffices h : ∀ n, State.Pulled s ((List.range n).foldl (fun s i => s.pullPin p value i) s) p value n from h 16
  intro n
  induction n with
  | zero => exact ⟨fun i _ => (if_neg (by omega)).symm, rfl, fun _ _ => rfl, ⟨rfl, rfl⟩, rfl⟩
  | succ n ih =>
    rw [List.range_succ, List.foldl_append]
    exact ih.step

/-! ## Alternates -/

/-- The write of GPIO_PEN changes a bit of a locked pin. -/
def State.penBad (s : State) (value i : Nat) : Bool := s.lockedNow0.testBit i && (value.testBit i != s.gpio.pen.testBit i)

theorem State.penBit_of_same {s : State} {value i : Nat} (h : value.testBit i = s.gpio.pen.testBit i) : s.penBit value i = s := if_pos h

theorem State.penBit_of_locked {s : State} {value i : Nat} (h : value.testBit i ≠ s.gpio.pen.testBit i)
    (hl : s.lockedNow0.testBit i = true) : s.penBit value i = s.gpioErr 1 0 i := (if_neg h).trans (if_pos hl)

/-- The bit `i` of GPIO_PEN is written. -/
def State.penPut (s : State) (value i : Nat) : State :=
  { s with gpio := { s.gpio with pen := mixBits (2 ^ i) s.gpio.pen value, wakeAct := lessBits s.gpio.wakeAct (2 ^ i) } }

theorem State.penBit_of_free {s : State} {value i : Nat} (h : value.testBit i ≠ s.gpio.pen.testBit i)
    (hl : s.lockedNow0.testBit i = false) : s.penBit value i
      = if s.scanHolds then s.penPut value i else (s.penPut value i).modPort 0 fun x => x.park (2 ^ i) s.now :=
  (if_neg h).trans (if_neg (ne_true_of_eq_false hl))

theorem parkEnd_fold {bits now : Nat} (n : Nat) (tab : Tab Nat) {i : Nat} :
    tget 0 ((List.range n).foldl (fun t i => if bits.testBit i then tset 0 t i (now + 2) else t) tab) i
      = if i < n ∧ bits.testBit i = true then now + 2 else tget 0 tab i := by
  induction n with
  | zero => simp
  | succ n ih =>
    rw [List.range_succ, List.foldl_append, List.foldl_cons, List.foldl_nil]
    by_cases hin : i = n
    · subst hin
      cases hb : bits.testBit i
      · simp [ih, hb]
      · simp [tget_tset_self]
    · have hlt : i < n ∧ bits.testBit i = true ↔ i < n + 1 ∧ bits.testBit i = true := and_congr_left' (by omega)
      rw [← if_congr hlt rfl rfl, ← ih]
      split
      · exact tget_tset_ne _ _ _ hin
      · rfl

theorem Port.park_parkEnd (x : Port) (bits now : Nat) {i : Nat} (hi : i < 16) :
    tget 0 (x.park bits now).parkEnd i = if bits.testBit i then now + 2 else tget 0 x.parkEnd i :=
  (parkEnd_fold 16 x.parkEnd).trans (by simp [hi])

/-- `t` comes of `s` by the write of the first `n` bits of GPIO_PEN. -/
structure State.Penned (s t : State) (value n : Nat) : Prop where
  bit : ∀ i, i < 16 → t.gpio.pen.testBit i
    = if i < n ∧ s.lockedNow0.testBit i = false then value.testBit i else s.gpio.pen.testBit i
  parked : ∀ i, i < 16 → t.gpio.pen.testBit i ≠ s.gpio.pen.testBit i → s.scanHolds = false → tget 0 (t.port 0).parkEnd i = s.now + 2
  port : t.port 0 = { s.port 0 with parkEnd := (t.port 0).parkEnd }
  others : ∀ q, q ≠ 0 → t.port q = s.port q
  errs : State.Erred s t 1 0 (s.penBad value) n
  frame : ∃ g : Gpio, t = { s with gpio := g }

theorem State.lockedNow0_congr {s t : State} {g : Gpio} (ht : t = { s with gpio := g })
    (hport : t.port 0 = { s.port 0 with parkEnd := (t.port 0).parkEnd }) : t.lockedNow0 = s.lockedNow0 := by
  have hmask : t.portMask 0 = s.portMask 0 := State.portMask_congr (by rw [hport]) (by rw [ht])
  have hwith : ∀ m, t.locksWith m = s.locksWith m := fun m => by
    subst ht
    rfl
  have htick : t.thisTick = s.thisTick ∧ t.now = s.now := by
    subst ht
    exact ⟨rfl, rfl⟩
  unfold State.lockedNow0
  rw [hport, hmask, htick.1, htick.2]
  simp only [hwith]

theorem State.Penned.step {s t : State} {value n : Nat} (h : State.Penned s t value n) (hn : n < 16) :
    State.Penned s (t.penBit value n) value (n + 1) := by
  obtain ⟨g, hg⟩ := h.frame
  have hlock : t.lockedNow0 = s.lockedNow0 := State.lockedNow0_congr hg h.port
  have hscan : t.scanHolds = s.scanHolds := by rw [hg]; rfl
  have hnow : t.now = s.now := by rw [hg]; rfl
  have hold : t.gpio.pen.testBit n = s.gpio.pen.testBit n := (h.bit n hn).trans (if_neg (by omega))
  by_cases hv : value.testBit n = t.gpio.pen.testBit n
  · have hbad : s.penBad value n = false := by simp [State.penBad, hv, hold]
    rw [State.penBit_of_same hv]
    refine ⟨fun i hi => (h.bit i hi).trans ?_, h.parked, h.port, h.others, h.errs.fine hbad rfl rfl, h.frame⟩
    by_cases hin : i = n
    · simp [hin, hv, hold]
    · simp [show i < n + 1 ↔ i < n by omega]
  · cases hl : s.lockedNow0.testBit n with
    | true =>
      have hbad : s.penBad value n = true := by simp [State.penBad, hl, ← hold, hv]
      rw [State.penBit_of_locked hv (by rw [hlock, hl])]
      refine ⟨fun i hi => (h.bit i hi).trans (if_congr ?_ rfl rfl), h.parked, h.port, h.others, h.errs.bad hbad, ?_⟩
      · by_cases hin : i = n
        · simp [hin, hl]
        · simp [show i < n + 1 ↔ i < n by omega]
      · exact ⟨_, by rw [State.gpioErr, hg]⟩
    | false =>
      have hbad : s.penBad value n = false := by simp [State.penBad, hl]
      have hpen : ∀ i, i < 16 → (t.penPut value n).gpio.pen.testBit i
          = if i < n + 1 ∧ s.lockedNow0.testBit i = false then value.testBit i else s.gpio.pen.testBit i := fun i hi => by
        refine (mixBits_testBit (2 ^ n) t.gpio.pen value hi).trans ?_
        rw [Nat.testBit_two_pow, h.bit i hi]
        by_cases hin : n = i
        · simp [← hin, hl]
        · simp [hin, show i < n + 1 ↔ i < n by omega]
      rw [State.penBit_of_free hv (by rw [hlock, hl]), hscan, hnow]
      cases hs : s.scanHolds with
      | true =>
        refine ⟨hpen, fun _ _ _ hf => absurd (hs.symm.trans hf) (by decide), h.port, h.others, h.errs.fine hbad rfl rfl, ?_⟩
        exact ⟨_, by rw [if_pos rfl, State.penPut, hg]⟩
      | false =>
        refine ⟨hpen, fun i hi hne _ => ?_, ?_, fun q hq => (State.modPort_port_ne _ _ hq).trans (h.others q hq),
          h.errs.fine hbad rfl rfl, ?_⟩
        · refine (congrArg (fun x : Port => tget 0 x.parkEnd i) (State.modPort_port (t.penPut value n) 0 _)).trans ?_
          refine (Port.park_parkEnd _ _ _ hi).trans ?_
          rw [Nat.testBit_two_pow]
          by_cases hin : n = i
          · exact if_pos (decide_eq_true hin)
          · have hsame : (t.penPut value n).gpio.pen.testBit i = t.gpio.pen.testBit i := by
              rw [hpen i hi, h.bit i hi]
              exact if_congr (and_congr_left' (by omega)) rfl rfl
            rw [if_neg (by simpa using hin)]
            exact h.parked i hi (fun he => hne (hsame.trans he)) hs
        · have hp : (t.penPut value n).port 0 = { s.port 0 with parkEnd := (t.port 0).parkEnd } := h.port
          rw [if_neg (by decide), State.modPort_port, hp]
          rfl
        · exact ⟨_, by rw [if_neg (by decide), State.modPort, State.penPut, hg]⟩

theorem State.gpioPen_penned (s : State) (value : Nat) : State.Penned s (s.gpioPen value) value 16 := by
  unfold State.gpioPen
  suffices h : ∀ n, n ≤ 16 → State.Penned s ((List.range n).foldl (fun s i => s.penBit value i) s) value n from h 16 (Nat.le_refl _)
  intro n hn
  induction n with
  | zero => exact ⟨fun i _ => (if_neg (by omega)).symm, fun _ _ h => absurd rfl h, rfl, fun _ _ => rfl, ⟨rfl, rfl⟩, s.gpio, rfl⟩
  | succ n ih =>
    rw [List.range_succ, List.foldl_append]
    exact (ih (by omega)).step (by omega)

/-! ## Locks, edges and wake pins -/

theorem State.lockTimeout_of_due {s : State} {p at_ m : Nat} (hlock : (s.port p).lockAt = some (at_, m)) (hdue : at_ + 1000 ≤ s.now) :
    s.lockTimeout p = s.lockFails p := by
  unfold State.lockTimeout
  rw [hlock]
  exact if_pos hdue

theorem State.lockFails_marks (s : State) (p : Nat) : ((s.lockFails p).port p).lockAt = none
    ∧ ((s.lockFails p).port p).locked = (s.port p).locked ∧ (s.lockFails p).gpio.irq = Irq.set s.gpio.irq 8
    ∧ fld (s.lockFails p).gpio.err 0 4 = 3 ∧ (s.lockFails p).chans = s.chans ∧ (s.lockFails p).flt = s.flt := by
  have hport : (s.lockFails p).port p = { s.port p with lockAt := none } :=
    State.modPort_port s p fun x => { x with lockAt := none }
  rw [hport]
  exact ⟨rfl, rfl, rfl, fld_wpack_low 4 3 _ (by decide) (by simp), rfl, rfl⟩

theorem State.gpioLock_first {s u : State} {p key mask : Nat} (hp : p < nGpio s.hw.variant) (hu : u = s.lockPast p)
    (hlock : (u.port p).lockAt = none) : s.gpioLock p key mask
      = if key = 0x6B2D then u.modPort p (fun x => { x with lockAt := some (u.now, mask) }) else u.lockFails p := by
  subst hu
  unfold State.gpioLock
  rw [if_neg (Nat.not_le.2 hp)]
  dsimp only
  rw [hlock]

theorem State.gpioLock_second {s u : State} {p key mask at_ m : Nat} (hp : p < nGpio s.hw.variant) (hu : u = s.lockPast p)
    (hlock : (u.port p).lockAt = some (at_, m)) : s.gpioLock p key mask
      = if key = 0x2D6B ∧ mask = m ∧ u.now < at_ + 1000 then
          { u.modPort p (fun x => { x with lockAt := none, locked := Nat.lor x.locked (Nat.land mask (u.portMask p)) }) with
            gpio := { (u.modPort p
              (fun x => { x with lockAt := none, locked := Nat.lor x.locked (Nat.land mask (u.portMask p)) })).gpio with
                irq := Irq.set (u.modPort p
                  (fun x => { x with lockAt := none, locked := Nat.lor x.locked (Nat.land mask (u.portMask p)) })).gpio.irq 9 } }
        else u.lockFails p := by
  subst hu
  unfold State.gpioLock
  rw [if_neg (Nat.not_le.2 hp)]
  dsimp only
  rw [hlock]
  rfl

/-- An edge is kept, or not. -/
theorem State.edgeIf_port (u : State) (b : Bool) (e : Nat × Nat) :
    (if b then { u with gpio := { u.gpio with edges := u.gpio.edges ++ [e] } } else u).port = u.port
      ∧ (if b then { u with gpio := { u.gpio with edges := u.gpio.edges ++ [e] } } else u).gpio.edges
        = if b then u.gpio.edges ++ [e] else u.gpio.edges := by
  cases b <;> exact ⟨rfl, rfl⟩

theorem State.pinEdge_eq {s : State} {p pin : Nat} {level hit : Bool} (hp : p < nGpio s.hw.variant) (hpin : pin < 16)
    (hhit : hit = (((s.port p).inp.testBit pin != level) && decide (fld (s.gpio.selOf pin) 0 2 = p)
      && (if level then decide (fld (s.gpio.selOf pin) 2 3 = 1 ∨ fld (s.gpio.selOf pin) 2 3 = 3)
        else decide (fld (s.gpio.selOf pin) 2 3 = 2 ∨ fld (s.gpio.selOf pin) 2 3 = 3))
      && !(s.port p).claim.testBit pin && !s.gpio.latched)) :
    ∃ t, s.pinEdge p pin level = t ∧ t.port p = { s.port p with
        inp := mixBits (2 ^ pin) (s.port p).inp (b2n level * 2 ^ pin), pad := mixBits (2 ^ pin) (s.port p).pad (b2n level * 2 ^ pin) }
      ∧ (∀ q, q ≠ p → t.port q = s.port q) ∧ t.gpio.edges = (if hit then s.gpio.edges ++ [(pin, p)] else s.gpio.edges) := by
  subst hhit
  refine ⟨_, if_neg (by omega), (congrFun (State.edgeIf_port _ _ _).1 p).trans (State.modPort_port s p _),
    fun q hq => (congrFun (State.edgeIf_port _ _ _).1 q).trans (State.modPort_port_ne s _ hq), (State.edgeIf_port _ _ _).2⟩

/-- Settles O58. -/
theorem pinsComplete : Obligations.PinsComplete := by
  unfold Obligations.PinsComplete
  refine ⟨fun _ _ _ _ hw => congrArg Host.Outcome.next (State.byHost_of_writer _ hw),
    fun _ _ _ _ hw => congrArg Host.Outcome.next (State.byHost_of_writer _ hw), fun s p b on => ⟨?_, ?_, fun h => ?_⟩,
    fun s l p d v hw hd => ?_, fun s l p v free bad hw hfree hbad => ?_, fun s l v bad hw hbad => ?_,
    fun _ _ _ _ hw => congrArg Host.Outcome.next (State.byHost_of_writer _ hw),
    fun s u l p key mask hw hp hu => ⟨fun hlock => ?_, fun at_ m v hlock hv => ?_⟩, fun s p at_ m hlock hdue => ?_,
    fun s p pin level hit hp hpin hhit => ?_, fun _ _ _ _ h => congrArg Host.Outcome.next (if_pos h),
    fun s u v levels act new hpor hv hact hnew hv' hu => ?_⟩
  · exact State.modPort_port s p _
  · exact fun q hq => State.modPort_port_ne s _ hq
  · unfold State.outReplay
    rw [h]
    rfl
  · subst hd
    exact ⟨_, congrArg Host.Outcome.next (State.byHost_of_writer _ hw), State.modPort_port s p _,
      fun q hq => State.modPort_port_ne s _ hq⟩
  · obtain rfl : bad = s.pullBad p v.toNat := funext fun i => by rw [hbad, hfree]; rfl
    obtain rfl : free = s.pullFree p := funext hfree
    have h := s.gpioPull_pulled p v.toNat
    refine ⟨_, congrArg Host.Outcome.next (State.byHost_of_writer _ hw), fun i hi => (h.field i hi).trans (if_congr ?_ rfl rfl),
      h.port, h.others, h.errs.err, h.errs.irq⟩
    simp [hi]
  · obtain rfl : bad = s.penBad v.toNat := funext hbad
    have h := s.gpioPen_penned v.toNat
    refine ⟨_, congrArg Host.Outcome.next (State.byHost_of_writer _ hw), fun i hi => (h.bit i hi).trans ?_, fun i hi hne => ?_,
      h.port, h.others, h.errs.err, h.errs.irq⟩
    · cases s.lockedNow0.testBit i <;> simp [hi]
    · obtain ⟨hchange, hscan⟩ : (s.gpioPen v.toNat).gpio.pen.testBit i ≠ s.gpio.pen.testBit i ∧ s.scanHolds = false := by simpa using hne
      have hend := h.parked i hi hchange hscan
      unfold Port.parked
      rw [hend]
      exact ⟨decide_eq_true (by omega), decide_eq_false (by omega)⟩
  · have hkey : key.toNat = 0x6B2D ↔ key = 0x6B2D := BitVec.toNat_inj (y := 0x6B2D#16)
    refine congrArg Host.Outcome.next ((State.byHost_of_writer _ hw).trans ((State.gpioLock_first hp hu hlock).trans ?_))
    exact if_congr hkey rfl rfl
  · have hkey : key.toNat = 0x2D6B ↔ key = 0x2D6B := BitVec.toNat_inj (y := 0x2D6B#16)
    subst hv
    refine congrArg Host.Outcome.next ((State.byHost_of_writer _ hw).trans ((State.gpioLock_second hp hu hlock).trans ?_))
    exact if_congr (and_congr_left' hkey) rfl rfl
  · exact ⟨_, congrArg Host.Outcome.next (State.lockTimeout_of_due hlock hdue), s.lockFails_marks p⟩
  · obtain ⟨t, rfl, h⟩ := State.pinEdge_eq hp hpin hhit
    exact ⟨_, rfl, h⟩
  · subst hu hv' hnew hact
    refine congrArg Host.Outcome.next ((if_neg (by simp [hpor, hv])).trans ?_)
    unfold State.wakePins
    simp only [List.isEmpty_iff]
    rfl

end Sys2Proof.Machine
end

section
/-! PROOFS. Counters. -/

open Sys2Proof

namespace Sys2Proof.Machine

theorem State.cntCtrl_freeze (s : State) : s.cntCtrl 1#32 = { s with cnt := { s.cnt with freezing := true, missed := 0, code := 0 } } := rfl

theorem State.cntCtrl_thaw {s : State} {late : List Nat}
    (hlate : late = (s.cnt.missNow.flatten.filter fun k => !decide (tget 0 (s.cnt.freeze false true).leaf k = tget 0 s.cnt.leaf k))) :
    s.cntCtrl 2#32 = { s with
      cnt := s.cnt.missNow.flatten.foldr (fun k c => c.inc k) { s.cnt with frozen := false, freezing := false, missNow := [], code := 0 }
      env := { s.env with countDirty := late.foldl (fun t k => tset false t (k / 8) true) s.env.countDirty } } := by
  subst hlate
  rfl

theorem State.cntCtrl_snap (s : State) : s.cntCtrl 4#32 = { s with cnt :=
    (if s.cnt.servedAt = some s.now then { s.cnt with code := 3 }
     else if s.cntBusy then { s.cnt with code := 1 } else { s.cnt with code := 0, req := some (s.now + 16) }) } := rfl

theorem State.cntSnapCapture_of_due {s : State} {t : Nat} (hact : s.active = true) (hreq : s.cnt.req = some t) (hdue : t ≤ s.now) :
    s.cntSnapCapture = { s with cnt := { s.cnt with req := none, shadow := some (0, t, s.cntWords) } } := by
  unfold State.cntSnapCapture State.cntSnapBy
  rw [hreq, dueAt_some hdue]
  exact if_pos hact

theorem Cnt.ownShadow_iff {c : Cnt} {src t : Nat} {ws : Tab Word} (h : c.shadow = some (src, t, ws)) : c.ownShadow = decide (src = 0) := by
  unfold Cnt.ownShadow
  rw [h]
  rfl

theorem State.cntDeliver_of_shadow {s : State} {src t : Nat} {ws : Tab Word} (h : s.cnt.shadow = some (src, t, ws)) :
    s.cntDeliver = { s with cnt := { s.cnt with
      shadow := none, snap := s.snapLost ws, snapTick := t, src := src, done := true, irq := Irq.set s.cnt.irq 1 } } := by
  unfold State.cntDeliver
  rw [h]

/-- A write of CNT_LEAF_HI on a channel in use: the leaf reads as written, the increments of the tick leave its totals. -/
theorem State.leafHi_of_used {s : State} {k : Nat} (w : Word) (huse : s.inUse (k / 8) = true) :
    ∃ t, s.leafHi k w = t ∧ tget 0 t.cnt.leaf k = fld w 0 16 * 2 ^ 32 + s.cnt.stage ∧ tget false t.cnt.inv k = false
      ∧ tget false t.cnt.ovf k = false ∧ (∀ j, j ≠ k → tget 0 t.cnt.leaf j = tget 0 s.cnt.leaf j) ∧ t.chans = s.chans ∧ t.flt = s.flt
      ∧ t.cnt.isl = (s.cnt.unInc k).isl ∧ t.cnt.dev = (s.cnt.unInc k).dev
      ∧ t.env = (if t.cnt.leafRead k = s.cnt.leafRead k then s.env
        else { s.env with countDirty := tset false s.env.countDirty (k / 8) true }) :=
  ⟨_, if_pos huse, tget_tset_self 0 s.cnt.leaf k _, tget_tset_self false s.cnt.inv k false,
    tget_tset_self false (s.cnt.unInc k).ovf k false, fun _ hj => tget_tset_ne 0 s.cnt.leaf _ hj, rfl, rfl, rfl, rfl, rfl⟩

/-- Settles O59. -/
theorem countersComplete : Obligations.CountersComplete := by
  unfold Obligations.CountersComplete
  refine ⟨fun s l late hw hlate => ⟨?_, ?_, ?_⟩,
    fun _ _ hact hreq hdue => congrArg Host.Outcome.next (State.cntSnapCapture_of_due hact hreq hdue), fun s t ws hsh hset => ?_,
    fun s t src ws hsh h => ?_, fun s l n j v hw hn => ?_, fun s l n j v hw hj huse => ?_, fun s l n j v hw hj huse => ?_,
    fun s isl single double hact hisl hlost => ⟨_, rfl, congrArg Host.Outcome.next (if_pos (by simp [hact, hisl, hlost]))⟩,
    fun s p => ⟨_, rfl, tget_tmod_self _ _ _ _, rfl⟩⟩
  · exact congrArg Host.Outcome.next ((State.byHost_of_writer _ hw).trans s.cntCtrl_freeze)
  · exact congrArg Host.Outcome.next ((State.byHost_of_writer _ hw).trans (State.cntCtrl_thaw hlate))
  · exact congrArg Host.Outcome.next ((State.byHost_of_writer _ hw).trans s.cntCtrl_snap)
  · refine congrArg Host.Outcome.next ((if_pos ?_).trans (State.cntDeliver_of_shadow hsh))
    rw [Cnt.ownShadow_iff hsh, hsh]
    exact hset
  · refine congrArg Host.Outcome.next (if_neg ?_)
    rw [Cnt.ownShadow_iff hsh, hsh]
    rcases h with h | h <;> simp [h]
  · exact congrArg Host.Outcome.next ((State.byHost_of_writer _ hw).trans (if_pos hn))
  · have hdiv : (8 * n + j) / 8 = n := by omega
    obtain ⟨t, rfl, hleaf, hinv, hovf, hother, hchans, hflt, hisl, hdev, henv⟩ := State.leafHi_of_used (k := 8 * n + j) v (by rwa [hdiv])
    rw [hdiv] at henv
    exact ⟨_, congrArg Host.Outcome.next (State.byHost_of_writer _ hw), hleaf, hinv, hovf, hother, hchans, hflt, hisl, hdev, henv⟩
  · have hdiv : (8 * n + j) / 8 = n := by omega
    refine congrArg Host.Outcome.next ((State.byHost_of_writer _ hw).trans (if_neg ?_))
    rw [hdiv]
    exact ne_true_of_eq_false huse

end Sys2Proof.Machine
end
